-- ==== Sys2Proof/Word.lean ====
section
/-! DEFINITION. Word: the word types of the L48 (R10, R11) and nothing else. -/

namespace Sys2Proof

/-- One byte. -/
abbrev Byte := BitVec 8
/-- A 16-bit half word. -/
abbrev W16 := BitVec 16
/-- A 32-bit word: an instruction, a mailbox word, an FP32 value. -/
abbrev W32 := BitVec 32
/-- A word of 64 bits (R11: a word is 64 bits unless the text qualifies it). -/
abbrev W64 := BitVec 64

end Sys2Proof
end

