-- ==== Sys2Proof/Syntax.lean ====
section
/-! DEFINITION. Syntax: the commands of the L48, one constructor of Instr per row of the opcode table, and
the records that commands carry. What a command brings from outside the block (a sensor reading, a window
count, a flit, the outcome of a test or of a flash write) is an operand. -/

namespace Sys2Proof

/-- A general register g0–g31 (R240). -/
abbrev Reg := Fin 32

/-- The path of a dictionary access (R58): the PCIe window, CAN FD, or a peer supervisor with its source
device number. -/
inductive Path where
  | pcie
  | can
  | uzon (src : Nat)
  deriving DecidableEq, Repr

/-- What is read from outside during the start-up sequence of R495: the straps, the check of the clock
source, the results of stack training and of the device self-test, and the step ends. -/
structure BootInputs where
  /-- The flash's SFDP table is there and offers 64 MiB (R488). -/
  flashGood : Bool
  nodeId : BitVec 7
  clkSel : Bool
  /-- The edges counted in the windows of the check of R459, first window first. -/
  sourceWindows : List Nat
  pcieRefclk : Bool
  perstHigh : Bool
  /-- Lanes repaired by pseudo-channel (R276). -/
  lanesRepaired : List (Nat × Nat)
  /-- Pseudo-channels that cannot be trained, and stacks not in service (R275, R276). -/
  untrainable : List Nat
  badStacks : List Nat
  /-- Self-test failures: tile and row; tile and kind as event 0x0503 (R413). -/
  rowFailures : List (Nat × Nat)
  tileFailures : List (Nat × Nat)
  /-- OD 0x3104.01–.07. -/
  stepEnds : List Nat
  selfTestTime : Nat
  /-- The Philox circuits gave the known answer of R160 (R406, R413). -/
  philoxGood : Bool
  /-- The input voltage at boot. -/
  inputMillivolts : Nat
  deriving DecidableEq, Repr

/-- How the request of a ring to the host failed (code 0x9 of R454). -/
inductive HostFailure where
  | completerAbort
  | unsupportedRequest
  | timeout
  deriving DecidableEq, Repr

/-- The result of a frame self-test (R414): failing rows, and the first failing tile of any other
failure. -/
structure SelfTestResult where
  rowFailures : List (Nat × Nat)
  failed : Option (Nat × Nat)
  deriving DecidableEq, Repr

/-- One dictionary access (R45, R51): its path, the client or transaction it answers, and its value when
it is a write. -/
structure Access where
  path : Path
  write : Bool
  index : W16
  sub : Byte
  data : List Byte
  /-- CAN: the client; Uzon: the header of the MREQ; PCIe: what the window captured beside the value, as
  windowClient packs it. -/
  client : Nat
  /-- It opens a segmented write with these bytes (R57); never on PCIe. -/
  opens : Bool := false
  deriving DecidableEq, Repr

/-- Who holds a segmented session (R58, R374). -/
inductive SessionId where
  | can (client : Nat)
  | uzon (src : Nat) (index : W16) (sub : Byte)
  deriving DecidableEq, Repr

/-- One segment of a segmented transfer (R57). -/
structure Segment where
  who : SessionId
  write : Bool
  index : W16
  sub : Byte
  offset : Nat
  data : List Byte
  final : Bool
  /-- CAN: the toggle bit alternated as it must. -/
  toggleOk : Bool
  deriving DecidableEq, Repr

/-- The command of a USDO request (R73): expedited read or write, the start of a segmented transfer, a
block transfer or another command not supported, and a routed or remote request. -/
inductive UsdoCommand where
  | read
  | write
  | initRead
  | initWrite
  | unsupported
  | routed
  deriving DecidableEq, Repr

/-- A USDO request frame (R73). -/
structure UsdoRequest where
  /-- The CAN-ID of the frame. -/
  id : Nat
  client : Nat
  command : UsdoCommand
  index : W16
  sub : Byte
  data : List Byte
  deriving DecidableEq, Repr

/-- The shift of a SHI instruction (R243). -/
inductive ShiftOp where
  | shl
  | shr
  | sar
  deriving DecidableEq, Repr

/-- The engines whose operations end by the port grant of R177. -/
inductive ArrayEngine where
  | fwd
  | bwd
  | row
  deriving DecidableEq, Repr

/-- How the bank and engine ports took an operation: the tile cycles it waited for them, and the local rows on which one
of its accesses met another requester's in one cycle as a read and a write (R93, R94). -/
structure PortUse where
  waits : Nat := 0
  collided : List Nat := []
  deriving DecidableEq, Repr

/-- A message-mesh packet: the header flit of R219 and its data flits. -/
structure Packet where
  header : W64
  data : List W64
  /-- A router found bad parity in one of its flits (R225). -/
  marked : Bool := false
  deriving DecidableEq, Repr

/-- A Uzon transaction: the header slot of R373 and its payload slots. -/
structure Txn where
  header : BitVec 128
  payload : List Byte
  deriving DecidableEq, Repr

/-- Where a TALLY segment comes from: the sending device and frame, and the link and tag to answer
(none for a contribution of this device, R312). -/
structure TallySource where
  device : Nat
  frame : Nat
  answer : Option (Fin 24 × Nat)
  deriving DecidableEq, Repr

/-- A membership message (R326), with the device that sent it. -/
structure Membership where
  sender : Nat
  step : Nat
  revision : Nat
  replay : Bool
  members : List Nat
  deriving DecidableEq, Repr

/-- What a tile posts to the watch collector (R202): a record or a marker. -/
inductive WatchPost where
  | record (frame tile tid step flags : Nat) (amax : W32) (sat flush nonfinite : Nat)
  | marker (frame tile step count : Nat)
  deriving DecidableEq, Repr

/-- The content of a CAPS control flit (R382). -/
structure CapsData where
  device : Nat
  link : Nat
  retired : Nat
  reach : Nat
  version : Nat
  deriving DecidableEq, Repr

/-- What training found (R364, R382): the lanes that trained at both ends, reversal, inversions. -/
structure TrainResult where
  lanes : BitVec 4
  reversal : Bool
  inverted : BitVec 4
  caps : CapsData
  deriving DecidableEq, Repr

/-- One receiver's measurement in a lane test (R383). -/
structure LaneMeasure where
  lane : Fin 4
  errors : Nat
  horizontal : Nat
  vertical : Nat
  deriving DecidableEq, Repr

/-- The times to record of a snapshot (R434). -/
structure SnapshotResult where
  copyTime : Nat
  holdTime : Nat
  deriving DecidableEq, Repr

/-- How a flash erase, program and read-back ended (R493). -/
inductive FlashOutcome where
  | ok
  | writeError
  | readBackMismatch
  deriving DecidableEq, Repr

/-- The commands, one per row of the opcode table. Tile commands name the tile by its tile ID (R14);
`via` is the path a write-type command arrives by. -/
inductive Instr where
  /-- POWER_UP (R495). The 12 V input reaches 11.4 V and the module runs the start-up sequence through step 7. -/
  | powerUp (b : BootInputs)
  /-- MOD_RESET (R496). MOD_RESET_N held low for at least 10 µs performs a device reset with the rails up, rerunning start-up from step 2. -/
  | modReset (b : BootInputs)
  /-- BROWN_OUT (R481). The 12 V input falls below 10.2 V, the regulators switch off every die rail and PWR_GOOD drops. -/
  | brownOut
  /-- INPUT_OUT_OF_LIMITS (R481). The 12 V input stays outside 11.4–12.6 V for over 1 ms, so event 0x0900 is logged and EMCY 0x3100 is sent once. -/
  | inputOutOfLimits (mv : Nat)
  /-- INPUT_BACK_IN_LIMITS (R500). The 12 V input stays within limits for 1 s and the 0x3100 condition clears. -/
  | inputBackInLimits (mv : Nat)
  /-- HARDWARE_TRIP (R471). A junction sensor reaches 115 °C and the hardware trip switches off the die supply rails. -/
  | hardwareTrip (sensor : Fin 16) (temp : Int)
  /-- RECOVERY_IMAGE_LOAD (R492). In recovery, DB_H2S bit 0 makes the boot logic verify the staged image, write it to slot A and reset the device. -/
  | recoveryImageLoad (b : BootInputs)
  /-- CLOCK_MONITOR_WINDOW (R462). A window of 250 internal-oscillator cycles ends and the source edge count is judged against the reference. -/
  | clockMonitorWindow (edges : Nat)
  /-- RETURN_TO_SOURCE (R465). A host write of 0x01 to OD 0x2F01.04 starts the return to the chosen source after 100 passing windows. -/
  | returnToSource (via : Path)
  /-- POWER_CAP_ADJUST (R470). Every 100 µs the power-cap governor lowers or raises f_cap from the 1 ms average input power. -/
  | powerCapAdjust (watts : Nat)
  /-- FAST_PATH_LIMIT (R470). Power averaged over a 20 µs window exceeds 1,250 W, forcing a stretch of at least 1.25× on both decks. -/
  | fastPathLimit (watts : Nat)
  /-- THERMAL_ADJUST (R471). Every 100 µs the thermal governor lowers or raises f_therm from the hottest junction sensor. -/
  | thermalAdjust (sensor : Fin 16) (temp : Int)
  /-- DROOP_STRETCH (R469). A supply sensor reads a sag at or above 5 % or 8 % and the stretch factor of its domain rises. -/
  | droopStretch (sensor : Fin 32) (sag : Nat)
  /-- DROOP_HOLD_EXPIRY (R469). Every sensor stays below its return bound for 256 tile cycles and the stretch factor steps down. -/
  | droopHoldExpiry (lower : Bool)
  /-- MONITOR_ARM (R476). Command 0x01 sets every selected monitor point to ARMED. -/
  | monitorArm (via : Path)
  /-- MONITOR_FREEZE (R476). Command 0x02 sets every selected monitor point to FROZEN and holds its values. -/
  | monitorFreeze (via : Path)
  /-- MONITOR_CLEAR (R476). Command 0x03 clears the count, sum, flags, min, max and bins of every selected point. -/
  | monitorClear (via : Path)
  /-- MONITOR_CLEAR_AND_ARM (R476). Command 0x04 clears and then arms every selected monitor point. -/
  | monitorClearAndArm (via : Path)
  /-- MONITOR_SAMPLE (R475). A sample of an ARMED point's source updates its count, sum, min, max and one histogram bin. -/
  | monitorSample (point : Fin 64) (value : Int)
  /-- REQUEST_QUEUE_ARRIVAL (R51). A dictionary access from any path enters the 32-place request queue of supervisor core 0, or is refused when the queue is full. -/
  | requestQueueArrival (a : Access)
  /-- DICTIONARY_WRITE (R45). A write to an entry with no row of its own is checked in order and applied at one instant. -/
  | dictionaryWrite (via : Path) (index : W16) (sub : Byte) (data : List Byte)
  /-- SEGMENTED_TRANSFER_SEGMENT (R57). A segment of a segmented read or write is served from its capture or added to its gather buffer. -/
  | segmentedTransferSegment (seg : Segment)
  /-- SESSION_TIMEOUT (R59). No segment arrives within the session timeout, so the session ends with abort 0x0504_0000. -/
  | sessionTimeout (who : SessionId)
  /-- STORE_PARAMETERS (R63). A write of 0x6576_6173 to OD 0x1010 captures the saved values and starts writing the older flash copy. -/
  | storeParameters (via : Path) (group : Fin 3)
  /-- STORE_COMPLETE (R63). The new copy of the saved set is written and verified, or fails, and the store is acknowledged. -/
  | storeComplete (ok : Bool)
  /-- RESTORE_DEFAULTS (R64). A write of 0x6461_6F6C to OD 0x1011 starts writing a copy of the saved set in which the marked groups hold no values. -/
  | restoreDefaults (via : Path) (group : Fin 3)
  /-- RESTORE_DEFAULTS_COMPLETE (R64). The restore copy is verified, or fails, and the restore write is acknowledged. -/
  | restoreDefaultsComplete (ok : Bool)
  /-- ERROR_HISTORY_CLEAR (R500). A write of 0 to OD 0x1003.00 clears the error history, releases held events and sends error code 0x0000. -/
  | errorHistoryClear (via : Path)
  /-- EMCY_SEND (R76). The inhibit time has passed and the next queued event is sent as an EMCY frame. -/
  | emcySend
  /-- START_REMOTE_NODE (R74). NMT command 0x01 moves the CAN node to Operational. -/
  | startRemoteNode (node : BitVec 7)
  /-- STOP_REMOTE_NODE (R74). NMT command 0x02 moves the CAN node to Stopped. -/
  | stopRemoteNode (node : BitVec 7)
  /-- ENTER_PRE_OPERATIONAL (R74). NMT command 0x80 moves the CAN node to Pre-operational. -/
  | enterPreOperational (node : BitVec 7)
  /-- RESET_NODE (R74). NMT command 0x81 performs a reset communication under scope 0, or a device reset under scope 1. -/
  | resetNode (node : BitVec 7) (b : BootInputs)
  /-- RESET_COMMUNICATION (R74). NMT command 0x82 drops CAN sessions, loads the saved communication entries, reads the node-ID and sends boot-up. -/
  | resetCommunication (node : BitVec 7) (strap : BitVec 7)
  /-- HEARTBEAT_PRODUCE (R75). The heartbeat producer time elapses and a heartbeat is sent. -/
  | heartbeatProduce
  /-- HEARTBEAT_RECEIVE (R75). A watched node's heartbeat arrives and restarts its consumer timer, clearing any timeout. -/
  | heartbeatReceive (node : BitVec 7)
  /-- HEARTBEAT_CONSUMER_TIMEOUT (R75). A watched heartbeat stays absent beyond its consumer time, so EMCY 0x8130 is raised. -/
  | heartbeatConsumerTimeout (c : Fin 4)
  /-- USDO_REQUEST_RECEIVE (R73). A USDO request frame reaches the CAN server and is passed to the dictionary queue. -/
  | usdoRequestReceive (req : UsdoRequest)
  /-- BUS_OFF_RECOVERY (R78). After 128 occurrences of 11 recessive bits the CAN controller rejoins the bus and raises EMCY 0x8140. -/
  | busOffRecovery
  /-- MARK_COLUMN_PENDING (R25). A host write to OD 0x2012.03 marks an enabled physical column pending retirement and faults its frame. -/
  | markColumnPending (via : Path) (col : Byte)
  /-- APPLY_RETIREMENTS (R27). A write of 0x01 to OD 0x2012.02 while every frame is EMPTY retires all pending columns and chooses the new width. -/
  | applyRetirements (via : Path)
  /-- LOAD (R33). Frame command 0x01 checks the frame entries and image set and starts placing the images. -/
  | load (via : Path) (f : Fin 8)
  /-- LOAD_COMPLETE (R272). The loader has placed every section and latched the declarations, and the frame becomes LOADED. -/
  | loadComplete (f : Fin 8)
  /-- START (R34). Frame command 0x02 begins every tile at its entry point, or resumes a stopped frame. -/
  | start (via : Path) (f : Fin 8)
  /-- STOP (R34). Frame command 0x03 halts the frame at its next completed sync. -/
  | stop (via : Path) (f : Fin 8)
  /-- STOP_TIMEOUT (R34). No sync completes within the stop timeout after STOP, so the frame goes to FAULTED. -/
  | stopTimeout (f : Fin 8)
  /-- RESET (R34). Frame command 0x04 clears the tile state and reloads the images from the latched reference. -/
  | reset (via : Path) (f : Fin 8)
  /-- RESET_COMPLETE (R34). The reload after RESET ends and the frame becomes LOADED. -/
  | resetComplete (f : Fin 8)
  /-- SELFTEST (R414). Frame command 0x05 runs the frame self-test on its band. -/
  | selftest (via : Path) (f : Fin 8)
  /-- SELFTEST_COMPLETE (R414). The frame self-test ends, leaving the frame LOADED after a reload or FAULTED with cause 0x000C. -/
  | selftestComplete (f : Fin 8) (r : SelfTestResult)
  /-- UNLOAD (R34). Frame command 0x06 idles the tiles and releases the frame's channels and links. -/
  | unload (via : Path) (f : Fin 8)
  /-- ADD (R245). rd = ra + rb. -/
  | add (t : Nat) (rd : Reg) (ra : Reg) (rb : Reg)
  /-- SUB (R245). rd = ra − rb. -/
  | sub (t : Nat) (rd : Reg) (ra : Reg) (rb : Reg)
  /-- AND (R245). rd = ra AND rb. -/
  | andR (t : Nat) (rd : Reg) (ra : Reg) (rb : Reg)
  /-- OR (R245). rd = ra OR rb. -/
  | orR (t : Nat) (rd : Reg) (ra : Reg) (rb : Reg)
  /-- XOR (R245). rd = ra XOR rb. -/
  | xorR (t : Nat) (rd : Reg) (ra : Reg) (rb : Reg)
  /-- SHL (R245). rd = ra shifted left by rb[5:0]. -/
  | shl (t : Nat) (rd : Reg) (ra : Reg) (rb : Reg)
  /-- SHR (R245). rd = ra shifted right logically by rb[5:0]. -/
  | shr (t : Nat) (rd : Reg) (ra : Reg) (rb : Reg)
  /-- SAR (R245). rd = ra shifted right arithmetically by rb[5:0]. -/
  | sar (t : Nat) (rd : Reg) (ra : Reg) (rb : Reg)
  /-- MUL (R245). rd = low 64 bits of ra × rb. -/
  | mul (t : Nat) (rd : Reg) (ra : Reg) (rb : Reg)
  /-- MULHU (R245). rd = high 64 bits of the unsigned product. -/
  | mulhu (t : Nat) (rd : Reg) (ra : Reg) (rb : Reg)
  /-- MULHS (R245). rd = high 64 bits of the signed product. -/
  | mulhs (t : Nat) (rd : Reg) (ra : Reg) (rb : Reg)
  /-- MIN (R245). rd = signed minimum of ra and rb. -/
  | minS (t : Nat) (rd : Reg) (ra : Reg) (rb : Reg)
  /-- MINU (R245). rd = unsigned minimum of ra and rb. -/
  | minU (t : Nat) (rd : Reg) (ra : Reg) (rb : Reg)
  /-- MAX (R245). rd = signed maximum of ra and rb. -/
  | maxS (t : Nat) (rd : Reg) (ra : Reg) (rb : Reg)
  /-- MAXU (R245). rd = unsigned maximum of ra and rb. -/
  | maxU (t : Nat) (rd : Reg) (ra : Reg) (rb : Reg)
  /-- CMP (R244). Forms ra − rb and sets the flags. -/
  | cmp (t : Nat) (ra : Reg) (rb : Reg)
  /-- TST (R244). Forms ra AND rb, sets Z and N and clears C and V. -/
  | tst (t : Nat) (ra : Reg) (rb : Reg)
  /-- JALR (R245). rd = PC + 4 and PC = ra. -/
  | jalr (t : Nat) (rd : Reg) (ra : Reg)
  /-- ADDI (R245). rd = ra + sign-extended imm16. -/
  | addi (t : Nat) (rd : Reg) (ra : Reg) (imm : W16)
  /-- ANDI (R245). rd = ra AND zero-extended imm16. -/
  | andi (t : Nat) (rd : Reg) (ra : Reg) (imm : W16)
  /-- ORI (R245). rd = ra OR zero-extended imm16. -/
  | ori (t : Nat) (rd : Reg) (ra : Reg) (imm : W16)
  /-- XORI (R245). rd = ra XOR zero-extended imm16. -/
  | xori (t : Nat) (rd : Reg) (ra : Reg) (imm : W16)
  /-- SHI (R243). rd = ra shifted by the immediate amount, as SHL, SHR or SAR. -/
  | shi (t : Nat) (rd : Reg) (ra : Reg) (op : ShiftOp) (amount : BitVec 6)
  /-- CMPI (R244). Forms ra − sign-extended imm16 and sets the flags. -/
  | cmpi (t : Nat) (ra : Reg) (imm : W16)
  /-- MOVI (R245). rd = sign-extended imm16. -/
  | movi (t : Nat) (rd : Reg) (imm : W16)
  /-- MOVK (R245). Writes imm16 into half-word hw of rd and keeps the other bits. -/
  | movk (t : Nat) (rd : Reg) (hw : Fin 4) (imm : W16)
  /-- LDB (R247). Loads a sign-extended byte from core scratch. -/
  | ldb (t : Nat) (rd : Reg) (ra : Reg) (imm : W16)
  /-- LDBU (R247). Loads a zero-extended byte from core scratch. -/
  | ldbu (t : Nat) (rd : Reg) (ra : Reg) (imm : W16)
  /-- LDH (R247). Loads a sign-extended half-word from core scratch. -/
  | ldh (t : Nat) (rd : Reg) (ra : Reg) (imm : W16)
  /-- LDHU (R247). Loads a zero-extended half-word from core scratch. -/
  | ldhu (t : Nat) (rd : Reg) (ra : Reg) (imm : W16)
  /-- LDW (R247). Loads a sign-extended word from core scratch. -/
  | ldw (t : Nat) (rd : Reg) (ra : Reg) (imm : W16)
  /-- LDWU (R247). Loads a zero-extended word from core scratch. -/
  | ldwu (t : Nat) (rd : Reg) (ra : Reg) (imm : W16)
  /-- LDD (R247). Loads a doubleword from core scratch. -/
  | ldd (t : Nat) (rd : Reg) (ra : Reg) (imm : W16)
  /-- STB (R247). Stores the low byte of rs in core scratch. -/
  | stb (t : Nat) (rs : Reg) (ra : Reg) (imm : W16)
  /-- STH (R247). Stores the low 2 bytes of rs in core scratch. -/
  | sth (t : Nat) (rs : Reg) (ra : Reg) (imm : W16)
  /-- STW (R247). Stores the low 4 bytes of rs in core scratch. -/
  | stw (t : Nat) (rs : Reg) (ra : Reg) (imm : W16)
  /-- STD (R247). Stores 8 bytes of rs in core scratch. -/
  | std (t : Nat) (rs : Reg) (ra : Reg) (imm : W16)
  /-- B_COND (R244). Branches when the condition on the flags holds. -/
  | bCond (t : Nat) (c : Fin 15) (off : BitVec 22)
  /-- J (R245). Jumps by the signed word offset. -/
  | jump (t : Nat) (off : BitVec 26)
  /-- JAL (R245). Writes PC + 4 to g31 and jumps. -/
  | jal (t : Nat) (off : BitVec 26)
  /-- ISSUE_FWD (R167). ISSUE with engine 1 hands a FWD descriptor to the forward engine, which checks it and starts Y = X · W. -/
  | issueFwd (t : Nat) (ra : Reg) (imm : W16)
  /-- ISSUE_BWD (R169). ISSUE with engine 2 hands a BWD descriptor to the dX and/or dW arrays and abandons any running shadow job. -/
  | issueBwd (t : Nat) (ra : Reg) (imm : W16)
  /-- ISSUE_XCH (R263). ISSUE with engine 5 gives the exchange engine the laid table of the next exchange phase. -/
  | issueXch (t : Nat) (ra : Reg) (imm : W16)
  /-- ROW_MAP (R179). A ROW operation applies f(fma(c0, x, c1)) to each element. -/
  | rowMap (t : Nat) (ra : Reg) (imm : W16)
  /-- ROW_BINARY (R179). A ROW operation applies add, subtract, multiply, max or min to in0 and in1. -/
  | rowBinary (t : Nat) (ra : Reg) (imm : W16)
  /-- ROW_CONVERT (R179). A ROW operation converts rows into the output format, optionally re-blocking them with TBLK. -/
  | rowConvert (t : Nat) (ra : Reg) (imm : W16)
  /-- ROW_REDUCE (R152). A ROW operation reduces each row to one FP32 value by the reference reduction. -/
  | rowReduce (t : Nat) (ra : Reg) (imm : W16)
  /-- NORM_FWD (R182). A ROW operation computes LayerNorm or RMS statistics and outputs. -/
  | normFwd (t : Nat) (ra : Reg) (imm : W16)
  /-- NORM_BWD (R183). A ROW operation computes the normalisation input gradient from the saved statistics. -/
  | normBwd (t : Nat) (ra : Reg) (imm : W16)
  /-- SOFTMAX_FWD (R184). A ROW operation computes the soft-maximum with optional mask and dropout, and saves m and l. -/
  | softmaxFwd (t : Nat) (ra : Reg) (imm : W16)
  /-- SOFTMAX_BWD (R184). A ROW operation computes the soft-maximum input gradient. -/
  | softmaxBwd (t : Nat) (ra : Reg) (imm : W16)
  /-- ATTN_PROB (R185). A ROW operation recomputes attention probabilities from scores and the saved statistics. -/
  | attnProb (t : Nat) (ra : Reg) (imm : W16)
  /-- ATTN_DS (R185). A ROW operation computes attention score gradients. -/
  | attnDs (t : Nat) (ra : Reg) (imm : W16)
  /-- ACT_BWD (R179). A ROW operation computes y × f′(x). -/
  | actBwd (t : Nat) (ra : Reg) (imm : W16)
  /-- DROPOUT (R186). A ROW operation zeroes dropped elements and scales kept ones by c0. -/
  | dropout (t : Nat) (ra : Reg) (imm : W16)
  /-- DMA_MOVE (R257). ISSUE with engine 4 starts a local, remote-read or remote-write MOVE. -/
  | dmaMove (t : Nat) (ra : Reg) (imm : W16)
  /-- DMA_TRANSPOSE (R258). ISSUE with engine 4 starts an element transpose into local main memory. -/
  | dmaTranspose (t : Nat) (ra : Reg) (imm : W16)
  /-- DMA_STAGED_READ (R126). ISSUE with engine 4 posts a staged read from the stack into the edge inbound queue. -/
  | dmaStagedRead (t : Nat) (ra : Reg) (imm : W16)
  /-- DMA_STAGED_WRITE (R128). ISSUE with engine 4 opens a staged write that takes words pushed into the outbound queue. -/
  | dmaStagedWrite (t : Nat) (ra : Reg) (imm : W16)
  /-- DMA_LINK_WRITE (R260). ISSUE with engine 4 sends rows as remote writes over an attached link in an external phase. -/
  | dmaLinkWrite (t : Nat) (ra : Reg) (imm : W16)
  /-- DMA_ZERO (R257). ISSUE with engine 4 zeroes a local range. -/
  | dmaZero (t : Nat) (ra : Reg) (imm : W16)
  /-- WAITK (R251). Waits until counter k ≥ n and then subtracts n. -/
  | waitk (t : Nat) (c : Fin 8) (n : W16)
  /-- SYNC (R253). The tile arrives at a sync of the frame with its kind and flags. -/
  | sync (t : Nat) (kind : Fin 4) (stepAdvance : Bool) (scanClose : Bool) (switchPoint : Bool)
  /-- SEND (R252). Sends a tuple of 1–4 words, waiting for injection room. -/
  | send (t : Nat) (ra : Reg) (rb : Reg) (nq : Fin 4)
  /-- SENDN (R252). Sends a tuple without waiting and reports the outcome in rd. -/
  | sendn (t : Nat) (rd : Reg) (ra : Reg) (rb : Reg) (nq : Fin 4)
  /-- RECV (R252). Takes the head word of a queue, waiting while it is empty. -/
  | recv (t : Nat) (rd : Reg) (q : Fin 4)
  /-- RECVN (R252). Takes the head word of a queue if present and reports success in ra. -/
  | recvn (t : Nat) (rd : Reg) (ra : Reg) (q : Fin 4)
  /-- TSR (R245). Reads a tile status word into rd. -/
  | tsr (t : Nat) (rd : Reg) (ix : Fin 64)
  /-- TSWW (R245). Writes an RW status word or clears an R/C status word. -/
  | tsww (t : Nat) (ra : Reg) (ix : Fin 64)
  /-- RDK (R245). Reads a completion counter into rd. -/
  | rdk (t : Nat) (rd : Reg) (c : Fin 8)
  /-- SETK (R241). Sets a completion counter to ra[31:0]. -/
  | setk (t : Nat) (ra : Reg) (c : Fin 8)
  /-- RSTEP (R245). Reads the frame's current step into rd. -/
  | rstep (t : Nat) (rd : Reg)
  /-- TRAP (R266). Software trap: trap entry, then the handler flag is set and the context's trap vector is taken. -/
  | trap (t : Nat) (ix : Fin 64)
  /-- RTE (R266). Returns from a trap handler, restoring the flags and continuing at the saved PC + 4. -/
  | rte (t : Nat)
  /-- END (R254). Waits for the engines, table and staged reads to finish, then closes the tile's queues and ends its program. -/
  | endProgram (t : Nat)
  /-- TRAP_ENTRY_COMPLETE (R265). Trap entry ends, so the frame faults, the handler starts, or a held trap is taken as nested. -/
  | trapEntryComplete (t : Nat)
  /-- ENGINE_OPERATION_COMPLETE (R177). An engine operation's last row write is granted, its counter rises and its waiting operation starts. -/
  | engineOperationComplete (t : Nat) (e : ArrayEngine) (use : PortUse)
  /-- DMA_COMPLETE (R257). A DMA reaches its mode's completion point and signals its counter. -/
  | dmaComplete (t : Nat) (use : PortUse)
  /-- STAGED_READ_WORD_ARRIVAL (R126). A word of a staged read enters the inbound edge queue in address order. -/
  | stagedReadWordArrival (t : Nat)
  /-- STAGED_WRITE_COMPLETE (R128). The last word of a staged write is written to the stack and its DMA completes. -/
  | stagedWriteComplete (t : Nat)
  /-- COUNTER_WAIT_TIMEOUT (R255). A WAITK or ISSUE waits past the receive-wait timeout and takes the wait-timeout trap. -/
  | counterWaitTimeout (t : Nat)
  /-- LAID_TABLE_ENTRY (R122). A laid table entry runs for its cycles, reading and writing rows, driving ports and gathering sectors. -/
  | laidTableEntry (f : Fin 8)
  /-- XCH_TABLE_END (R262). A table's last entry ends and the XCH counter is signalled in the next tile cycle. -/
  | xchTableEnd (t : Nat)
  /-- SYNC_RELEASE (R111). The sync network has collected every arrival and releases every tile of the frame in the same tile cycle. -/
  | syncRelease (f : Fin 8)
  /-- SYNC_WATCHDOG_EXPIRY (R113). The release does not come within the watchdog count and the frame goes to FAULTED. -/
  | syncWatchdogExpiry (f : Fin 8)
  /-- SYNC_TOKEN_SEND (R132). Once every tile has arrived and the writes to a peer are acknowledged, a sync token is sent to that peer. -/
  | syncTokenSend (f : Fin 8) (peer : Fin 32)
  /-- SYNC_TOKEN_RECEIVE (R133). A TOKEN transaction is matched to its frame and counted, held or discarded by phase number. -/
  | syncTokenReceive (k : Fin 24) (x : Txn)
  /-- EXTERNAL_SYNC_RELEASE (R134). The exit sync of an external phase releases after the last arrival and every peer token. -/
  | externalSyncRelease (f : Fin 8)
  /-- EXTERNAL_TIMEOUT (R135). An external exit sync does not release within the external timeout and the frame faults. -/
  | externalTimeout (f : Fin 8)
  /-- CONTEXT_SWITCH (R103). After a switch-point release and once the tile is idle, the tile switches register context in 16 tile cycles. -/
  | contextSwitch (t : Nat)
  /-- PACKET_HOP (R221). A message-mesh flit is received by a router and routed onward under credit flow control. -/
  | packetHop (t : Nat) (port : Fin 5) (cls : Fin 4) (badParity : Bool)
  /-- TUPLE_ARRIVAL (R226). A tuple reaches a tile queue and enters whole, waits for room, or is refused if the queue is CLOSED. -/
  | tupleArrival (t : Nat) (p : Packet)
  /-- TUPLE_ENTER_AFTER_WAIT (R228). A tuple waiting at the ejection stage enters its queue once reads have made room. -/
  | tupleEnterAfterWait (t : Nat) (q : Fin 4)
  /-- REFUSAL_ARRIVAL (R234). A refusal packet reaches the sending tile and is recorded in its queue status word. -/
  | refusalArrival (t : Nat) (p : Packet)
  /-- SEND_STALL_TIMEOUT (R230). A waiting send exceeds the send-stall timeout, so the frame faults and the stall report is frozen. -/
  | sendStallTimeout (t : Nat)
  /-- RECEIVE_WAIT_TIMEOUT (R230). A waiting read exceeds the receive-wait timeout, so the frame faults and the stall report is frozen. -/
  | receiveWaitTimeout (t : Nat)
  /-- ROW_READ_REQUEST (R231). A remote row read request reaches its target tile or gateway, which reads the row and sends a response. -/
  | rowReadRequest (t : Nat) (p : Packet) (use : PortUse)
  /-- ROW_WRITE (R231). A remote row write reaches its target, which writes the row and sends an acknowledgement. -/
  | rowWrite (t : Nat) (p : Packet) (use : PortUse)
  /-- READ_RESPONSE (R232). A read response writes the reserved row at the requester. -/
  | readResponse (t : Nat) (p : Packet)
  /-- WRITE_ACKNOWLEDGEMENT (R232). A write acknowledgement reaches the requester and frees its tag. -/
  | writeAcknowledgement (t : Nat) (p : Packet)
  /-- MEMORY_GATEWAY_REQUEST (R284). A memory gateway serves a row access to the stacks or staging memory, checked block by block against the frame's channels. -/
  | memoryGatewayRequest (south : Bool) (p : Packet)
  /-- SUPERVISOR_QUEUE_ARRIVAL (R235). A tuple reaches the frame's supervisor queue and enters, waits, or is refused. -/
  | supervisorQueueArrival (p : Packet)
  /-- SUPERVISOR_TUPLE_SERVICE (R235). The supervisor firmware takes a tuple in arrival order and places it in a result slot. -/
  | supervisorTupleService (f : Fin 8)
  /-- SUPERVISOR_TUPLE_SEND (R235). The supervisor sends a tuple to a tile queue in class 0. -/
  | supervisorTupleSend (t : Nat) (q : Fin 4) (words : List W64)
  /-- H2S_DATA (R236). A host write pushes one word into an H2S mailbox queue, or is dropped if it is full. -/
  | h2sData (i : Fin 8) (w : W32)
  /-- S2H_DATA (R236). A host read takes the head word of an S2H mailbox queue. -/
  | s2hData (i : Fin 8)
  /-- SUPERVISOR_MAILBOX_WRITE (R236). The supervisor pushes a word into an S2H queue and raises the pair's vector when it becomes non-empty. -/
  | supervisorMailboxWrite (i : Fin 8) (w : W32)
  /-- SUPERVISOR_MAILBOX_READ (R236). The supervisor takes the head word of an H2S queue. -/
  | supervisorMailboxRead (i : Fin 8)
  /-- MB_CLEAR (R446). A W1C write clears the H2S TIMEOUT and overflow bits of a mailbox pair. -/
  | mbClear (i : Fin 8) (host : Bool) (w : W32)
  /-- MAILBOX_TIMEOUT (R237). A mailbox queue timer reaches the timeout, so TIMEOUT is set and the receiver state recorded. -/
  | mailboxTimeout (i : Fin 8) (h2s : Bool)
  /-- DB_H2S (R447). A host W1S write sets host-to-supervisor doorbell bits. -/
  | dbH2s (w : W64)
  /-- DB_S2H (R447). A host W1C write clears supervisor-to-host doorbell bits. -/
  | dbS2h (w : W64)
  /-- SUPERVISOR_DOORBELL_SET (R238). The supervisor sets S2H doorbell bits and raises MSI-X vector 10. -/
  | supervisorDoorbellSet (w : W64)
  /-- SUPERVISOR_DOORBELL_CLEAR (R238). The supervisor clears H2S doorbell bits. -/
  | supervisorDoorbellClear (w : W64)
  /-- WATCH_LINE_COPY (R201). The watch unit copies changed registers into a watch line in a free stat-memory port cycle. -/
  | watchLineCopy (t : Nat) (slot : Fin 16)
  /-- WATCH_RECORD_ARRIVAL (R202). A watch record or marker reaches the watch collector. -/
  | watchRecordArrival (r : WatchPost) (poisoned : Bool)
  /-- WATCH_STEP_CLOSE (R203). The collector holds every marker and record of a step and closes it for each tracked tensor. -/
  | watchStepClose (f : Fin 8)
  /-- SHADOW_JOB_COMPLETE (R211). A shadow job ends, and its divergence is binned and posted to the collector. -/
  | shadowJobComplete (t : Nat)
  /-- SCRUB_START (R297). Scrub command 0x01 starts a pass over the configured range or is refused. -/
  | scrubStart (via : Path) (u : Fin 5)
  /-- SCRUB_ABORT (R300). Scrub command 0x02 stops the pass after the access in progress. -/
  | scrubAbort (via : Path) (u : Fin 5)
  /-- SCRUB_READ (R298). A scrub unit reads a row or block and counts, writes back or poisons errors by mode. -/
  | scrubRead (u : Fin 5)
  /-- SCRUB_PASS_DONE (R300). A scrub pass reaches its end address and its summary is held. -/
  | scrubPassDone (u : Fin 5)
  /-- STACK_REFRESH (R277). The refresh interval elapses and a per-bank refresh is issued. -/
  | stackRefresh (stack : Fin 4)
  /-- STACK_PERIODIC_CHECK (R276). Every 1 ms the controller tracks delay drift and reads temperature and on-die error reports. -/
  | stackPeriodicCheck (stack : Fin 4) (temp : Int) (onDie : List (Nat × Nat))
  /-- RETIRE_PSEUDO_CHANNEL (R301). A host write to OD 0x2803.01 with 0xC3 retires a pseudo-channel. -/
  | retirePseudoChannel (via : Path) (value : W16)
  /-- PSEUDO_CHANNEL_RETIREMENT_DRAINED (R302). The in-flight transactions of a retiring pseudo-channel drain, its addresses become unbacked and holding frames fault. -/
  | pseudoChannelRetirementDrained (pc : Fin 256)
  /-- ROW_TEST (R410). A pending tile row is tested with four patterns when R88 allows, and replaced by a spare if it fails. -/
  | rowTest (t : Nat) (row : Nat) (fails : Bool)
  /-- RUN_PSEUDO_CHANNEL_TESTS (R411). A host write of 0x01 to OD 0x2D02.05 starts the pending pseudo-channel tests at once. -/
  | runPseudoChannelTests (via : Path)
  /-- PSEUDO_CHANNEL_TEST (R411). A pseudo-channel's failing 4 KiB block is tested with 8 raw patterns and restored. -/
  | pseudoChannelTest (pc : Fin 256) (fails : Bool)
  /-- FAULT_LOG_FLASH_COPY (R431). The fault log is copied to the configuration flash within 100 ms of an event. -/
  | faultLogFlashCopy
  /-- TALLY_SEND_RECORD (R315). A tally sender quantises a send-list record and sends it to its owner as segments. -/
  | tallySendRecord (j : Fin 16) (r : Nat)
  /-- TALLY_SEGMENT_ARRIVAL (R318). A TALLY segment is checked at the owner, and if accepted it is added into its context. -/
  | tallySegmentArrival (src : TallySource) (header : BitVec 128) (data : List Byte)
  /-- TALLY_ACK_RECEIVE (R318). A segment acknowledgement reaches the sender, which acts on its status. -/
  | tallyAckReceive (j : Fin 16) (r step : Nat) (revision status : Fin 16) (e : BitVec 12)
  /-- TALLY_RETRY (R318). A set-aside record is retried after the retry interval. -/
  | tallyRetry (j : Fin 16) (r : Nat)
  /-- TALLY_CONTEXT_CLOSE (R323). A CLOSING context with its buffer written back is closed, moved to DATA, or redone. -/
  | tallyContextClose (c : Fin 16384)
  /-- TALLY_NOTICE_RECEIVE (R323). A close notice updates the exponent table or triggers a MAX segment or a data send. -/
  | tallyNoticeReceive (header : BitVec 128)
  /-- TALLY_LEASE_EXPIRY (R322). A context's lease expires, so it is discarded and missing contributors are reported. -/
  | tallyLeaseExpiry (c : Fin 16384)
  /-- TALLY_DISCARD_COMPLETE (R321). A discarded context's sum area zeroing ends and it becomes FREE. -/
  | tallyDiscardComplete (c : Fin 16384)
  /-- ROLL_CALL_ANSWER (R325). Once every frame of the job has released scan-close or faulted, the device answers READY or WITHDRAW. -/
  | rollCallAnswer (j : Fin 16)
  /-- ROLL_ANSWER_RECEIVE (R326). The keeper receives a roll-call answer and fixes revision 0 once all answers are in. -/
  | rollAnswerReceive (j : Fin 16) (dev : Nat) (step : Nat) (ready : Bool)
  /-- ROLL_DEADLINE_EXPIRY (R326). The roll deadline passes and the keeper fixes revision 0 with the READY devices. -/
  | rollDeadlineExpiry (j : Fin 16)
  /-- MEMBERSHIP_RECEIVE (R327). A device accepts a higher membership revision, updates n_exp and sends, retracts or discards. -/
  | membershipReceive (j : Fin 16) (m : Membership)
  /-- REPORT_RECEIVE (R328). The keeper receives SENT or CLOSED and seals the step when all are in. -/
  | reportReceive (j : Fin 16) (dev : Nat) (step : Nat) (rev : Nat) (sent : Bool)
  /-- SEAL_RECEIVE (R328). A device accepts a seal, hands closed contexts to update engines and writes the carry buffers. -/
  | sealReceive (j : Fin 16) (dev : Nat) (step : Nat)
  /-- WITHDRAW_LATE (R330). After its in-flight segments are acknowledged, a member with a late fault sends WITHDRAW-LATE. -/
  | withdrawLate (j : Fin 16)
  /-- WITHDRAW_LATE_RECEIVE (R331). The keeper receives WITHDRAW-LATE and issues a retraction or replay revision. -/
  | withdrawLateReceive (j : Fin 16) (dev : Nat) (step : Nat) (retractable : Bool) (floats : List Nat)
  /-- KEEPER_HEARTBEAT (R333). The keeper and standby exchange their 1 ms heartbeats. -/
  | keeperHeartbeat (j : Fin 16) (dev : Nat)
  /-- KEEPER_LEASE_EXPIRY (R333). The keeper's lease expires at the standby, which sends TAKEOVER. -/
  | keeperLeaseExpiry (j : Fin 16)
  /-- TAKEOVER_RECEIVE (R333). A device holds the standby as keeper from then on. -/
  | takeoverReceive (j : Fin 16) (dev : Nat)
  /-- UPDATE_BUCKET (R345). An update engine updates a closed bucket chunk by chunk and sends its narrow weights. -/
  | updateBucket (e : Fin 4)
  /-- WEIGHT_RETURN_RECEIVE (R352). A WRET row lands by the landing table, or is held or dropped. -/
  | weightReturnReceive (src : Nat) (x : Txn)
  /-- WEIGHT_RETURN_RESEND (R354). A held bucket is converted again and resent after the retry interval. -/
  | weightReturnResend (e : Fin 4)
  /-- REGENERATE_BUCKET (R357). A host write to OD 0x2A1j.08 converts and returns one bucket without a push. -/
  | regenerateBucket (via : Path) (j : Fin 16) (bucket : W16)
  /-- MOVE_START (R402). Move command 0x01 starts the job's move list. -/
  | moveStart (via : Path) (j : Fin 16)
  /-- MOVE_ABORT (R402). Move command 0x02 aborts the move list. -/
  | moveAbort (via : Path) (j : Fin 16)
  /-- MOVE_LIST_DONE (R402). Every engine finishes its move records and the move state becomes done or failed. -/
  | moveListDone (j : Fin 16)
  /-- LINK_TRAIN (R381). Link command 0x01 moves a DISABLED link to TRAINING. -/
  | linkTrain (via : Path) (k : Fin 24)
  /-- LINK_DISABLE (R381). Link command 0x02 moves a link to DISABLED. -/
  | linkDisable (via : Path) (k : Fin 24)
  /-- LINK_RETRAIN (R381). Link command 0x03 moves an UP link to RETRAINING. -/
  | linkRetrain (via : Path) (k : Fin 24)
  /-- LANE_TEST (R383). Link command 0x04 starts a lane test. -/
  | laneTest (via : Path) (k : Fin 24)
  /-- CLEAR_RETIREMENTS (R385). A host write of 0xC3 to L+0.02 on a DISABLED link undoes its lane retirements. -/
  | clearRetirements (via : Path) (k : Fin 24)
  /-- TRAINING_COMPLETE (R382). Training checks finish and the link goes UP, or DOWN on a failure. -/
  | trainingComplete (k : Fin 24) (r : TrainResult)
  /-- TRAINING_TIMEOUT (R381). 20 ms elapse in TRAINING and the link goes DOWN. -/
  | trainingTimeout (k : Fin 24)
  /-- RETRAINING_TIMEOUT (R381). 1 ms elapses in RETRAINING and the link goes DOWN. -/
  | retrainingTimeout (k : Fin 24)
  /-- RETRAINING_COMPLETE (R381). Lock and deskew are regained and the link returns UP. -/
  | retrainingComplete (k : Fin 24)
  /-- AUTO_RETRAIN (R381). 100 ms after entering DOWN with auto-retrain set, the link starts TRAINING. -/
  | autoRetrain (k : Fin 24)
  /-- PEER_SILENT (R381). The peer is silent for 10 µs and the link goes DOWN. -/
  | peerSilent (k : Fin 24)
  /-- FLIT_RECEIVE (R369). A DATA flit is taken, discarded with NAK, or silently discarded as a duplicate. -/
  | flitReceive (k : Fin 24) (flit : List Byte)
  /-- SIDEBAND_RECEIVE (R368). A sideband's acknowledgement, NAK and credit totals are applied, starting a replay on NAK. -/
  | sidebandReceive (k : Fin 24) (w : W32)
  /-- REPLAY_TIMEOUT (R370). No acknowledgement progress for 512 link cycles starts a replay, and eight in a row cause a retrain. -/
  | replayTimeout (k : Fin 24)
  /-- BURST_THRESHOLD (R383). CRC failures or corrected symbols exceed their threshold in a window and a lane test starts. -/
  | burstThreshold (k : Fin 24) (codewords : Nat) (symbols : List Nat)
  /-- TEST_REQ (R383). A TEST_REQ control flit makes the link answer TEST_ACK and send PRBS31. -/
  | testReq (k : Fin 24)
  /-- TEST_ACK (R383). A TEST_ACK control flit starts the PRBS31 exchange. -/
  | testAck (k : Fin 24)
  /-- TEST_REQ_TIMEOUT (R383). The peer does not answer TEST_REQ within 100 µs and the link goes to RETRAINING. -/
  | testReqTimeout (k : Fin 24)
  /-- PRBS_TEST_COMPLETE (R383). The PRBS31 run ends and each receiver counts its errors and measures its eyes. -/
  | prbsTestComplete (k : Fin 24) (lanes : List LaneMeasure)
  /-- TEST_RESULT (R384). Exchanged test results keep or retire lanes at both ends. -/
  | testResult (k : Fin 24) (peer : List LaneMeasure)
  /-- RETRAIN (R381). A CONTROL RETRAIN flit from the peer moves the link to RETRAINING. -/
  | retrain (k : Fin 24)
  /-- CAPS (R382). A CAPS control flit's device number, lanes, reach class and version are checked at training. -/
  | caps (k : Fin 24) (c : CapsData)
  /-- CREDIT_INIT (R371). A CREDIT_INIT control flit grants full buffer credits. -/
  | creditInit (k : Fin 24)
  /-- RESUME (R385). A RESUME control flit carries ACK_SEQ, from which the transmitter replays. -/
  | resume (k : Fin 24) (ackSeq : BitVec 12)
  /-- WRITE (R378). A WRITE transaction is checked and served at the destination and acknowledged. -/
  | write (k : Fin 24) (x : Txn)
  /-- READ (R378). A READ transaction is checked and answered with RDATA. -/
  | read (k : Fin 24) (x : Txn)
  /-- RDATA (R374). A read response reaches its requester and frees its tag. -/
  | rdata (k : Fin 24) (x : Txn)
  /-- ACK (R375). An acknowledgement reaches its requester with its status and frees its tag. -/
  | ack (k : Fin 24) (x : Txn)
  /-- MSG (R374). A supervisor message of a service number reaches the supervisor. -/
  | msg (k : Fin 24) (x : Txn)
  /-- MREQ (R374). A management request from a peer supervisor is served on the dictionary and answered with MRESP. -/
  | mreq (k : Fin 24) (x : Txn)
  /-- MRESP (R374). A management response reaches the requesting supervisor. -/
  | mresp (k : Fin 24) (x : Txn)
  /-- RESERVED_KIND (R374). A transaction of a reserved kind is dropped and counted. -/
  | reservedKind (k : Fin 24) (x : Txn)
  /-- TRANSACTION_RELAY (R380). A transaction for another device is relayed through the apron switch or across the die, or refused. -/
  | transactionRelay (k : Fin 24) (x : Txn)
  /-- SNAPSHOT_TAKE (R421). Snapshot command 0x01 takes a snapshot at the next seal. -/
  | snapshotTake (via : Path) (j : Fin 16)
  /-- SNAPSHOT_ABORT (R434). Snapshot command 0x02 aborts the snapshot. -/
  | snapshotAbort (via : Path) (j : Fin 16)
  /-- CLEAR_PARTNER_LOST (R434). Snapshot command 0x03 clears the partner-lost flag. -/
  | clearPartnerLost (via : Path) (j : Fin 16)
  /-- SNAPSHOT_START (R423). After a qualifying seal, and once updates, closes and moves are done, the snapshot copy starts. -/
  | snapshotStart (j : Fin 16)
  /-- SNAPSHOT_STATE_PART_DONE (R423). Extent kinds 0–3 are copied, and tally segments and collector closes resume. -/
  | snapshotStatePartDone (j : Fin 16)
  /-- SNAPSHOT_END (R426). Every area commits or fails and the CLOSED hold is released. -/
  | snapshotEnd (j : Fin 16) (r : SnapshotResult)
  /-- HOSTING_LEASE_EXPIRY (R427). A hosted generation in state 1 goes unwritten past its lease and is marked abandoned. -/
  | hostingLeaseExpiry (slot : Fin 8) (gen : Fin 2)
  /-- RESTORE (R429). Restore command 0x01 starts the verify pass of a snapshot restore, or is refused. -/
  | restore (via : Path) (j : Fin 16)
  /-- RESTORE_ABORT (R436). Restore command 0x02 aborts the restore. -/
  | restoreAbort (via : Path) (j : Fin 16)
  /-- TALLY_RESET (R428). Restore command 0x03 discards every tally context of the job. -/
  | tallyReset (via : Path) (j : Fin 16)
  /-- WEIGHT_RESEND (R417). Restore command 0x04 sends a weight resend request to every device of the roll list. -/
  | weightResend (via : Path) (j : Fin 16)
  /-- WEIGHT_RESEND_REQUEST_RECEIVE (R417). An owner receives a resend request and returns its buckets to the requester. -/
  | weightResendRequestReceive (j : Fin 16) (dev : Nat)
  /-- RESTORE_VERIFY_DONE (R429). The verify pass ends, choosing a generation or falling back, and the write pass begins. -/
  | restoreVerifyDone (j : Fin 16)
  /-- RESTORE_DONE (R429). The write pass ends with the state record applied, or fails. -/
  | restoreDone (j : Fin 16)
  /-- DW_READ (R445). A DW_CTL write with read captures the window registers and queues a dictionary read. -/
  | dwRead (ctl : W32)
  /-- DW_WRITE (R445). A DW_CTL write with write captures the window registers and data and queues a dictionary write. -/
  | dwWrite (ctl : W32)
  /-- DW_COMPLETE (R445). The window access completes, writing DW_DATA or the buffer and then DW_STAT. -/
  | dwComplete
  /-- ACK_RESULT (R451). A write to ACK frees the result slot holding that sequence, or is ignored. -/
  | ackResult (seq : W32)
  /-- RING_ENABLE (R454). A RING_CTL write with enable set starts the ring fetching descriptors. -/
  | ringEnable (r : Fin 16) (ctl : W32)
  /-- RING_DISABLE (R454). A RING_CTL write with enable cleared stops the ring after the descriptors in progress. -/
  | ringDisable (r : Fin 16) (ctl : W32)
  /-- RING_RESUME (R454). A RING_CTL write with resume retries the failing descriptor of a halted ring. -/
  | ringResume (r : Fin 16) (ctl : W32)
  /-- PROD (R454). A host write of the producer index makes new descriptors available. -/
  | prod (r : Fin 16) (v : W32)
  /-- RING_DESCRIPTOR_PROCESS (R454). A fetched descriptor is checked and its transfer carried out, halting the ring on failure. -/
  | ringDescriptorProcess (r : Fin 16) (desc : List Byte) (data : List Byte) (failed : Option HostFailure)
  /-- RING_DESCRIPTOR_COMPLETE (R454). A descriptor's data is visible, its DONE word is written and CONS advances. -/
  | ringDescriptorComplete (r : Fin 16)
  /-- HOST_REGISTER_WRITE (R440). A BAR0 write to a register with no row of its own, including W1C status registers, or a dropped access.
  Without a value it is a read, which R440 may drop as well (log entry 92). -/
  | hostRegisterWrite (off : Nat) (size : Nat) (v : Option W64)
  /-- STAGING_WRITE (R441). A BAR2 write of any size reaches staging memory, or is dropped in the result area. -/
  | stagingWrite (off : Nat) (data : List Byte)
  /-- FUNCTION_LEVEL_RESET (R456). A function-level reset disables the rings, empties the mailboxes and resets the configuration space. -/
  | functionLevelReset
  /-- HOT_RESET (R456). A hot reset or link down resets the host interface as a function-level reset does. -/
  | hotReset
  /-- PERST_N (R502). PERST_N asserted holds the endpoint in reset, and its release lets the link train. -/
  | perstN (high : Bool)
  /-- FIRMWARE_PROGRAM (R493). Update command 0x01 verifies a staged image and programs it into the unused slot. -/
  | firmwareProgram (via : Path)
  /-- FIRMWARE_PROGRAM_COMPLETE (R493). Programming and read-back end, the slot is made preferred, and the state becomes done or failed. -/
  | firmwareProgramComplete (flash : FlashOutcome)
  /-- FIRMWARE_RESTART (R494). Update command 0x03 halts core 0 and runs the preferred image within 3 s. -/
  | firmwareRestart (via : Path)
  /-- RAISE_SECURITY_VERSION (R494). Update command 0x04 writes the running image's security version into the boot directory. -/
  | raiseSecurityVersion (via : Path)
  /-- BYPASS (R485). The JTAG BYPASS instruction is selected. -/
  | bypass (tdi : Bool)
  /-- IDCODE (R485). The JTAG IDCODE instruction returns the device identification code. -/
  | idcode
  /-- SAMPLE_PRELOAD (R485). The JTAG SAMPLE/PRELOAD instruction samples or preloads the boundary register. -/
  | samplePreload (preload : Option W64)
  /-- EXTEST (R485). The JTAG EXTEST instruction drives the sideband contacts from the boundary register. -/
  | extest
  /-- CAN_BUS_ERROR (R500). An error detected on the CAN bus changes the controller's error counters, moving it between error active, error passive and bus-off, and raising or clearing EMCY 0x8120. -/
  | canBusError (tec : Nat) (recv : Nat)
  /-- CAN_RECEIVE_OVERRUN (R77). The CAN controller loses a received frame to overrun and raises EMCY 0x8110. -/
  | canReceiveOverrun
  /-- PCIE_REFCLK_CHANGE (R461). The PCIe reference clock is lost or returns, moving the CAN clock source and taking the CAN controller off or back onto the bus. -/
  | pcieRefclkChange (good : Bool)
  /-- CODEWORD_LOCK_LOST (R381). A link receiver loses codeword lock and the link goes from UP to RETRAINING. -/
  | codewordLockLost (k : Fin 24) (codewords : Nat)
  /-- CONTROL_FLIT_RESEND (R367). A CONTROL flit not yet answered is sent again after 1 µs. -/
  | controlFlitResend (k : Fin 24)
  /-- FLIT_TRANSMIT (R372). At each flit time the link transmitter fills the slots by the egress arbiter from VCs that hold credit, or sends a NULL flit, keeping DATA flits for replay. -/
  | flitTransmit (k : Fin 24)
  /-- OUTBOUND_QUEUE_DRAIN (R129). The stack controller takes a word from a stack edge outbound queue and writes its block for the open staged write. -/
  | outboundQueueDrain (t : Nat)
  /-- STANDBY_LEASE_EXPIRY (R333). The keeper's lease on the standby expires, so it broadcasts later decisions without waiting for the standby's acknowledgement. -/
  | standbyLeaseExpiry (j : Fin 16)
  /-- PCIE_POWER_STATE_CHANGE (R456). The host moves the function between D0 and D3hot, or the link between L0 and L2, which holds ring fetches and interrupts and marks the host asleep for the mailboxes. -/
  | pciePowerStateChange (d3hot : Bool) (l2 : Bool)
  /-- PCIE_LINK_UP (R502). The PCIe link trains up again after a link down or hot reset, and the host's mailbox state returns to ready. -/
  | pcieLinkUp (speed : Fin 6) (width : Nat) (maxPayload : Nat) (corrected : Nat)
  /-- MSI_X_TABLE_WRITE (R455). A host write to the MSI-X table in BAR4 masks or unmasks a vector or the function, and an unmask sends any pending message. -/
  | msixTableWrite (off : Nat) (v : W32)
  /-- SUPERVISOR_RESTART_COMPLETE (R494). Supervisor core 0 runs the preferred image after a restart command, logs event 0x0A01 with bit [8] and leaves the asleep state. -/
  | supervisorRestartComplete
  /-- ILLEGAL_INSTRUCTION (R243). The tile core meets a word whose major opcode, FUNC, SUB or cond is unlisted or reserved and takes trap cause 0x01. -/
  | illegalInstruction (t : Nat) (word : W32)
  deriving DecidableEq, Repr

end Sys2Proof
end

