-- ==== Sys2Proof/Decode.lean ====
section
/-! DEFINITION. Decode: the L48 is a block that takes commands; the table gives its commands no bits, so no
word spells one. -/

namespace Sys2Proof

/-- The command a table word spells: none, since no row of the table gives bits. -/
def decodeTableWord (_nbits _w : Nat) : Option Instr := none

end Sys2Proof
end

