-- ==== Sys2Proof/Config.lean ====
section
/-! DEFINITION. Config: what an implementation fixes and the spec does not state. Every constant here
is a free value: it has no body, so no proof can see what it is and a claim holds whatever it is. -/

namespace Sys2Proof.Config

/-- The value of a function of R180 (1 for its derivative) that is evaluated from its constants of OD 0x2502, by a
sequence that the spec does not print (log entry 10). -/
opaque tableFunction : (constants : List W32) → (fn : Nat) → (derivative : Bool) → W32 → W32

/-- How many constants of a class a function has, and each constant: the spec prints none (R193; log entry 10). -/
opaque constantCount : (fn : Nat) → (derivative : Bool) → (cls : Nat) → Nat
opaque functionConstant : (fn : Nat) → (derivative : Bool) → (cls index : Nat) → W32

/-- A byte whose contents the spec calls undefined, by draw and address (R283, R429, R456; log entry 2). -/
opaque undefinedByte : (draw : Nat) → (address : Nat) → Byte

/-- The instruction word recorded by a trap that no fetched instruction raised: a failed fetch, or an engine
bus error (R264, R265; log entry 2). -/
opaque trapWord : (draw : Nat) → W32

/-- What a read finds of a unit that holds more bit errors than its code detects (R288, R293; log entry
8): 0 detected as uncorrectable, 1 miscorrected and counted as corrected, any other value missed. -/
opaque beyondCode : (draw : Nat) → Nat
/-- A data byte of a unit that was miscorrected or whose errors were missed. -/
opaque miscorrected : (draw : Nat) → (address : Nat) → Byte

/-- The requester code TSW25 shows for a read that no requester of R92 made (a scrub or a test; log entry 8). -/
opaque openRequester : (draw : Nat) → Nat

/-- The mask of a check bit of the SEC-DED codes in OD 0x2807, which R288 does not print (log entry 8). -/
opaque codeMask : (code bit : Nat) → Nat

/-- Bytes 0–1 and 24–27 of a watch line as an image set places them (R197, R201): the layout of R269 and R270 has
no place for them (log entry 22). By image set, tile of the band, slot and byte. -/
opaque imageWatchByte : (image : List Byte) → (tile slot byte : Nat) → Byte

/-- The ECDSA P-384 signature r, s over the SHA-384 of bytes 0 to 63 of a firmware image verifies under the public key
of the die, which the spec does not print (R490; log entry 18). -/
opaque signatureVerifies : (digest r s : List Byte) → Bool

/-- The cause OD 0x3100.02 shows after the device reset that ends recovery (R492, R498; log entry 33). -/
opaque recoveryResetCause : Byte

/-- The text of OD 0x100A for a firmware version (R82; log entry 34). -/
opaque softwareVersion : (version : Nat) → List Byte
/-- The reading in mV of a supply sensor that shows a sag, in 0.01 % (R477; log entry 35). -/
opaque supplyMillivolts : (sensor sag : Nat) → Nat

/-- The narrow format of the bucket with a tag, as a device that receives its weight returns knows it: R352 states rules
that depend on it, and a return carries none (log entry 109). -/
opaque returnFormat : (tag : Nat) → Nat

end Sys2Proof.Config
end

