-- ==== Sys2Proof/Machine/Bits.lean ====
section
/-! DEFINITION. Bits: bit fields of a natural number, byte order (R10: little-endian), saturating
counters and checksums. -/

namespace Sys2Proof.Machine

/-- Bits `[lo + w - 1 : lo]` of `x`. -/
def bits (x lo w : Nat) : Nat := (x >>> lo) % 2 ^ w

/-- Bit `[i]` of `x` (R9: a field of one bit is written `[n]`). -/
def bit (x i : Nat) : Bool := x.testBit i

/-- `x` with the bits `[lo + w - 1 : lo]` replaced by the low `w` bits of `v`. -/
def putBits (x lo w v : Nat) : Nat :=
  x - (bits x lo w) * 2 ^ lo + (v % 2 ^ w) * 2 ^ lo

/-- `x` with bit `[i]` set to `b`. -/
def putBit (x i : Nat) (b : Bool) : Nat := putBits x i 1 (if b then 1 else 0)

/-- The value of a Boolean as a bit. -/
def b2n (b : Bool) : Nat := if b then 1 else 0

/-- The two's complement reading of the low `w` bits of `x`. -/
def signed (w x : Nat) : Int :=
  let y := x % 2 ^ w
  if y < 2 ^ (w - 1) then (y : Int) else (y : Int) - (2 ^ w : Nat)

/-- The low `w` bits of an integer, as two's complement. -/
def unsigned (w : Nat) (x : Int) : Nat := (x % ((2 ^ w : Nat) : Int)).toNat

/-- A counter of `w` bits that saturates at all ones. -/
def satAdd (w x y : Nat) : Nat := min (x + y) (2 ^ w - 1)

/-- `⌈a ÷ b⌉`. -/
def ceilDiv (a b : Nat) : Nat := (a + b - 1) / b

/-- The value of a little-endian byte string (R10). -/
def leNat : List Byte → Nat
  | [] => 0
  | b :: bs => b.toNat + 256 * leNat bs

/-- The `n` bytes of `x`, little-endian (R10). -/
def leBytes : (n : Nat) → (x : Nat) → List Byte
  | 0, _ => []
  | n + 1, x => BitVec.ofNat 8 x :: leBytes n (x / 256)

/-- `n` zero bytes. -/
def zeroBytes (n : Nat) : List Byte := List.replicate n 0

/-- The bytes `[off, off + len)` of a byte string. -/
def slice (bs : List Byte) (off len : Nat) : List Byte := (bs.drop off).take len

/-- The little-endian value of `len` bytes at `off`. -/
def sliceNat (bs : List Byte) (off len : Nat) : Nat := leNat (slice bs off len)

/-- `bs` with the bytes from `off` replaced by `new`. -/
def splice (bs : List Byte) (off : Nat) (new : List Byte) : List Byte :=
  bs.take off ++ new ++ bs.drop (off + new.length)

/-- `xs` cut into pieces of `k` elements; `fuel` bounds their number. -/
def chunks {α : Type} (k : Nat) : (fuel : Nat) → List α → List (List α)
  | 0, _ => []
  | _ + 1, [] => []
  | fuel + 1, x :: xs => (x :: xs).take k :: chunks k fuel ((x :: xs).drop k)

/-- One bit of a reflected cyclic redundancy check with polynomial `poly`. -/
def crcShift (poly c : Nat) : Nat := if c % 2 = 1 then (c / 2) ^^^ poly else c / 2

/-- One byte into a reflected cyclic redundancy check. -/
def crcByte (poly c : Nat) (b : Byte) : Nat :=
  Nat.repeat (crcShift poly) 8 (c ^^^ b.toNat)

/-- The CRC-32C (Castagnoli) of a byte string: reflected, initial and final value all ones. -/
def crc32c (bs : List Byte) : Nat :=
  (bs.foldl (crcByte 0x82F63B78) 0xFFFFFFFF) ^^^ 0xFFFFFFFF

end Sys2Proof.Machine
end

