-- ==== Sys2Proof/Machine/Numerics.lean ====
section
/-! DEFINITION. Numerics: the number formats and the Reckoning Order (R139–R162). Values are computed
exactly (as integers times powers of two, or as fractions) and rounded once where the spec rounds. -/

namespace Sys2Proof.Machine

/-! ### Exact values -/

/-- A value an operand can take: NaN, an infinity, or the exact number `±m · 2^e` (R141). A zero keeps
its sign. -/
inductive Num where
  | nan
  | inf (neg : Bool)
  | fin (neg : Bool) (m : Nat) (e : Int)
  deriving DecidableEq, Repr

/-- An exact dyadic number `m · 2^e`. -/
structure Dyad where
  m : Int
  e : Int
  deriving DecidableEq, Repr

/-- `x · 2^k` for a natural `k` given as an integer that is at least zero. -/
def shiftUp (x : Int) (k : Int) : Int := x * ((2 ^ k.toNat : Nat) : Int)

/-- The exact sum of two dyadic numbers. -/
def Dyad.add (a b : Dyad) : Dyad :=
  if a.m = 0 then b else if b.m = 0 then a else
  let e := min a.e b.e
  { m := shiftUp a.m (a.e - e) + shiftUp b.m (b.e - e), e := e }

/-- The dyadic number of a finite value. -/
def dyadOf (neg : Bool) (m : Nat) (e : Int) : Dyad := { m := if neg then -(m : Int) else m, e := e }

/-! ### Rounding -/

/-- How a conversion rounds: to nearest with ties to even, or stochastically with the element's random
word (R154, R158). -/
inductive Rounding where
  | nearestEven
  | stochastic (r : Nat)
  deriving DecidableEq, Repr

/-- `⌊log2 (num ÷ den)⌋` for a positive fraction. -/
def floorLog2 (num den : Nat) : Int :=
  let d : Int := (num.log2 : Int) - (den.log2 : Int)
  let ge := if 0 ≤ d then decide (den * 2 ^ d.toNat ≤ num) else decide (den ≤ num * 2 ^ (-d).toNat)
  if ge then d else d - 1

/-- `num ÷ den · 2^e` in units of `2^q`, rounded to an integer. For stochastic rounding the magnitude is
the upper neighbour when `r < ⌊frac · 2³²⌋` (R158). -/
def roundUnits (mode : Rounding) (num den : Nat) (e q : Int) : Nat :=
  let n := if 0 ≤ e - q then num * 2 ^ (e - q).toNat else num
  let d := if 0 ≤ e - q then den else den * 2 ^ (q - e).toNat
  let a := n / d
  let rem := n % d
  match mode with
  | .nearestEven =>
    if 2 * rem < d then a else if d < 2 * rem then a + 1 else if a % 2 = 0 then a else a + 1
  | .stochastic r => if r < rem * 2 ^ 32 / d then a + 1 else a

/-- A binary floating-point format (R141): mantissa bits, bias, the magnitude bits of the largest finite
value, of infinity and of the canonical NaN, and whether an all-ones exponent is special as in IEEE 754. -/
structure FloatFormat where
  width : Nat
  man : Nat
  bias : Nat
  maxBits : Nat
  infBits : Option Nat
  nanBits : Option Nat
  deriving DecidableEq, Repr

def fmtFP32 : FloatFormat := ⟨32, 23, 127, 0x7F7FFFFF, some 0x7F800000, some 0x7FC00000⟩
def fmtBF16 : FloatFormat := ⟨16, 7, 127, 0x7F7F, some 0x7F80, some 0x7FC0⟩
def fmtFP16 : FloatFormat := ⟨16, 10, 15, 0x7BFF, some 0x7C00, some 0x7E00⟩
def fmtE4M3 : FloatFormat := ⟨8, 3, 7, 0x7E, none, some 0x7F⟩
def fmtE5M2 : FloatFormat := ⟨8, 2, 15, 0x7B, some 0x7C, some 0x7E⟩
def fmtE2M3 : FloatFormat := ⟨6, 3, 1, 0x1F, none, none⟩
def fmtE3M2 : FloatFormat := ⟨6, 2, 3, 0x1F, none, none⟩
def fmtE2M1 : FloatFormat := ⟨4, 1, 1, 0x7, none, none⟩

/-- The exponent of the smallest subnormal step. -/
def FloatFormat.quantum (f : FloatFormat) : Int := 1 - (f.bias : Int) - (f.man : Int)

/-- The magnitude (sign clear) of an encoded value as `m · 2^e`. -/
def FloatFormat.magnitude (f : FloatFormat) (mag : Nat) : Nat × Int :=
  let ex := mag >>> f.man
  let ma := mag % 2 ^ f.man
  if ex = 0 then (ma, f.quantum) else (2 ^ f.man + ma, f.quantum + (ex : Int) - 1)

/-- The value an encoding stands for (R141). -/
def FloatFormat.decode (f : FloatFormat) (x : Nat) : Num :=
  let neg := bit x (f.width - 1)
  let mag := x % 2 ^ (f.width - 1)
  if mag ≤ f.maxBits then
    let v := f.magnitude mag
    .fin neg v.1 v.2
  else if f.infBits = some mag then .inf neg
  else .nan

/-- The exponent of the step that the positive fraction `num ÷ den · 2^e` is rounded to. Stochastic
rounding keeps the top step above the largest finite value (R158). -/
def FloatFormat.stepExp (f : FloatFormat) (mode : Rounding) (num den : Nat) (e : Int) : Int :=
  let q := max (floorLog2 num den + e - (f.man : Int)) f.quantum
  match mode with
  | .nearestEven => q
  | .stochastic _ => min q (f.magnitude f.maxBits).2

/-- The magnitude bits of `n` steps of `2^q`; beyond the largest finite value the answer is only known to
exceed `maxBits`. -/
def FloatFormat.encodeMag (f : FloatFormat) (n : Nat) (q : Int) : Nat :=
  (q - f.quantum).toNat * 2 ^ f.man + n

/-- The magnitude bits of a positive fraction rounded once into the format, before the overflow table of
R154: an answer above `maxBits` is a finite overflow. -/
def FloatFormat.roundMag (f : FloatFormat) (mode : Rounding) (num den : Nat) (e : Int) : Nat :=
  let q := f.stepExp mode num den e
  f.encodeMag (roundUnits mode num den e q) q

/-- The sign bit of the format, where `neg`. -/
def FloatFormat.signBits (f : FloatFormat) (neg : Bool) : Nat := if neg then 2 ^ (f.width - 1) else 0

/-! ### FP32 arithmetic, each operation rounded once to nearest even (R151) -/

def f32NaN : W32 := 0x7FC00000
def f32Inf (neg : Bool) : W32 := if neg then 0xFF800000 else 0x7F800000
def f32Zero (neg : Bool) : W32 := if neg then 0x80000000 else 0
def f32One : W32 := 0x3F800000

/-- The value of an FP32 word. -/
def f32Num (x : W32) : Num := fmtFP32.decode x.toNat

/-- The positive or negative fraction `num ÷ den · 2^e`, rounded to FP32 with ties to even; too large a
magnitude becomes an infinity, too small a one keeps its sign as a zero or a subnormal (R147, R151). -/
def f32Round (neg : Bool) (num den : Nat) (e : Int) : W32 :=
  if num = 0 then f32Zero neg else
  let mag := fmtFP32.roundMag .nearestEven num den e
  if fmtFP32.maxBits < mag then f32Inf neg else BitVec.ofNat 32 (fmtFP32.signBits neg + mag)

/-- An exact dyadic number rounded to FP32; `zeroNeg` is the sign an exact zero takes. -/
def f32OfDyad (zeroNeg : Bool) (d : Dyad) : W32 :=
  if d.m = 0 then f32Zero zeroNeg else f32Round (decide (d.m < 0)) d.m.natAbs 1 d.e

/-- A value rounded to FP32 (widening, R151). -/
def f32OfNum : Num → W32
  | .nan => f32NaN
  | .inf s => f32Inf s
  | .fin s m e => f32Round s m 1 e

/-- The IEEE 754 sum of two exact values, rounded once: the `rne32` of R147. An exact zero sum of unlike
signs is +0. -/
def rneSum (a b : Num) : W32 :=
  match a, b with
  | .nan, _ => f32NaN
  | _, .nan => f32NaN
  | .inf s, .inf t => if s = t then f32Inf s else f32NaN
  | .inf s, _ => f32Inf s
  | _, .inf t => f32Inf t
  | .fin s m e, .fin t n g => f32OfDyad (s && t) ((dyadOf s m e).add (dyadOf t n g))

/-- The exact product of two values. -/
def mulNum (a b : Num) : Num :=
  match a, b with
  | .nan, _ => .nan
  | _, .nan => .nan
  | .inf s, .inf t => .inf (s != t)
  | .inf s, .fin t n _ => if n = 0 then .nan else .inf (s != t)
  | .fin s m _, .inf t => if m = 0 then .nan else .inf (s != t)
  | .fin s m e, .fin t n g => .fin (s != t) (m * n) (e + g)

def f32Add (a b : W32) : W32 := rneSum (f32Num a) (f32Num b)
def f32Neg (a : W32) : W32 := a ^^^ 0x80000000
def f32Abs (a : W32) : W32 := a &&& 0x7FFFFFFF
def f32Sub (a b : W32) : W32 := f32Add a (f32Neg b)
def f32Mul (a b : W32) : W32 := f32OfNum (mulNum (f32Num a) (f32Num b))
/-- `a · b + c`, rounded once. -/
def f32Fma (a b c : W32) : W32 := rneSum (mulNum (f32Num a) (f32Num b)) (f32Num c)

/-- The correctly rounded quotient. -/
def f32Div (a b : W32) : W32 :=
  match f32Num a, f32Num b with
  | .nan, _ => f32NaN
  | _, .nan => f32NaN
  | .inf _, .inf _ => f32NaN
  | .inf s, .fin t _ _ => f32Inf (s != t)
  | .fin s _ _, .inf t => f32Zero (s != t)
  | .fin s m e, .fin t n g =>
    if n = 0 then (if m = 0 then f32NaN else f32Inf (s != t)) else f32Round (s != t) m n (e - g)

/-- The integer square root, by bits from `k` downward. -/
def isqrtBits (x : Nat) : (k : Nat) → (r : Nat) → Nat
  | 0, r => r
  | k + 1, r => isqrtBits x k (if (r + 2 ^ k) * (r + 2 ^ k) ≤ x then r + 2 ^ k else r)

/-- `⌊√x⌋`. -/
def isqrt (x : Nat) : Nat := isqrtBits x (x.log2 / 2 + 1) 0

/-- The correctly rounded square root (R180): √−0 is −0, NaN below −0. -/
def f32Sqrt (a : W32) : W32 :=
  match f32Num a with
  | .nan => f32NaN
  | .inf s => if s then f32NaN else f32Inf false
  | .fin s m e =>
    if m = 0 then a else if s then f32NaN else
    let odd := e % 2 = 1
    let m' := (if odd then 2 * m else m) * 2 ^ 64
    let e' := (if odd then e - 1 else e) / 2 - 32
    let r := isqrt m'
    f32Round false (2 * r + (if r * r = m' then 0 else 1)) 1 (e' - 1)

/-- `1 ÷ x`, correctly rounded (R180). -/
def f32Recip (a : W32) : W32 := f32Div f32One a

/-- A key that orders the non-NaN FP32 values, −0 below +0 (R152). -/
def f32Key (a : W32) : Int :=
  if a.toNat < 2 ^ 31 then (a.toNat : Int) else -((a.toNat - 2 ^ 31 : Nat) : Int) - 1

def f32IsNaN (a : W32) : Bool := decide (0x7F800000 < (f32Abs a).toNat)
def f32IsFinite (a : W32) : Bool := decide ((f32Abs a).toNat < 0x7F800000)

/-- The larger of two values: NaN when either is NaN, −0 below +0 (R152). -/
def f32Max (a b : W32) : W32 :=
  if f32IsNaN a || f32IsNaN b then f32NaN else if f32Key a ≤ f32Key b then b else a
/-- The smaller of two values: NaN when either is NaN, −0 below +0 (R152). -/
def f32Min (a b : W32) : W32 :=
  if f32IsNaN a || f32IsNaN b then f32NaN else if f32Key a ≤ f32Key b then a else b

/-- `a < b` of two FP32 values; false when either is NaN. -/
def f32Lt (a b : W32) : Bool :=
  !(f32IsNaN a) && !(f32IsNaN b) && decide (f32Key a < f32Key b) &&
    !((f32Abs a).toNat = 0 && (f32Abs b).toNat = 0)

/-- FP32 of a natural number. -/
def f32OfNat (n : Nat) : W32 := f32Round false n 1 0

/-! ### The format codes (R139–R145) -/

/-- Bits of one element of a format code. -/
def fmtBits : Nat → Nat
  | 0 => 32
  | 1 => 16
  | 2 => 16
  | 3 => 8
  | 4 => 8
  | 5 => 8
  | 6 => 6
  | 7 => 6
  | 8 => 4
  | 9 => 8
  | 0xA => 2
  | _ => 8

/-- Codes 0x5–0xA have one block scale per 32 elements. -/
def fmtIsBlock (c : Nat) : Bool := decide (5 ≤ c) && decide (c ≤ 0xA)

/-- Codes 0x3 and 0x4 carry a tensor scale. -/
def fmtHasTensorScale (c : Nat) : Bool := c == 3 || c == 4

/-- The float layout of a code that has one. -/
def fmtFloat : Nat → Option FloatFormat
  | 0 => some fmtFP32
  | 1 => some fmtBF16
  | 2 => some fmtFP16
  | 3 => some fmtE4M3
  | 4 => some fmtE5M2
  | 5 => some fmtE4M3
  | 6 => some fmtE2M3
  | 7 => some fmtE3M2
  | 8 => some fmtE2M1
  | _ => none

/-- The element value without its scale (R141, R144). -/
def elemNum (c x : Nat) : Num :=
  match fmtFloat c with
  | some f => f.decode x
  | none =>
    if c = 9 then
      let v := signed 8 x
      .fin (decide (v < 0)) v.natAbs (-6)
    else if c = 0xA then
      (if x % 4 = 1 then .fin false 1 0 else if x % 4 = 3 then .fin true 1 0 else .fin false 0 0)
    else
      let v := signed 8 x
      .fin (decide (v < 0)) v.natAbs 0

/-- A value times the power of two of an E8M0 scale; NaN under scale 0xFF (R142, R143). -/
def scaleNum (sc : Nat) (v : Num) : Num :=
  if sc = 0xFF then .nan else
  match v with
  | .nan => .nan
  | .inf s => .inf s
  | .fin s m e => .fin s m (e + (sc : Int) - 127)

/-- Element `i` of the bit string that starts at byte `off` of `data`, elements `w` bits wide (R140). -/
def elemBits (data : List Byte) (off w i : Nat) : Nat :=
  bits (sliceNat data (off + w * i / 8) (ceilDiv (w * i % 8 + w) 8)) (w * i % 8) w

/-! ### Conversion out of FP32 (R154, R155) -/

/-- One converted element with its events: saturation and flush (R155), and non-finite output (R159). -/
structure Conv where
  bits : Nat
  sat : Bool
  flush : Bool
  nonfinite : Bool
  deriving DecidableEq, Repr

/-- The element written for a NaN input, or for an output scale of 0xFF. -/
def convNaN (c : Nat) : Conv :=
  match fmtFloat c with
  | some f => ⟨f.nanBits.getD 0, false, false, true⟩
  | none => ⟨0, false, false, true⟩

/-- The element written for an infinite input (R154). -/
def convInf (c : Nat) (neg : Bool) : Conv :=
  match fmtFloat c with
  | some f =>
    match f.infBits with
    | some i => ⟨f.signBits neg + i, false, false, true⟩
    | none => ⟨f.nanBits.getD 0, false, false, true⟩
  | none => if c = 0xB then ⟨if neg then 0x80 else 0x7F, false, false, true⟩ else ⟨0, false, false, true⟩

/-- A finite overflow into a float format: the largest finite value with SAT = 1 and always in the MX
codes, else infinity or NaN, which counts as a non-finite output (R154, R155). -/
def convOverflow (c : Nat) (f : FloatFormat) (sat neg : Bool) : Conv :=
  if sat || fmtIsBlock c then ⟨f.signBits neg + f.maxBits, true, false, false⟩
  else match f.infBits with
    | some i => ⟨f.signBits neg + i, false, false, true⟩
    | none => ⟨f.nanBits.getD 0, false, false, true⟩

/-- The finite nonzero value `±m · 2^e` (already divided by the output scale) into format `c`. -/
def convFinite (c : Nat) (mode : Rounding) (sat neg : Bool) (m : Nat) (e : Int) : Conv :=
  match fmtFloat c with
  | some f =>
    let mag := f.roundMag mode m 1 e
    if f.maxBits < mag then convOverflow c f sat neg
    else ⟨f.signBits neg + mag, false, decide (mag = 0), false⟩
  | none =>
    if c = 0xA then
      let n := min (roundUnits mode m 1 e 0) 1
      ⟨if n = 0 then 0 else if neg then 3 else 1, false, decide (n = 0), false⟩
    else
      let n := roundUnits mode m 1 e (if c = 9 then -6 else 0)
      let top := if c = 9 then 127 else if neg then 128 else 127
      let n' := min n top
      ⟨unsigned 8 (if neg then -(n' : Int) else n'), decide (top < n), decide (n = 0), false⟩

/-- A FP32 value converted into format `c` under the E8M0 output scale `sc` (R154). -/
def convert (c : Nat) (mode : Rounding) (sat : Bool) (sc : Nat) (x : W32) : Conv :=
  if sc = 0xFF then convNaN c else
  match f32Num x with
  | .nan => convNaN c
  | .inf s => convInf c s
  | .fin s m e =>
    if m = 0 then
      ⟨match fmtFloat c with | some f => f.signBits s | none => 0, false, false, false⟩
    else convFinite c mode sat s m (e - ((sc : Int) - 127))

/-- The `emax` of R156. -/
def blockEmax (c : Nat) : Int := if c = 5 then 8 else if c = 7 then 4 else if c = 6 ∨ c = 8 then 2 else 0

def clampInt (lo hi x : Int) : Int := max lo (min hi x)

/-- `⌊log2 |x|⌋` of a finite nonzero FP32 value, its significand normalised (R157). -/
def f32Exponent (x : W32) : Int :=
  match f32Num x with
  | .fin _ m e => if m = 0 then 0 else (m.log2 : Int) + e
  | _ => 0

/-! ### The Reckoning Order (R147, R152) -/

/-- The sum of one block: exact sum of products, and which non-finite cases it met. -/
structure BlockSum where
  sum : Dyad := ⟨0, 0⟩
  nan : Bool := false
  pinf : Bool := false
  ninf : Bool := false
  deriving DecidableEq, Repr

/-- One product into a block sum (R147). -/
def BlockSum.step (b : BlockSum) (x y : Num) : BlockSum :=
  match mulNum x y with
  | .nan => { b with nan := true }
  | .inf s => if s then { b with ninf := true } else { b with pinf := true }
  | .fin s m e => { b with sum := b.sum.add (dyadOf s m e) }

/-- The value a block adds, with the exponent of its scales; `none` leaves the accumulator unchanged. -/
def BlockSum.value (b : BlockSum) (scaleExp : Int) : Option Num :=
  if b.nan || (b.pinf && b.ninf) then some .nan
  else if b.pinf then some (.inf false)
  else if b.ninf then some (.inf true)
  else if b.sum.m = 0 then none
  else some (.fin (decide (b.sum.m < 0)) b.sum.m.natAbs (b.sum.e + scaleExp))

/-- One block of at most 32 element pairs into the FP32 accumulator: the one rounding of R147. A scale of
0xFF makes every element it scales NaN. -/
def reckonBlock (acc : W32) (xs ys : List Num) (sx sy : Nat) : W32 :=
  let xs := if sx = 0xFF then xs.map fun _ => Num.nan else xs
  let ys := if sy = 0xFF then ys.map fun _ => Num.nan else ys
  let b := (xs.zip ys).foldl (fun b p => b.step p.1 p.2) ({} : BlockSum)
  match b.value ((sx : Int) - 127 + ((sy : Int) - 127)) with
  | none => acc
  | some t => rneSum (f32Num acc) t

/-- A vector of an operand along the reduction index: its elements (without scale) and the scale of each
block of 32 (127 for an unscaled code, the tensor scale for codes 0x3 and 0x4). -/
structure OpVec where
  elems : List Num
  scales : List Nat
  deriving DecidableEq, Repr

/-- `reckon_dot` of R147, over blocks of 32 in ascending order. -/
def reckonDot (a b : OpVec) (acc : W32) : W32 :=
  let xs := chunks 32 a.elems.length a.elems
  let ys := chunks 32 b.elems.length b.elems
  (((xs.zip ys).zip (a.scales.zip b.scales)).foldl
    (fun acc p => reckonBlock acc p.1.1 p.1.2 p.2.1 p.2.2) acc)

/-- The reductions of R152. -/
inductive RedOp where
  | add
  | sumsq
  | max
  | min
  deriving DecidableEq, Repr

/-- The identity of a reduction: −0 for the sums, −Inf for MAX, +Inf for MIN (R152). -/
def RedOp.ident : RedOp → W32
  | .add => f32Zero true
  | .sumsq => f32Zero true
  | .max => f32Inf true
  | .min => f32Inf false

/-- One element into a lane (R152). -/
def RedOp.lane : RedOp → W32 → W32 → W32
  | .add, p, x => f32Add p x
  | .sumsq, p, x => f32Fma x x p
  | .max, p, x => f32Max p x
  | .min, p, x => f32Min p x

/-- Two lanes into one (R152). -/
def RedOp.combine : RedOp → W32 → W32 → W32
  | .add, p, q => f32Add p q
  | .sumsq, p, q => f32Add p q
  | .max, p, q => f32Max p q
  | .min, p, q => f32Min p q

/-- One level of the pairwise tree: lane `l` with lane `l + w`. -/
def redLevel (op : RedOp) (w : Nat) (p : List W32) : List W32 :=
  (p.take w).zipWith op.combine (p.drop w)

/-- `reckon_reduce` of R152: 64 lanes in ascending order, then the fixed tree. A MAPSUM is the ADD of the
mapped values. -/
def reckonReduce (op : RedOp) (xs : List W32) : W32 :=
  let lanes := (List.range 64).map fun l =>
    ((chunks 64 xs.length xs).filterMap fun ch => ch[l]?).foldl op.lane op.ident
  (((([32, 16, 8, 4, 2, 1] : List Nat).foldl (fun p w => redLevel op w p) lanes).head?).getD op.ident)

/-! ### Block scales on conversion (R156, R157) -/

/-- γ of R157: the mean magnitude of a block, values beyond the tensor's end counted as 0. -/
def beadMean (vals : List W32) : W32 :=
  f32Mul (reckonReduce .add ((vals.map f32Abs) ++ List.replicate (32 - vals.length) 0)) (f32Round false 1 1 (-5))

/-- A block of finite values whose amax, or whose γ for bead, is 0 (R156, R157). -/
def blockZero (c : Nat) (vals : List W32) : Bool :=
  if c = 0xA then decide ((f32Abs (beadMean vals)).toNat = 0) else vals.all fun v => decide ((f32Abs v).toNat = 0)

/-- The E8M0 scale of the block a converting engine derives: 0xFF where a NaN or an infinity is in it, and 0 where
amax or γ is 0 (R156, R157). `vals` are the block's values within the tensor (values beyond its end count as 0). -/
def deriveScale (c : Nat) (vals : List W32) : Nat :=
  if vals.any fun v => !(f32IsFinite v) then 0xFF else
  if blockZero c vals then 0
  else if c = 0xA then
    let g := beadMean vals
    if !(f32IsFinite g) then 254
    else
      let k := f32Exponent g
      let up := match f32Num g with
        | .fin _ m _ => decide (3 * 2 ^ m.log2 ≤ 2 * m)
        | _ => false
      ((clampInt (-127) 127 (if up then k + 1 else k)) + 127).toNat
  else
    let amax := vals.foldl (fun a v => f32Max a (f32Abs v)) 0
    ((clampInt (-127) 127 (f32Exponent amax - blockEmax c)) + 127).toNat

/-- A block of at most 32 FP32 values in block code `c`: its scale and its elements with their events. Every element is
0 under scale 0xFF, where each counts as non-finite, and where amax or γ is 0, where a nonzero value is a flush
(R154–R157, R159; log entry 93); `modes` gives each element its rounding. -/
def convertBlock (c : Nat) (sat : Bool) (sc : Nat) (vals : List W32) (modes : List Rounding) : List Conv :=
  if sc = 0xFF then vals.map fun _ => ⟨0, false, false, true⟩
  else if blockZero c vals then vals.map fun v => ⟨0, false, decide ((f32Abs v).toNat ≠ 0), false⟩
  else (vals.zip modes).map fun p => convert c p.2 sat sc p.1

/-! ### Random bits (R160, R161) -/

/-- The high 32 bits of a 32 × 32 product. -/
def mulHi32 (a b : W32) : W32 := BitVec.ofNat 32 (a.toNat * b.toNat / 2 ^ 32)

/-- Four counter words of Philox. -/
structure Philox where
  c0 : W32
  c1 : W32
  c2 : W32
  c3 : W32
  deriving DecidableEq, Repr

/-- One round of Philox-4×32 (R160). -/
def philoxRound (c : Philox) (k0 k1 : W32) : Philox :=
  { c0 := mulHi32 0xCD9E8D57 c.c2 ^^^ c.c1 ^^^ k0
    c1 := 0xCD9E8D57 * c.c2
    c2 := mulHi32 0xD2511F53 c.c0 ^^^ c.c3 ^^^ k1
    c3 := 0xD2511F53 * c.c0 }

/-- The rounds that remain, the key raised before each but the first (R160). -/
def philoxRounds : (n : Nat) → Philox → W32 → W32 → Philox
  | 0, c, _, _ => c
  | n + 1, c, k0, k1 => philoxRounds n (philoxRound c k0 k1) (k0 + 0x9E3779B9) (k1 + 0xBB67AE85)

/-- Philox-4×32-10 of R160. -/
def philox (c : Philox) (seed : Nat) : Philox :=
  philoxRounds 10 c (BitVec.ofNat 32 seed) (BitVec.ofNat 32 (seed / 2 ^ 32))

/-- Word `i` of a counter. -/
def Philox.word (c : Philox) : Nat → W32
  | 0 => c.c0
  | 1 => c.c1
  | 2 => c.c2
  | _ => c.c3

/-- The random word of element index `idx` in stream `s` at step `step` (R161). -/
def randomWord (seed stream step idx : Nat) : Nat :=
  let p := (step % 2 ^ 24) * 2 ^ 40 + idx % 2 ^ 40
  ((philox ⟨BitVec.ofNat 32 (p / 4), BitVec.ofNat 32 (p / 4 / 2 ^ 32), BitVec.ofNat 32 stream, 0⟩ seed).word
    (p % 4)).toNat

/-- The known-answer check of R160, which fills OD 0x2400.05. -/
def philoxSelfTest : Bool :=
  decide (philox ⟨0, 0, 0, 0⟩ 0 = ⟨0x6627E8D5, 0xE169C58D, 0xBC57AC4C, 0x9B00DBD8⟩)

/-! ### CRC-64 and CRC-8 -/

/-- One bit of a CRC with the polynomial `poly` of width `w`, most significant bit first. -/
def crcMsbShift (w poly c : Nat) : Nat := if c.testBit (w - 1) then (2 * c) % 2 ^ w ^^^ poly else (2 * c) % 2 ^ w

/-- One byte into a CRC of width `w`, most significant bit first. -/
def crcMsbByte (w poly c : Nat) (b : Byte) : Nat :=
  Nat.repeat (crcMsbShift w poly) 8 (c ^^^ b.toNat * 2 ^ (w - 8))

end Sys2Proof.Machine
end

