-- ==== Sys2Proof/Machine/Descriptor.lean ====
section
/-! DEFINITION. Descriptor: the 64-byte descriptors of the forward, backward and row engines, their fields and
the checks made at issue (R172–R176). -/

namespace Sys2Proof.Machine

/-- Slot `i` of a descriptor (R172). -/
def slot (d : List Byte) (i : Nat) : Nat := sliceNat d (8 * i) 8

/-- The header, slot 0 (R172). -/
structure Header where
  eng : Nat
  fn : Nat
  op : Nat
  kc : Nat
  grad : Bool
  tid : Nat
  acc : Bool
  sat : Bool
  sr : Bool
  drop : Bool
  amax : Bool
  rest : Nat
  deriving DecidableEq, Repr

def header (d : List Byte) : Header :=
  let h := slot d 0
  { eng := bits h 0 4, fn := bits h 4 4, op := bits h 8 8, kc := bits h 16 3, grad := bit h 19
    tid := bits h 20 16, acc := bit h 36, sat := bit h 37, sr := bit h 38, drop := bit h 39, amax := bit h 40
    rest := bits h 41 23 }

/-- An operand reference (R173). -/
structure OperandRef where
  row : Nat
  srow : Nat
  pitch : Nat
  spitch : Nat
  tscale : Nat
  fmt : Nat
  rest : Nat
  deriving DecidableEq, Repr

/-- The fields of an operand reference. A PITCH that is no multiple of 8 has no check code and is used as it is (R173;
log entry 122). -/
def operandRef (x : Nat) : OperandRef :=
  { row := bits x 0 10, srow := bits x 10 10, pitch := bits x 20 16, spitch := bits x 36 12
    tscale := bits x 48 8, fmt := bits x 56 4, rest := bits x 60 4 }

/-- An operand as an operation uses it: `vectors` vectors of `elems` elements (R173). -/
structure Operand where
  ref : OperandRef
  vectors : Nat
  elems : Nat
  deriving DecidableEq, Repr

/-- Bytes of one vector's elements (R140). -/
def Operand.vecBytes (o : Operand) : Nat := ceilDiv (o.elems * fmtBits o.ref.fmt) 8
/-- Blocks of 32 of one vector. -/
def Operand.blocks (o : Operand) : Nat := ceilDiv o.elems 32
/-- The first byte of main memory and the length of the element range. -/
def Operand.base (o : Operand) : Nat := o.ref.row * 512
def Operand.len (o : Operand) : Nat := (o.vectors - 1) * o.ref.pitch + o.vecBytes
/-- The first byte and the length of the scale range of a block code. -/
def Operand.sbase (o : Operand) : Nat := o.ref.srow * 512
def Operand.slen (o : Operand) : Nat :=
  if fmtIsBlock o.ref.fmt then (o.vectors - 1) * o.ref.spitch + o.blocks else 0

/-- The local rows a byte range touches, ascending. -/
def rowsTouched (base len : Nat) : List Nat :=
  if len = 0 then [] else
  (List.range ((base + len - 1) / 512 + 1 - base / 512)).map fun i => base / 512 + i

/-- The rows that vector `v` touches: its elements, then its scales. -/
def Operand.vecRows (o : Operand) (v : Nat) : List Nat :=
  rowsTouched (o.base + v * o.ref.pitch) o.vecBytes ++
    (if fmtIsBlock o.ref.fmt then rowsTouched (o.sbase + v * o.ref.spitch) o.blocks else [])

/-- The rows an operand touches (R175). -/
def Operand.rows (o : Operand) : List Nat := ((List.range o.vectors).flatMap o.vecRows).eraseDups

/-- The operand stays within local row 895 (R176, code 0x7); SROW is ignored without block scales. -/
def Operand.inside (o : Operand) : Bool :=
  decide (o.base + o.len ≤ 896 * 512) && (!(fmtIsBlock o.ref.fmt) || decide (o.sbase + o.slen ≤ 896 * 512))

/-! ### Shapes (R174) -/

/-- The shape of a FWD or of one array of a BWD: vectors of the streamed and of the stationary operand and
the reduction length. -/
structure MatShape where
  m : Nat
  n : Nat
  k : Nat
  deriving DecidableEq, Repr

def fwdShape (d : List Byte) : MatShape :=
  { m := bits (slot d 1) 0 8 + 1, n := bits (slot d 1) 8 6 + 1, k := bits (slot d 1) 16 16 }
/-- dX: M tokens, K outputs, reduction over N. -/
def dxShape (d : List Byte) : MatShape :=
  { m := bits (slot d 1) 0 8 + 1, n := bits (slot d 1) 8 6 + 1, k := bits (slot d 1) 16 16 }
/-- dW: K input features, N outputs, reduction over M. -/
def dwShape (d : List Byte) : MatShape :=
  { m := bits (slot d 1) 32 5 + 1, n := bits (slot d 1) 37 6 + 1, k := bits (slot d 1) 48 16 }
def dxEnabled (d : List Byte) : Bool := bit (slot d 1) 14
def dwEnabled (d : List Byte) : Bool := bit (slot d 1) 15

/-- The three operands of a matrix operation whose references stand in slots `i`, `i + 1` and `i + 2`: the
streamed, the stationary and the output operand. -/
def matOperands (d : List Byte) (i : Nat) (sh : MatShape) : Operand × Operand × Operand :=
  (⟨operandRef (slot d i), sh.m, sh.k⟩, ⟨operandRef (slot d (i + 1)), sh.n, sh.k⟩,
    ⟨operandRef (slot d (i + 2)), sh.m, sh.n⟩)

/-- The shape of a ROW operation. -/
structure RowShape where
  m : Nat
  n : Nat
  stat : Nat
  prow : Nat
  deriving DecidableEq, Repr

def rowShape (d : List Byte) : RowShape :=
  { m := bits (slot d 1) 0 12 + 1, n := bits (slot d 1) 12 16, stat := bits (slot d 1) 28 10
    prow := bits (slot d 1) 38 10 }

/-! ### Row operations (R179) -/

/-- The FN values an OP accepts (R179, R180); none for a reserved OP. -/
def rowFnLimit (op : Nat) : Option Nat :=
  match op with
  | 0x01 => some 0xD
  | 0x02 => some 5
  | 0x03 => some 2
  | 0x04 => some 5
  | 0x05 => some 4
  | 0x06 => some 2
  | 0x07 => some 2
  | 0x08 => some 1
  | 0x09 => some 1
  | 0x0A => some 1
  | 0x0B => some 0xD
  | 0x0C => some 1
  | _ => none

/-- The operation reads in1 (R179). -/
def rowUsesIn1 (op fn : Nat) : Bool :=
  match op with
  | 0x02 => true
  | 0x04 => fn == 4
  | 0x06 => true
  | 0x07 => fn == 1
  | 0x08 => true
  | 0x0A => true
  | 0x0B => true
  | _ => false

/-- The operation uses slot 7, the constants. -/
def rowUsesConsts (op : Nat) : Bool := [0x01, 0x05, 0x07, 0x09, 0x0A, 0x0C].contains op
/-- The operation reads or writes stat records (R181). -/
def rowUsesStat (op : Nat) : Bool := [0x05, 0x06, 0x07, 0x09, 0x0A].contains op
/-- The operation takes DROP, or ignores it (R172). -/
def rowMayDrop (op : Nat) : Bool := [0x07, 0x09, 0x0A, 0x0C].contains op
/-- The operation draws random bits (R186). -/
def rowDraws (h : Header) : Bool := h.sr || h.drop || h.op == 0x0C

/-- The bytes of the parameter row an operation reads at PROW (R182, R183, R185); a NORM_FWD that writes h
uses none. -/
def rowParamBytes (op fn : Nat) (sh : RowShape) : Nat :=
  match op with
  | 0x05 => if bit fn 1 then 0 else 8 * sh.n
  | 0x06 => 4 * sh.n
  | 0x0A => 4 * sh.m
  | _ => 0

/-- The output of a ROW operation: CONVERT with TBLK has one vector per element index, REDUCE one value per
row (R179). -/
def rowOut (d : List Byte) : Operand :=
  let h := header d
  let sh := rowShape d
  let r := operandRef (slot d 4)
  if h.op = 0x03 ∧ h.fn % 2 = 1 then ⟨r, sh.n, sh.m⟩
  else if h.op = 0x04 then (if r.pitch = 0 then ⟨r, 1, sh.m⟩ else ⟨r, sh.m, 1⟩)
  else ⟨r, sh.m, sh.n⟩
def rowIn0 (d : List Byte) : Operand := ⟨operandRef (slot d 2), (rowShape d).m, (rowShape d).n⟩
def rowIn1 (d : List Byte) : Operand := ⟨operandRef (slot d 3), (rowShape d).m, (rowShape d).n⟩

/-! ### The checks at issue (R176) -/

/-- The pairs the forward engine accepts: activations, weights (R145). -/
def fwdPair (x w : Nat) : Bool :=
  (decide (3 ≤ x) && decide (x ≤ 7) && decide (3 ≤ w) && decide (w ≤ 7)) ||
    (x == 9 && w == 9) || (x == 8 && w == 8) || (x == 8 && w == 0xA) || (x == 1 && w == 1) || (x == 2 && w == 2)

/-- The pairs the backward engine accepts (R145). -/
def bwdPair (x w : Nat) : Bool :=
  (decide (3 ≤ x) && decide (x ≤ 7) && decide (3 ≤ w) && decide (w ≤ 7)) || (x == 1 && w == 1)

/-- The lowest code whose check failed. -/
def lowestCode : List (Bool × Nat) → Nat
  | [] => 0
  | (failed, c) :: rest => if failed then c else lowestCode rest

/-- The bits of the header that FWD and BWD leave zero (R172, R176). -/
def matHeaderBad (h : Header) : Bool := h.rest != 0 || h.sr || h.drop || h.amax

/-- The checks of a FWD descriptor: 0, or the lowest failing code. -/
def checkFwd (d : List Byte) : Nat :=
  let h := header d
  let sh := fwdShape d
  let o := matOperands d 2 sh
  lowestCode [
    (h.eng != 1, 1),
    (h.op != 0 || h.fn != 0, 2),
    (decide (0xC ≤ o.1.ref.fmt) || decide (0xC ≤ o.2.1.ref.fmt) || decide (0xC ≤ o.2.2.ref.fmt), 3),
    (!(fwdPair o.1.ref.fmt o.2.1.ref.fmt), 4),
    (decide (2 < o.2.2.ref.fmt) || (h.acc && o.2.2.ref.fmt != 0), 5),
    (decide (40 < sh.n) || sh.k == 0, 6),
    (!(o.1.inside && o.2.1.inside && o.2.2.inside), 7),
    (matHeaderBad h || bits (slot d 1) 14 2 != 0 || bits (slot d 1) 32 32 != 0 || o.1.ref.rest != 0 ||
      o.2.1.ref.rest != 0 || o.2.2.ref.rest != 0 || slot d 5 != 0 || slot d 6 != 0 || slot d 7 != 0, 9)]

/-- The checks of a BWD descriptor. -/
def checkBwd (d : List Byte) : Nat :=
  let h := header d
  let dx := dxEnabled d
  let dw := dwEnabled d
  let a := matOperands d 2 (dxShape d)
  let b := matOperands d 5 (dwShape d)
  let fmtHigh (o : Operand × Operand × Operand) :=
    decide (0xC ≤ o.1.ref.fmt) || decide (0xC ≤ o.2.1.ref.fmt) || decide (0xC ≤ o.2.2.ref.fmt)
  let outBad (o : Operand) := decide (2 < o.ref.fmt) || (h.acc && o.ref.fmt != 0)
  let outside (o : Operand × Operand × Operand) := !(o.1.inside && o.2.1.inside && o.2.2.inside)
  let restBad (o : Operand × Operand × Operand) := o.1.ref.rest != 0 || o.2.1.ref.rest != 0 || o.2.2.ref.rest != 0
  lowestCode [
    (h.eng != 2, 1),
    (h.op != 0 || h.fn != 0, 2),
    ((dx && fmtHigh a) || (dw && fmtHigh b), 3),
    ((dx && !(bwdPair a.1.ref.fmt a.2.1.ref.fmt)) || (dw && !(bwdPair b.1.ref.fmt b.2.1.ref.fmt)), 4),
    ((dx && outBad a.2.2) || (dw && outBad b.2.2), 5),
    ((!dx && !dw) || (dx && (decide (40 < (dxShape d).n) || (dxShape d).k == 0)) ||
      (dw && (decide (40 < (dwShape d).n) || (dwShape d).k == 0)), 6),
    ((dx && outside a) || (dw && outside b), 7),
    (matHeaderBad h || bits (slot d 1) 43 5 != 0 ||
      (if dx then restBad a else slot d 2 != 0 || slot d 3 != 0 || slot d 4 != 0) ||
      (if dw then restBad b else slot d 5 != 0 || slot d 6 != 0 || slot d 7 != 0), 9)]

/-- The checks of a ROW descriptor. -/
def checkRow (d : List Byte) : Nat :=
  let h := header d
  let sh := rowShape d
  let i0 := rowIn0 d
  let i1 := rowIn1 d
  let o := rowOut d
  let use1 := rowUsesIn1 h.op h.fn
  lowestCode [
    (h.eng != 3, 1),
    (match rowFnLimit h.op with | none => true | some l => decide (l ≤ h.fn), 2),
    (decide (0xC ≤ i0.ref.fmt) || (use1 && decide (0xC ≤ i1.ref.fmt)) || decide (0xC ≤ o.ref.fmt), 3),
    (h.acc && o.ref.fmt != 0, 5),
    (sh.n == 0, 6),
    (!(i0.inside && o.inside) || (use1 && !i1.inside) ||
      (rowParamBytes h.op h.fn sh != 0 && decide (896 * 512 < sh.prow * 512 + rowParamBytes h.op h.fn sh)), 7),
    (rowUsesStat h.op && decide (1024 < sh.stat + sh.m), 8),
    (h.rest != 0 || (h.drop && !(rowMayDrop h.op)) || bits (slot d 1) 48 16 != 0 || i0.ref.rest != 0 ||
      o.ref.rest != 0 || (if use1 then i1.ref.rest != 0 else slot d 3 != 0) ||
      (!(rowDraws h) && (slot d 5 != 0 || slot d 6 != 0)) || (!(rowUsesConsts h.op) && slot d 7 != 0), 9)]

end Sys2Proof.Machine
end

