-- ==== Sys2Proof/Machine/Functions.lean ====
section
/-! DEFINITION. Functions: the functions of the row engine (R180). What the spec gives of them is here: the special
values, the exact and the correctly rounded functions, and for the others the exact result, from which their value lies
within the error bound of R180. The constants of OD 0x2502 and of the reference of R164 are free values (log entry
10). -/

namespace Sys2Proof.Machine

/-! ### Exact results in a fixed point of 400 bits -/

/-- 1, ln 2 and 1 ÷ √(2π). -/
def fixOne : Nat := 2 ^ 400
def fixLn2 : Nat := 0xb17217f7d1cf79abc9e3b39803f2f6af40f343267298b62d8a0d175b8baafa2be7b876206debac98559552fb4afa1b10ed2e
def fixPhi : Nat := 0x662114cf50d942343f2cf1402eae38bfd3829f30512706d8c0471b4802639d2e9df8ac55447d3db723f5d3abb374e88deb14

/-- A product of two fixed-point values. -/
def fixMul (a b : Int) : Int := a * b / (fixOne : Int)

/-- A finite FP32 value; an infinity as 2^128. -/
def fixOf (x : W32) : Option Int :=
  match f32Num x with
  | .nan => none
  | .inf s => some (if s then -(2 ^ 528 : Int) else 2 ^ 528)
  | .fin s m e =>
    let v : Int := m * ((2 ^ (e + 400).toNat : Nat) : Int)
    some (if s then -v else v)

/-- The terms of e^r from the `i`th on, each the one before times r ÷ i. -/
def expTerms (r : Nat) : (fuel i term : Nat) → Nat
  | 0, _, _ => 0
  | n + 1, i, term => term + expTerms r n (i + 1) (term * r / fixOne / (i + 1))

/-- e^x. -/
def fixExp (x : Int) : Nat :=
  if (129 * fixOne : Int) < x then 2 ^ 600
  else if x < -(400 * fixOne : Int) then 0
  else
    let n := x / (fixLn2 : Int)
    let s := expTerms (x - n * fixLn2).toNat 100 0 fixOne
    if 0 ≤ n then s * 2 ^ n.toNat else s / 2 ^ (-n).toNat

/-- The terms of artanh z from the `i`th on, `p` the power of z. -/
def artanhTerms (z2 : Nat) : (fuel i p : Nat) → Nat
  | 0, _, _ => 0
  | n + 1, i, p => p / (2 * i + 1) + artanhTerms z2 n (i + 1) (p * z2 / fixOne)

/-- ln x of a positive value: k · ln 2 + 2 · artanh ((t − 1) ÷ (t + 1)), with x = t · 2^k. -/
def fixLn (x : Nat) : Int :=
  let k : Int := (x.log2 : Int) - 400
  let t := if 0 ≤ k then x / 2 ^ k.toNat else x * 2 ^ (-k).toNat
  let z := (t - fixOne) * fixOne / (t + fixOne)
  k * fixLn2 + 2 * artanhTerms (z * z / fixOne) 140 0 z

/-- 1 ÷ √x of a positive value. -/
def fixRsqrt (x : Nat) : Nat := isqrt (2 ^ 1200 / x)

/-- The terms of Φ from the `i`th on, each term t of the power series with its sign, and h = x² ÷ 2. -/
def phiTerms (h : Int) : (fuel i : Nat) → (term : Int) → Int
  | 0, _, _ => 0
  | n + 1, i, term => term / (2 * i + 1 : Int) + phiTerms h n (i + 1) (-(fixMul term h) / (i + 1 : Int))

/-- Φ(x), and the density of x, for |x| ≤ 4. -/
def fixCdf (x : Int) : Int := fixOne / 2 + fixMul fixPhi (phiTerms (fixMul x x / 2) 160 0 x)
def fixDensity (x : Int) : Int := fixMul fixPhi (fixExp (-(fixMul x x / 2)))

/-- The quotient of two fixed-point values. -/
def fixDiv (a b : Int) : Int := a * (fixOne : Int) / b

/-- 1 ÷ (1 + e⁻ˣ) and its derivative, tanh x and its derivative, through e^−|x|. -/
def fixSigmoid (x : Int) : Int :=
  let q : Int := fixExp (-(x.natAbs : Int))
  fixDiv (if x < 0 then q else fixOne) (fixOne + q)
def fixSigmoidSlope (x : Int) : Int :=
  let q : Int := fixExp (-(x.natAbs : Int))
  fixDiv (fixDiv q (fixOne + q)) (fixOne + q)
def fixTanh (x : Int) : Int :=
  let q : Int := fixExp (-(2 * x.natAbs : Int))
  let y := fixDiv (fixOne - q) (fixOne + q)
  if x < 0 then -y else y
def fixTanhSlope (x : Int) : Int := 4 * fixSigmoidSlope (2 * x)

/-- The exact result of a function of R180, or of its derivative `d`, where the operand is finite and has one. -/
def exactResult (fn : Nat) (d : Bool) (x : Int) : Option Int :=
  match fn, d with
  | 0x1, _ => some (fixExp x)
  | 0x2, false => if 0 < x then some (fixLn x.toNat) else none
  | 0x3, true => if x = 0 then none else some (-(2 ^ 1200 / (x * x)))
  | 0x4, false => if 0 < x then some (fixRsqrt x.toNat) else none
  | 0x4, true => if 0 < x then (let r : Int := fixRsqrt x.toNat; some (-(fixMul (fixMul r r) r / 2))) else none
  | 0x5, true => if 0 < x then some (fixRsqrt x.toNat / 2) else none
  | 0x6, false => some (fixTanh x)
  | 0x6, true => some (fixTanhSlope x)
  | 0x7, false => some (fixSigmoid x)
  | 0x7, true => some (fixSigmoidSlope x)
  | 0x8, false => some (fixMul x (fixCdf x))
  | 0x8, true => some (fixCdf x + fixMul x (fixDensity x))
  | 0x9, false => some (fixMul x (fixSigmoid x))
  | 0x9, true => some (fixSigmoid x + fixMul x (fixSigmoidSlope x))
  | _, _ => none

/-- The error bound of a function and of its derivative in ULP (R180). -/
def errorBound (fn : Nat) (d : Bool) : Nat :=
  match fn, d with
  | 0x4, true => 2
  | 0x6, false => 2
  | 0x6, true => 3
  | 0x7, false => 2
  | 0x7, true => 3
  | 0x8, false => 3
  | 0x8, true => 4
  | 0x9, false => 3
  | 0x9, true => 4
  | _, _ => 1

/-- One ULP of FP32 at an exact value, the step of a subnormal value at least. -/
def fixUlp (v : Int) : Nat := 2 ^ max (v.natAbs.log2 - 23) 251

/-- A value lies within `n` ULP of the exact result. -/
def withinUlp (n : Nat) (v : Int) (c : W32) : Bool :=
  match fixOf c with
  | none => false
  | some w => decide ((w - v).natAbs ≤ n * fixUlp v)

/-! ### The constants (R180, R193) -/

/-- The functions that are evaluated from tables. -/
def tableFunctions : List Nat := [0x1, 0x2, 0x4, 0x6, 0x7, 0x8, 0x9]

/-- How many constants of a class a function has: 0 reduction, 1 table, 2 coefficient. R180 gives the entries of four
tables. -/
def constantCount (fn : Nat) (d : Bool) (cls : Nat) : Nat :=
  match fn, d, cls with
  | 0x1, false, 1 => 64
  | 0x2, false, 1 => 64
  | 0x4, false, 1 => 32
  | 0x8, false, 1 => 128
  | _, _, _ => Config.constantCount fn d cls % 257

/-- The constants of a function or of its derivative, in the order of OD 0x2502. -/
def constantsOf (fn : Nat) (d : Bool) : List W32 :=
  (List.range 3).flatMap fun cls =>
    (List.range (constantCount fn d cls)).map fun i => Config.functionConstant fn d cls i

/-- The 8-byte records of OD 0x2502: in ascending function, class and index, that of a function before that of its
derivative (R193). -/
def constantRecords : List Nat :=
  tableFunctions.flatMap fun fn => (List.range 3).flatMap fun cls => (List.range 256).flatMap fun i =>
    ([false, true].filter fun d => decide (i < constantCount fn d cls)).map fun d =>
      fn + (if d then 2 ^ 8 else 0) + i * 2 ^ 16 + cls * 2 ^ 24 + (Config.functionConstant fn d cls i).toNat * 2 ^ 32

/-! ### Functions of the row engine (R180) -/

/-- A function evaluated from its constants, where no special value applies: a value within its error bound of the exact
result. -/
def tableAt (fn : Nat) (d : Bool) (x : W32) : W32 :=
  let c := Config.tableFunction (constantsOf fn d) fn d x
  match (fixOf x).bind (exactResult fn d) with
  | none => c
  | some v =>
    if withinUlp (errorBound fn d) v c then c
    else f32Round (if v = 0 then bit x.toNat 31 else decide (v < 0)) v.natAbs 1 (-400)

/-- `x < c` and `c < x` for the limits ±4 of GELU. -/
def f32Four : W32 := 0x40800000

/-- `f(x)` of R180: special values and exact functions as the spec gives them, correctly rounded
functions rounded, table functions a free value (log entry 10). -/
def rowFn (fn : Nat) (x : W32) : W32 :=
  if f32IsNaN x then f32NaN else
  let posInf := x == f32Inf false
  let negInf := x == f32Inf true
  let isZero := decide ((f32Abs x).toNat = 0)
  let neg := bit x.toNat 31
  match fn with
  | 0x0 => x
  | 0x1 => if posInf then x else if negInf then 0 else tableAt 1 false x
  | 0x2 => if isZero then f32Inf true else if neg then f32NaN else if posInf then x else tableAt 2 false x
  | 0x3 => f32Recip x
  | 0x4 =>
    if isZero then f32Inf neg else if neg then f32NaN else if posInf then 0 else tableAt 4 false x
  | 0x5 => f32Sqrt x
  | 0x6 => if posInf then f32One else if negInf then f32Neg f32One else tableAt 6 false x
  | 0x7 => if posInf then f32One else if negInf then 0 else tableAt 7 false x
  | 0x8 =>
    if f32Lt f32Four x then x
    else if f32Lt x (f32Neg f32Four) then f32Zero true else tableAt 8 false x
  | 0x9 => if posInf then x else if negInf then f32Zero true else tableAt 9 false x
  | 0xA => f32Max x 0
  | 0xB => f32Abs x
  | 0xC => f32Mul x x
  | _ => f32NaN

/-- `f′(x)` of R180. The derivative of ln is the correctly rounded reciprocal (0.5 ULP, DEDUCED, log
entry 10). -/
def rowFnDeriv (fn : Nat) (x : W32) : W32 :=
  if f32IsNaN x then f32NaN else
  let isZero := decide ((f32Abs x).toNat = 0)
  let neg := bit x.toNat 31
  match fn with
  | 0x0 => f32One
  | 0x2 => f32Recip x
  | 0x8 =>
    if f32Lt f32Four x then f32One
    else if f32Lt x (f32Neg f32Four) then f32Zero true else tableAt 8 true x
  | 0xA => if !isZero && !neg then f32One else 0
  | 0xB => if isZero then 0 else if neg then f32Neg f32One else f32One
  | 0xC => f32Add x x
  | _ => tableAt fn true x

end Sys2Proof.Machine
end

