-- ==== Sys2Proof/Machine/Sparse.lean ====
section
/-! DEFINITION. Sparse: the one canonical form of sparse data, a list of key and value pairs with strictly
rising keys and no entry equal to what an unlisted key reads as. -/

namespace Sys2Proof.Machine

/-- Sparse data by a natural key. -/
abbrev SMap (α : Type) := List (Nat × α)

/-- The value at key `k`; `d` where none is listed. -/
def sget {α : Type} (d : α) : SMap α → Nat → α
  | [], _ => d
  | (j, v) :: m, k => if j = k then v else if k < j then d else sget d m k

/-- `m` with `v` at key `k` in canonical form: writing the default removes the entry. -/
def sput {α : Type} [DecidableEq α] (d : α) : SMap α → Nat → α → SMap α
  | [], k, v => if v = d then [] else [(k, v)]
  | (j, w) :: m, k, v =>
    if k < j then (if v = d then (j, w) :: m else (k, v) :: (j, w) :: m)
    else if j = k then (if v = d then m else (k, v) :: m)
    else (j, w) :: sput d m k v

/-- `m` with the value at `k` changed by `f`. -/
def smod {α : Type} [DecidableEq α] (d : α) (m : SMap α) (k : Nat) (f : α → α) : SMap α :=
  sput d m k (f (sget d m k))

/-- `m` without the keys of `[lo, hi)`: they read as the default. -/
def sclear {α : Type} (m : SMap α) (lo hi : Nat) : SMap α :=
  m.filter fun p => decide (p.1 < lo) || decide (hi ≤ p.1)

/-- The canonical form: strictly rising keys, no entry equal to the default. -/
def swf {α : Type} [DecidableEq α] (d : α) : SMap α → Bool
  | [] => true
  | [(_, v)] => decide (v ≠ d)
  | (j, v) :: (k, w) :: m => decide (v ≠ d) && decide (j < k) && swf d ((k, w) :: m)

/-- Strictly rising keys: what a read after a write rests on. -/
def srising {α : Type} : SMap α → Bool
  | [] => true
  | [_] => true
  | (j, _) :: (k, w) :: m => decide (j < k) && srising ((k, w) :: m)

/-- A byte memory: byte cells by address; an unlisted address reads as zero (log entry 3). -/
abbrev Mem := SMap Byte

/-- The byte at an address. -/
def Mem.byte (m : Mem) (a : Nat) : Byte := sget 0 m a

/-- `m` with one byte written. -/
def Mem.setByte (m : Mem) (a : Nat) (b : Byte) : Mem := sput 0 m a b

/-- The `n` bytes from address `a`. -/
def Mem.read (m : Mem) (a : Nat) : (n : Nat) → List Byte
  | 0 => []
  | n + 1 => m.byte a :: Mem.read m (a + 1) n

/-- `m` with the bytes `bs` written from address `a`. -/
def Mem.write (m : Mem) (a : Nat) : List Byte → Mem
  | [] => m
  | b :: bs => Mem.write (m.setByte a b) (a + 1) bs

/-- `m` with the `n` bytes from `a` reading as zero. -/
def Mem.zero (m : Mem) (a n : Nat) : Mem := sclear m a (a + n)

/-- The canonical form of a byte memory. -/
def Mem.wf (m : Mem) : Bool := swf 0 m

end Sys2Proof.Machine
end

