-- ==== Sys2Proof/Machine/EngineCompute.lean ====
section
/-! DEFINITION. EngineCompute: what the forward, backward and row engines compute from the bytes of their
operands (R166–R187), before any access to memory. -/

namespace Sys2Proof.Machine

/-! ### Operands as values -/

/-- The rows an operation has read, by local row: data, and whether the read was bad. -/
abbrev RowCache := SMap (List Byte × Bool)

def cacheRow (c : RowCache) (r : Nat) : List Byte × Bool := sget (zeroBytes 512, false) c r

/-- The bytes `[base, base + len)` of main memory out of the rows read. -/
def cacheBytes (c : RowCache) (base len : Nat) : List Byte :=
  slice ((rowsTouched base len).flatMap fun r => (cacheRow c r).1) (base % 512) len

/-- An operand with its bytes. -/
structure Loaded where
  o : Operand
  elems : List Byte
  scales : List Byte
  deriving DecidableEq, Repr

def loadOperand (c : RowCache) (o : Operand) : Loaded :=
  { o := o, elems := cacheBytes c o.base o.len, scales := cacheBytes c o.sbase o.slen }

/-- The scale of block `j` of vector `v` (R142, R143): 127 stands for 2⁰. -/
def Loaded.scale (l : Loaded) (v j : Nat) : Nat :=
  if fmtIsBlock l.o.ref.fmt then sliceNat l.scales (v * l.o.ref.spitch + j) 1
  else if fmtHasTensorScale l.o.ref.fmt then l.o.ref.tscale else 127

/-- Vector `v` as the Reckoning Order takes it. -/
def Loaded.vec (l : Loaded) (v : Nat) : OpVec where
  elems := (List.range l.o.elems).map fun i =>
    elemNum l.o.ref.fmt (elemBits l.elems (v * l.o.ref.pitch) (fmtBits l.o.ref.fmt) i)
  scales := (List.range l.o.blocks).map (l.scale v)

/-- Vector `v` widened to FP32 (R151). -/
def Loaded.wide (l : Loaded) (v : Nat) : List W32 :=
  (List.range l.o.elems).map fun i =>
    f32OfNum (scaleNum (l.scale v (i / 32))
      (elemNum l.o.ref.fmt (elemBits l.elems (v * l.o.ref.pitch) (fmtBits l.o.ref.fmt) i)))

/-- FP32 values packed from byte `off` of a byte string. -/
def fp32At (bs : List Byte) (off n : Nat) : List W32 :=
  (List.range n).map fun i => BitVec.ofNat 32 (sliceNat bs (off + 4 * i) 4)

/-! ### Matrix operations (R147, R167, R169) -/

/-- The FP32 accumulators of a matrix operation, one list per streamed vector. `old` holds the starting
accumulators of ACC, +0 otherwise (R175). -/
def matResult (x w : Loaded) (old : List (List W32)) : List (List W32) :=
  let ws := (List.range w.o.vectors).map w.vec
  (List.range x.o.vectors).map fun m =>
    let xv := x.vec m
    (ws.zipIdx).map fun p => reckonDot xv p.1 ((old.getD m []).getD p.2 0)

/-! ### Outputs (R154–R159, R175) -/

/-- One output element: its FP32 value, its rounding, and the input row it comes from. -/
structure OutElem where
  value : W32
  mode : Rounding := .nearestEven
  m : Nat := 0
  deriving DecidableEq, Repr

/-- The packed little-endian bytes of `w`-bit elements (R140). -/
def packBits (w : Nat) (xs : List Nat) : List Byte :=
  leBytes (ceilDiv (w * xs.length) 8) (xs.foldr (fun x acc => x % 2 ^ w + 2 ^ w * acc) 0)

/-- What an output vector becomes: its element bytes, its scale bytes and its counts. -/
structure OutVec where
  bytes : List Byte
  scales : List Byte
  sat : Nat
  flush : Nat
  nonfinite : Nat
  deriving DecidableEq, Repr

/-- One output vector converted into the operand's format (R154, R156, R157). -/
def convertVec (r : OperandRef) (sat : Bool) (es : List OutElem) : OutVec :=
  let blocks := chunks 32 es.length es
  let parts : List (Nat × List Conv) := blocks.map fun b =>
    let vals := b.map (·.value)
    let modes := b.map (·.mode)
    if fmtIsBlock r.fmt then
      let sc := deriveScale r.fmt vals
      (sc, convertBlock r.fmt sat sc vals modes)
    else
      let sc := if fmtHasTensorScale r.fmt then r.tscale else 127
      (sc, (vals.zip modes).map fun p => convert r.fmt p.2 sat sc p.1)
  let cs := parts.flatMap (·.2)
  { bytes := packBits (fmtBits r.fmt) (cs.map (·.bits))
    scales := if fmtIsBlock r.fmt then parts.map fun p => BitVec.ofNat 8 p.1 else []
    sat := cs.countP (·.sat), flush := cs.countP (·.flush), nonfinite := cs.countP (·.nonfinite) }

/-- The output of an operation: the touched rows with their content, the rows that take poison, and the
counts of its conversions. -/
structure OutBuf where
  rows : List Nat := []
  mem : Mem := []
  poisoned : List Nat := []
  sat : Nat := 0
  flush : Nat := 0
  nonfinite : Nat := 0
  deriving DecidableEq, Repr

/-- The rows that hold a part of an element computed from input row `bad` or later, or of its scale (R291). -/
def poisonRows (o : Operand) (bad : Nat) (vecs : List (List OutElem)) : List Nat :=
  let w := fmtBits o.ref.fmt
  (vecs.zipIdx).flatMap fun p => (p.1.zipIdx).flatMap fun q =>
    if bad ≤ q.1.m then
      (o.base + p.2 * o.ref.pitch + w * q.2 / 8) / 512 ::
        (o.base + p.2 * o.ref.pitch + (w * (q.2 + 1) - 1) / 8) / 512 ::
        (if fmtIsBlock o.ref.fmt then [(o.sbase + p.2 * o.ref.spitch + q.2 / 32) / 512] else [])
    else []

/-- The bytes of an operation's output vectors: the elements of every vector, a later one over an earlier, and then
their scales (R175; log entries 44 and 105). -/
def Operand.place (o : Operand) (vs : List OutVec) (m : Mem) : Mem :=
  let m := (vs.zipIdx).foldl (fun m p => m.write (o.base + p.2 * o.ref.pitch) p.1.bytes) m
  (vs.zipIdx).foldl (fun m p => m.write (o.sbase + p.2 * o.ref.spitch) p.1.scales) m

/-- An output laid out in its rows; bytes no element covers are zero (R175). `bad` is the first input row
that could not be read, if any. -/
def layOut (o : Operand) (sat : Bool) (bad : Option Nat) (vecs : List (List OutElem)) (b : OutBuf) : OutBuf :=
  let vs := vecs.map (convertVec o.ref sat)
  { b with
    rows := (b.rows ++ o.rows).eraseDups
    mem := o.place vs b.mem
    poisoned := b.poisoned ++ (match bad with | none => [] | some m => poisonRows o m vecs)
    sat := b.sat + (vs.map (·.sat)).sum, flush := b.flush + (vs.map (·.flush)).sum
    nonfinite := b.nonfinite + (vs.map (·.nonfinite)).sum }

/-! ### Row operations (R179–R187) -/

/-- The random stream and positions of an operation (R161, R186). -/
structure Draws where
  seed : Nat
  step : Nat
  stream : Nat
  threshold : Nat
  base : Nat
  stride : Nat
  deriving DecidableEq, Repr

def drawsOf (d : List Byte) (seed step : Nat) : Draws :=
  { seed := seed, step := step, stream := bits (slot d 5) 0 32, threshold := bits (slot d 5) 32 32
    base := bits (slot d 6) 0 40, stride := bits (slot d 6) 40 24 }

/-- The position of element `j` of input row `m` (R186). -/
def Draws.pos (r : Draws) (m j : Nat) : Nat := (r.base + m * r.stride + j) % 2 ^ 40

/-- The element is dropped (R162, R186). -/
def Draws.dropped (r : Draws) (m j : Nat) : Bool :=
  decide (randomWord r.seed r.stream r.step (r.pos m j) < r.threshold)

/-- The rounding of the output element computed from element `j` of row `m` (R186). -/
def Draws.rounding (r : Draws) (h : Header) (m j : Nat) : Rounding :=
  if h.sr then
    .stochastic (randomWord r.seed
      (if h.drop || h.op == 0x0C then r.stream ^^^ 2 ^ 28 else r.stream) r.step (r.pos m j))
  else .nearestEven

/-- Per-row inputs of a row operation. -/
structure RowInput where
  m : Nat
  n : Nat
  x : List W32
  y : List W32
  /-- The parameter values at PROW (γ then β, or the D of ATTN_DS). -/
  param : List W32
  stat : W32 × W32
  c0 : W32
  c1 : W32
  deriving DecidableEq, Repr

/-- What a row operation gives for one row: its results, and the stat record it writes. -/
structure RowOutput where
  vals : List W32
  record : Option (W32 × W32) := none
  deriving DecidableEq, Repr

/-- `rne(1 ÷ n)` (R182). -/
def recipCount (n : Nat) : W32 := f32Div f32One (f32OfNat n)

/-- The statistics and `h` of NORM_FWD (R182). -/
def normStats (rms : Bool) (n : Nat) (x : List W32) (eps : W32) : W32 × W32 :=
  let iota := recipCount n
  let mu := if rms then 0 else f32Mul (reckonReduce .add x) iota
  let v := f32Mul (reckonReduce .add (x.map fun e => let d := f32Sub e mu; f32Mul d d)) iota
  (mu, rowFn 0x4 (f32Add v eps))

def normH (mu rho : W32) (x : List W32) : List W32 := x.map fun e => f32Mul (f32Sub e mu) rho

/-- `exp(rne(z − m))`. -/
def expDiff (m z : W32) : W32 := rowFn 0x1 (f32Sub z m)

/-- Dropout with keep factor `k` where the operation applies it (R184, R186). -/
def dropEach (on : Bool) (r : Draws) (m : Nat) (k : W32) (vs : List W32) : List W32 :=
  if on then (vs.zipIdx).map fun p => if r.dropped m p.2 then 0 else f32Mul p.1 k else vs

/-- The binary operations (R179). -/
def binaryFn (fn : Nat) (x y : W32) : W32 :=
  match fn with
  | 0 => f32Add x y
  | 1 => f32Sub x y
  | 2 => f32Mul x y
  | 3 => f32Max x y
  | _ => f32Min x y

/-- The reductions of REDUCE (R179, R152). -/
def reduceFn (fn : Nat) (x y : List W32) : W32 :=
  match fn with
  | 0 => reckonReduce .add x
  | 1 => reckonReduce .sumsq x
  | 2 => reckonReduce .max x
  | 3 => reckonReduce .min x
  | _ => reckonReduce .add (x.zipWith f32Mul y)

/-- NORM_BWD for one row (R183). -/
def normBwd (rms : Bool) (i : RowInput) : List W32 :=
  let h := normH i.stat.1 i.stat.2 i.x
  let g := i.y.zipWith f32Mul i.param
  let iota := recipCount i.n
  let a := if rms then 0 else f32Mul (reckonReduce .add g) iota
  let b := f32Mul (reckonReduce .add (g.zipWith f32Mul h)) iota
  (h.zip g).map fun p => f32Mul (f32Fma (f32Neg p.1) b (f32Sub p.2 a)) i.stat.2

/-- SOFTMAX_FWD for one row (R184). -/
def softmaxFwd (masked drop : Bool) (r : Draws) (i : RowInput) : RowOutput :=
  let z := i.x.map fun e => f32Mul i.c0 e
  let z := if masked then z.zipWith f32Add i.y else z
  let m := reckonReduce .max z
  let l := reckonReduce .add (z.map (expDiff m))
  let q := f32Recip l
  { vals := dropEach drop r i.m i.c1 (z.map fun e => f32Mul (expDiff m e) q), record := some (m, l) }

/-- The probabilities of ATTN_PROB and ATTN_DS without dropout (R185). -/
def attnProbs (i : RowInput) (scores : List W32) : List W32 :=
  scores.map fun e => f32Mul (expDiff i.stat.1 (f32Mul i.c0 e)) (f32Recip i.stat.2)

/-- ATTN_DS for one row (R185): dP in x, the scores in y, D at element m of the parameter row. -/
def attnDs (drop : Bool) (r : Draws) (i : RowInput) : List W32 :=
  let p := attnProbs i i.y
  let dp := dropEach drop r i.m i.c1 i.x
  (p.zip dp).map fun q => f32Mul i.c0 (f32Mul q.1 (f32Sub q.2 (i.param.getD i.m 0)))

/-- One row of a row operation (R179). -/
def rowResult (h : Header) (r : Draws) (i : RowInput) : RowOutput :=
  match h.op with
  | 0x01 => { vals := i.x.map fun e => rowFn h.fn (f32Fma i.c0 e i.c1) }
  | 0x02 => { vals := i.x.zipWith (binaryFn h.fn) i.y }
  | 0x03 => { vals := i.x }
  | 0x04 => { vals := [reduceFn h.fn i.x i.y] }
  | 0x05 =>
    let st := normStats (bit h.fn 0) i.n i.x i.c0
    let hs := normH st.1 st.2 i.x
    { vals := if bit h.fn 1 then hs
        else (hs.zip ((i.param.take i.n).zip (i.param.drop i.n))).map fun p => f32Fma p.1 p.2.1 p.2.2
      record := some st }
  | 0x06 => { vals := normBwd (bit h.fn 0) i }
  | 0x07 => softmaxFwd (bit h.fn 0) h.drop r i
  | 0x08 =>
    let c := reckonReduce .add (i.y.zipWith f32Mul i.x)
    { vals := (i.x.zip i.y).map fun p => f32Mul p.1 (f32Sub p.2 c) }
  | 0x09 => { vals := dropEach h.drop r i.m i.c1 (attnProbs i i.x) }
  | 0x0A => { vals := attnDs h.drop r i }
  | 0x0B => { vals := (i.y.zip i.x).map fun p => f32Mul p.1 (rowFnDeriv h.fn p.2) }
  | _ => { vals := dropEach true r i.m i.c0 i.x }

/-- The results of every row as output vectors, each element with its rounding and its input row. -/
def arrangeRows (h : Header) (r : Draws) (o : Operand) (res : List (List W32)) : List (List OutElem) :=
  let rows := (res.zipIdx).map fun p => (p.1.zipIdx).map fun q =>
    ({ value := q.1, mode := r.rounding h p.2 q.2, m := p.2 } : OutElem)
  if h.op = 0x03 ∧ h.fn % 2 = 1 then
    (List.range o.vectors).map fun j => rows.filterMap fun es => es[j]?
  else if h.op = 0x04 ∧ o.ref.pitch = 0 then [rows.flatten]
  else rows

/-- The largest magnitude among the finite captured values of a ROW operation with AMAX = 1 (R199): the FP32
inputs of CONVERT, the FP32 results of every other operation. -/
def captureAmax (vals : List W32) : W32 :=
  vals.foldl (fun a v => if f32IsFinite v then f32Max a (f32Abs v) else a) 0

end Sys2Proof.Machine
end

