-- ==== Sys2Proof/Machine/TileState.lean ====
section
/-! DEFINITION. TileState: the state of one tile beside its byte memories (R83–R106, R119–R137, R176–R192,
R197–R201, R218–R234, R240–R273). Main memory, core scratch and stat memory stand in the device's byte
memories (State.mem, State.stat). -/

namespace Sys2Proof.Machine

/-- The flags of a register context (R240). -/
structure Flags where
  z : Bool := false
  n : Bool := false
  c : Bool := false
  v : Bool := false
  deriving DecidableEq, Repr

/-- One register context (R103, R240): main, evaluation or guest. -/
structure RegContext where
  /-- g0–g31; entry 0 is never read (R240: g0 reads as zero). -/
  g : Vector W64 32 := Vector.replicate 32 0
  /-- Completion counters k0–k7. -/
  k : Vector W32 8 := Vector.replicate 8 0
  flags : Flags := {}
  /-- Byte offset of the next instruction, a multiple of 4. -/
  pc : BitVec 14 := 0
  /-- The address of the next instruction where no fetch may have it (R247). -/
  stray : Option W64 := none
  /-- The handler flag (R266). -/
  handler : Bool := false
  /-- IX of the TRAP whose handler runs (R264, cause 0x09). -/
  handlerIx : Nat := 0
  /-- TSW56–TSW63 (R103). -/
  sw : Vector W64 8 := Vector.replicate 8 0
  /-- The image declares a program for this context (R270). -/
  program : Bool := false
  /-- Entry point and trap vector of the program image (R270). -/
  entry : Nat := 0
  vector : Option Nat := none
  /-- The context's program has executed END (R254). -/
  ended : Bool := false
  deriving DecidableEq, Repr

/-- What a core waits on (TSW55, R268). -/
inductive Wait where
  | none
  | waitk (k n : Nat)
  | issue (engine addr word : Nat)
  | send (ra rb nq : Nat)
  | recv (q rd : Nat)
  | sync
  | ended
  deriving DecidableEq, Repr

/-- TSW48, or TSW53 for the guest context (R268). -/
structure TrapWord where
  cause : Nat := 0
  context : Nat := 0
  faulted : Bool := false
  handler : Bool := false
  refusal : Nat := 0
  engine : Nat := 0
  taken : Nat := 0
  deriving DecidableEq, Repr

/-- A trap raised: its cause, detail (TSW51), refusal code and engine, the PC to save and the instruction
word (R264, R265). -/
structure TrapCause where
  cause : Nat
  detail : Nat := 0
  refusal : Nat := 0
  engine : Nat := 0
  pc : BitVec 14 := 0
  word : Nat := 0
  /-- For a nested trap: the cause of the trap just raised (R264, cause 0x09). -/
  ix : Nat := 0
  deriving DecidableEq, Repr

/-- Trap state of a tile (R264–R268). -/
structure TrapState where
  main : TrapWord := {}
  guest : TrapWord := {}
  pc : Nat := 0
  word : Nat := 0
  detail : Nat := 0
  cycle : Nat := 0
  /-- TSW54: counters that have saturated. -/
  saturated : Nat := 0
  /-- A trap entry in progress (R265). -/
  entry : Option TrapCause := none
  /-- Traps held until the entry completes, oldest first (R265). -/
  held : List TrapCause := []
  deriving DecidableEq, Repr

/-- An engine operation accepted: its copied descriptor, its address, the context and current step at
issue (R98, R163, R172). -/
structure EngOp where
  desc : List Byte
  addr : Nat
  context : Nat
  step : Nat
  /-- DMA: rows requested and rows completed so far, and the first bus error met (R257, R265). -/
  requested : Nat := 0
  completed : Nat := 0
  busError : Option Nat := none
  /-- DMA: rows read so far by a transpose from a remote source: row address, data, poisoned (R258). -/
  rows : SMap (List Byte × Bool) := []
  /-- FWD: this operation is sampled for the shadow check (R209). -/
  sampled : Bool := false
  deriving DecidableEq, Repr

/-- One engine: its two places and its status word (R177, R192). -/
structure Engine where
  running : Option EngOp := none
  waiting : Option EngOp := none
  refused : Bool := false
  refusalCode : Nat := 0
  kc : Nat := 0
  op : Nat := 0
  busyCycles : Nat := 0
  /-- Frame cycle from which the present busy time counts. -/
  busyFrom : Nat := 0
  deriving DecidableEq, Repr

/-- A remote operation outstanding under a tag (R231). -/
structure RemoteOp where
  write : Bool
  addr : Nat
  /-- Local row read into or written from. -/
  row : Nat
  /-- It is abandoned: what answers it only frees the tag (R501). -/
  gone : Bool := false
  deriving DecidableEq, Repr

/-- A staged request of an edge tile (R126, R128). -/
structure Staged where
  write : Bool
  addr : Nat
  words : Nat
  kc : Nat
  context : Nat
  desc : Nat
  /-- Words placed in the inbound queue, or taken from the outbound queue. -/
  done : Nat := 0
  busError : Option Nat := none
  deriving DecidableEq, Repr

/-- The decoupling queues of a stack edge port (R125–R128). -/
structure EdgePort where
  inbound : List (List Byte) := []
  outbound : List (List Byte) := []
  reads : List Staged := []
  writes : List Staged := []
  deriving DecidableEq, Repr

/-- A laid table held by the exchange engine (R263). -/
structure LaidTable where
  row : Nat
  entries : Nat
  kc : Nat
  context : Nat
  /-- The table rows fetched so far (R123). -/
  code : List Byte := []
  deriving DecidableEq, Repr

/-- A read of a laid table on its way to a send register (R122). -/
structure SendFill where
  left : Nat
  reg : Nat
  data : List Byte
  bad : Bool
  deriving DecidableEq, Repr

/-- The exchange engine and the tile's share of the sync network (R107–R123, R137). -/
structure Exchange where
  sr0 : List Byte := []
  sr1 : List Byte := []
  gr0 : List Byte := []
  gr1 : List Byte := []
  /-- Receive registers: the valid word of the N, E, S and W input, if any (R115, R117). -/
  recv : SMap (Option (List Byte)) := []
  /-- The beam register on the way into this tile (R116). -/
  beam : Option (List Byte) := none
  fills : List SendFill := []
  running : Option LaidTable := none
  next : Option LaidTable := none
  /-- Entry now running and its repetition. -/
  index : Nat := 0
  rep : Nat := 0
  /-- The table's last entry has ended and its counter, in its context, is still to be signalled (R262). -/
  tableDone : Option (Nat × Nat) := none
  /-- TSW44 [2:0], [4:3], [28:16], [63:32]. -/
  phase : Nat := 0
  kind : Nat := 0
  entryShown : Nat := 0
  cycle : Nat := 0
  /-- TSW45. -/
  dropped : Nat := 0
  emptyTakes : Nat := 0
  entryWait : Nat := 0
  firstLoss : Option Nat := none
  deriving DecidableEq, Repr

/-- TSW44 [2:0] of a tile that counts as arrived without its core (R101, R137, R254, R267). -/
def Exchange.counted (e : Exchange) : Exchange := { e with phase := if 2 ≤ e.phase then 4 else 1 }

/-- A table issued for a later phase is discarded (R254). -/
def Exchange.noNext (e : Exchange) : Exchange := { e with next := none }

/-- What a tile named at the sync it has arrived at (R253). -/
structure Arrival where
  kind : Nat
  stepAdvance : Bool
  scanClose : Bool
  switchPoint : Bool
  /-- Frame cycle of the arrival of the core, for TSW45 [47:32]. -/
  cycle : Nat
  /-- The scan bit carried (R212). -/
  scan : Bool
  deriving DecidableEq, Repr

/-- One tuple in a queue: its source and the words left of it (R226). -/
structure Tuple where
  source : Nat
  apron : Bool
  words : List W64
  deriving DecidableEq, Repr

/-- A tile queue with its status word (R226–R234). -/
structure TileQueue where
  isOpen : Bool := false
  tuples : List Tuple := []
  refusedArrivals : Nat := 0
  refusalsReceived : Nat := 0
  lastCode : Nat := 0
  lastDest : Nat := 0
  deriving DecidableEq, Repr

/-- One flit of the message mesh: its data and the fields of its control byte (R218). -/
structure Flit where
  data : W64
  head : Bool
  tail : Bool
  cls : Nat
  /-- PARITY as it stands in the control byte. -/
  parity : Bool := false
  /-- A router has marked its packet here (R225). -/
  poison : Bool := false
  deriving DecidableEq, Repr

/-- The message-mesh router of a tile (R218–R225). Input `p * 4 + class`, with ports 0 N, 1 E, 2 S, 3 W,
4 local injection; output `p * 4 + class` with port 4 ejection. -/
structure Router where
  inp : SMap (List Flit) := []
  /-- Flits of the unit at an input that its buffer has no place for yet: rows in their decoupling queue (R93) and
  packets of an apron unit (R235). -/
  outside : SMap (List Flit) := []
  /-- Credits in use per output and class: flits sent and not yet out of the downstream buffer. -/
  used : SMap Nat := []
  /-- The input (`port + 1`) that holds each output and class (wormhole); 0 none. -/
  hold : SMap Nat := []
  /-- Round-robin pointers: the class to try first per output, and at `8 + 4 * output + class` the input. -/
  turn : SMap Nat := []
  /-- The flits of a packet not yet at its sink: the ejection stage per class, and at `4 * (port + 1) + class` the apron
  beyond an edge port. -/
  eject : SMap (List Flit) := []
  deriving DecidableEq, Repr

/-- A watch slot's registers beside stat memory (R198, R201). -/
structure WatchSlot where
  flags : Nat := 0
  amax : W32 := 0
  sat : Nat := 0
  flush : Nat := 0
  nonfinite : Nat := 0
  sampling : Nat := 0
  shadow : W32 := 0
  /-- The registers differ from the watch line (R201). -/
  dirty : Bool := false
  deriving DecidableEq, Repr

/-- A shadow job on the dX array (R210). -/
structure ShadowJob where
  slot : Nat
  tid : Nat
  desc : List Byte
  retained : List W32
  deriving DecidableEq, Repr

/-- Counts and amax of an operation that completed after its tile had arrived at a step-advance sync: they
enter the slot in the next step (R200). -/
structure LateCount where
  slot : Nat
  sat : Nat
  flush : Nat
  nonfinite : Nat
  amax : Option W32
  deriving DecidableEq, Repr

/-- The watch unit of a tile (R197–R212). -/
structure WatchUnit where
  slots : SMap WatchSlot := []
  scanBit : Bool := false
  late : List LateCount := []
  job : Option ShadowJob := none
  deriving DecidableEq, Repr

/-- A window of a tile: base and count (R101). -/
structure Window where
  base : Nat := 0
  count : Nat := 0
  deriving DecidableEq, Repr

/-- What LOAD latches for a tile from its image (R101, R197, R270, R272). -/
structure TileDecl where
  /-- Bank modes: bit b 1 strong (TSW5). -/
  modes : Nat := 0
  queues : Nat := 0
  watchFirst : Nat := 0
  watchLines : Nat := 0
  scalePage : Nat := 0
  scaleCounter : Nat := 0
  guestRows : Window := {}
  guestScratch : Window := {}
  guestStat : Window := {}
  evalRows : Window := {}
  evalScratch : Window := {}
  evalStat : Window := {}
  /-- Declared laid tables: first row and entries. -/
  tables : List (Nat × Nat) := []
  deriving DecidableEq, Repr

/-- Counters and error words of a tile (TSW12–TSW28, R104). -/
structure TileCounters where
  collisions : Nat := 0
  lastCollisionRow : Nat := 0
  lastCollisionCycle : Nat := 0
  portWaits : Nat := 0
  winRefusals : Nat := 0
  winPlace : Nat := 0
  winMemory : Nat := 0
  winContext : Nat := 0
  /-- TSW16–TSW22. -/
  ce : Vector Nat 7 := Vector.replicate 7 0
  ue : Nat := 0
  /-- TSW24, TSW25. -/
  lastCe : Nat := 0
  lastUe : Nat := 0
  scratchCe : Nat := 0
  scratchUe : Nat := 0
  scratchLast : Nat := 0
  statCe : Nat := 0
  statUe : Nat := 0
  statLast : Nat := 0
  nonfinite : Nat := 0
  deriving DecidableEq, Repr

/-- One tile. -/
structure Tile where
  main : RegContext := {}
  eval : RegContext := {}
  guest : RegContext := {}
  /-- TSW4 [1:0]: 0 main, 1 evaluation, 2 guest; [2] a switch is waiting (R103). -/
  active : Nat := 0
  switching : Option Nat := none
  wait : Wait := .none
  /-- The aligned pair of instructions last fetched: its address and its 8 bytes (R246). -/
  pair : Option (Nat × List Byte) := none
  /-- Frame cycle at which the present wait began (TSW55 [63:32]). -/
  waitFrom : Nat := 0
  trap : TrapState := {}
  fwd : Engine := {}
  bwd : Engine := {}
  row : Engine := {}
  dma : Engine := {}
  /-- Remote operations outstanding by tag (R231). -/
  tags : SMap (Option RemoteOp) := []
  edge : EdgePort := {}
  xch : Exchange := {}
  arrival : Option Arrival := none
  queues : Vector TileQueue 4 := Vector.replicate 4 {}
  net : Router := {}
  watch : WatchUnit := {}
  decl : TileDecl := {}
  cnt : TileCounters := {}
  /-- Spare rows in use: key `4 * bank + spare`, value the row of the bank plus 1 (R87). -/
  spares : SMap Nat := []
  /-- The guest context of the tile has been halted by a trap (R267). -/
  guestHalted : Bool := false
  deriving DecidableEq, Repr

end Sys2Proof.Machine
end

