-- ==== Sys2Proof/Machine/Flags.lean ====
section
/-! DEFINITION. Flags: the flag computations of the tile core and the branch conditions (R240, R244). -/

namespace Sys2Proof.Machine

/-- The flags of CMP and CMPI: Z, N of the difference, C for no borrow, V for signed overflow (R244). -/
def compareFlags (a b : W64) : Flags where
  z := a - b == 0
  n := (a - b).msb
  c := decide (b.toNat ≤ a.toNat)
  v := (a.msb != b.msb) && ((a - b).msb != a.msb)

/-- The flags of TST: Z, N of the conjunction, C and V cleared (R244). -/
def testFlags (a b : W64) : Flags where
  z := a &&& b == 0
  n := (a &&& b).msb
  c := false
  v := false

/-- A condition of B.cond holds (R244). Condition 0xF does not encode a branch. -/
def Flags.holds (f : Flags) : Fin 15 → Bool
  | 0 => f.z
  | 1 => !f.z
  | 2 => f.c
  | 3 => !f.c
  | 4 => f.n
  | 5 => !f.n
  | 6 => f.v
  | 7 => !f.v
  | 8 => f.c && !f.z
  | 9 => !f.c || f.z
  | 10 => f.n == f.v
  | 11 => f.n != f.v
  | 12 => !f.z && f.n == f.v
  | 13 => f.z || f.n != f.v
  | 14 => true

/-- The flags as offset 0x20 of the save area holds them (R265). -/
def Flags.word (f : Flags) : Nat := b2n f.z + 2 * b2n f.n + 4 * b2n f.c + 8 * b2n f.v

/-- The flags of such a word (R266). -/
def flagsOf (w : Nat) : Flags := ⟨bit w 0, bit w 1, bit w 2, bit w 3⟩

end Sys2Proof.Machine
end

