-- ==== Sys2Proof/Machine/Operands.lean ====
section
/-! DEFINITION. Operands: the operand forms of the tile core (R240, R242, R245, R247). -/

namespace Sys2Proof.Machine

/-! ### Registers -/

/-- A general register of a context; g0 reads as zero (R240). -/
def RegContext.reg (c : RegContext) (r : Reg) : W64 := if r = 0 then 0 else c.g[r.val]

/-- A general register written; a write of g0 is discarded (R240). -/
def RegContext.setReg (c : RegContext) (r : Reg) (v : W64) : RegContext :=
  if r = 0 then c else { c with g := c.g.set r.val v }

/-- A fetch address lies in 0x0000–0x3EFC and is a multiple of 4 (R240, R247). -/
def fetchOk (pc : W64) : Bool := decide (pc.toNat ≤ 0x3EFC) && decide (pc.toNat % 4 = 0)

/-- The program counter as a 64-bit value, and plus 4 (R245). -/
def RegContext.here (c : RegContext) : W64 := c.pc.zeroExtend 64
def RegContext.next (c : RegContext) : W64 := c.here + 4

/-- The context goes on at address `a`. The PC takes its bits [13:2]; an address that no fetch may have is kept beside
it until its fetch traps (R240, R247; log entry 101). -/
def RegContext.goTo (c : RegContext) (a : W64) : RegContext :=
  { c with pc := BitVec.ofNat 14 (a.toNat / 4 * 4), stray := if fetchOk a then none else some a }

/-- The context goes on at the next instruction. -/
def RegContext.advance (c : RegContext) : RegContext := c.goTo c.next

/-! ### Immediate and shift operands -/

/-- A sign-extended 16-bit immediate. -/
def signImm (imm : W16) : W64 := imm.signExtend 64
/-- A zero-extended 16-bit immediate. -/
def zeroImm (imm : W16) : W64 := imm.zeroExtend 64

/-- The amount of a register shift: bits [5:0] (R245). -/
def shiftAmount (b : W64) : Nat := b.toNat % 64

def shiftLeft64 (a : W64) (n : Nat) : W64 := a <<< n
def shiftRight64 (a : W64) (n : Nat) : W64 := a >>> n
def shiftArith64 (a : W64) (n : Nat) : W64 := a.sshiftRight n

/-- The shift a SHI names (R243). -/
def shiftOpApply (op : ShiftOp) (a : W64) (n : Nat) : W64 :=
  match op with
  | .shl => shiftLeft64 a n
  | .shr => shiftRight64 a n
  | .sar => shiftArith64 a n

/-- The high half of the unsigned product and of the signed product (R245). -/
def mulHighU (a b : W64) : W64 := BitVec.ofNat 64 (a.toNat * b.toNat / 2 ^ 64)
def mulHighS (a b : W64) : W64 := BitVec.ofInt 64 (a.toInt * b.toInt / 2 ^ 64)

def minS (a b : W64) : W64 := if a.slt b then a else b
def maxS (a b : W64) : W64 := if a.slt b then b else a
def minU (a b : W64) : W64 := if a.ult b then a else b
def maxU (a b : W64) : W64 := if a.ult b then b else a

/-- The MOVK result: 16 bits at 16 × hw replaced (R245). -/
def insertHalf (a : W64) (hw : Fin 4) (imm : W16) : W64 :=
  BitVec.ofNat 64 (putBits a.toNat (16 * hw.val) 16 imm.toNat)

/-- A load result of `n` bytes, sign- or zero-extended (R245). -/
def extendLoad (n : Nat) (isSigned : Bool) (bs : List Byte) : W64 :=
  if isSigned then BitVec.ofInt 64 (signed (8 * n) (leNat bs)) else BitVec.ofNat 64 (leNat bs)

/-- A branch or jump target: the address of the branch plus 4 × the signed offset (R242). -/
def branchTarget {w : Nat} (pc : W64) (off : BitVec w) : W64 := pc + 4 * off.signExtend 64

end Sys2Proof.Machine
end

