-- ==== Sys2Proof/Machine/CoreDecode.lean ====
section
/-! DEFINITION. CoreDecode: the 32-bit words of the tile core: the formats of R242 read from a word, and the instruction
that the tables of R243 give it, and the word of an instruction. A field that no row calls zero is not tested (log entry
100). -/

namespace Sys2Proof.Machine

/-! ### Fields (R242) -/

def fieldRd (w : Nat) : Reg := ⟨bits w 21 5, Nat.mod_lt _ (by decide)⟩
def fieldRa (w : Nat) : Reg := ⟨bits w 16 5, Nat.mod_lt _ (by decide)⟩
def fieldRb (w : Nat) : Reg := ⟨bits w 11 5, Nat.mod_lt _ (by decide)⟩
def fieldImm (w : Nat) : W16 := BitVec.ofNat 16 w
def fieldHw (w : Nat) : Fin 4 := ⟨bits w 16 2, Nat.mod_lt _ (by decide)⟩
def fieldK (w : Nat) : Fin 8 := ⟨bits w 18 3, Nat.mod_lt _ (by decide)⟩
def fieldNq (w : Nat) : Fin 4 := ⟨bits w 9 2, Nat.mod_lt _ (by decide)⟩
def fieldIx (w : Nat) : Fin 64 := ⟨bits w 10 6, Nat.mod_lt _ (by decide)⟩
def fieldIxK (w : Nat) : Fin 8 := ⟨bits w 10 3, Nat.mod_lt _ (by decide)⟩
def fieldKind (w : Nat) : Fin 4 := ⟨bits w 0 2, Nat.mod_lt _ (by decide)⟩

/-- An instruction where the fields that must be zero are zero. -/
def whenZero (fields : Nat) (i : Instr) : Option Instr := if fields = 0 then some i else none

/-! ### The tables of R243 -/

/-- MAJ 0x00, by FUNC. -/
def decodeAlu (t w : Nat) : Option Instr :=
  let d := fieldRd w
  let a := fieldRa w
  let b := fieldRb w
  match bits w 0 11 with
  | 0x000 => some (.add t d a b)
  | 0x001 => some (.sub t d a b)
  | 0x002 => some (.andR t d a b)
  | 0x003 => some (.orR t d a b)
  | 0x004 => some (.xorR t d a b)
  | 0x005 => some (.shl t d a b)
  | 0x006 => some (.shr t d a b)
  | 0x007 => some (.sar t d a b)
  | 0x008 => some (.mul t d a b)
  | 0x009 => some (.mulhu t d a b)
  | 0x00A => some (.mulhs t d a b)
  | 0x00B => some (.minS t d a b)
  | 0x00C => some (.minU t d a b)
  | 0x00D => some (.maxS t d a b)
  | 0x00E => some (.maxU t d a b)
  | 0x010 => whenZero (bits w 21 5) (.cmp t a b)
  | 0x011 => whenZero (bits w 21 5) (.tst t a b)
  | 0x020 => some (.jalr t d a)
  | _ => none

/-- MAJ 0x05: the shift of imm16 [7:6] and its amount. -/
def decodeShift (t w : Nat) : Option Instr :=
  let i (op : ShiftOp) : Option Instr :=
    whenZero (bits w 8 8) (.shi t (fieldRd w) (fieldRa w) op (BitVec.ofNat 6 w))
  match bits w 6 2 with
  | 0 => i .shl
  | 1 => i .shr
  | 2 => i .sar
  | _ => none

/-- MAJ 0x28, by engine. The operation of an ISSUE to the row or the DMA engine stands in its descriptor: every such
word is read as the first of that engine's commands. -/
def decodeIssue (t w : Nat) : Option Instr :=
  let a := fieldRa w
  let imm := fieldImm w
  match bits w 23 3 with
  | 1 => whenZero (bits w 21 2) (.issueFwd t a imm)
  | 2 => whenZero (bits w 21 2) (.issueBwd t a imm)
  | 3 => whenZero (bits w 21 2) (.rowMap t a imm)
  | 4 => whenZero (bits w 21 2) (.dmaMove t a imm)
  | 5 => whenZero (bits w 21 2) (.issueXch t a imm)
  | _ => none

/-- MAJ 0x2B, by SUB. -/
def decodeQueue (t w : Nat) : Option Instr :=
  match bits w 0 9 with
  | 0 => some (.send t (fieldRa w) (fieldRb w) (fieldNq w))
  | 1 => some (.sendn t (fieldRd w) (fieldRa w) (fieldRb w) (fieldNq w))
  | 2 => some (.recv t (fieldRd w) (fieldNq w))
  | 3 => some (.recvn t (fieldRd w) (fieldRa w) (fieldNq w))
  | _ => none

/-- MAJ 0x2C, by SUB. -/
def decodeSystem (t w : Nat) : Option Instr :=
  match bits w 0 10 with
  | 1 => some (.tsr t (fieldRd w) (fieldIx w))
  | 2 => some (.tsww t (fieldRa w) (fieldIx w))
  | 3 => whenZero (bits w 13 3) (.rdk t (fieldRd w) (fieldIxK w))
  | 4 => whenZero (bits w 13 3) (.setk t (fieldRa w) (fieldIxK w))
  | 5 => some (.trap t (fieldIx w))
  | 6 => some (.rte t)
  | 7 => some (.endProgram t)
  | 8 => some (.rstep t (fieldRd w))
  | _ => none

/-- MAJ 0x20: the condition 0xF is illegal (R244). -/
def decodeBranch (t w : Nat) : Option Instr :=
  if h : bits w 22 4 < 15 then some (.bCond t ⟨bits w 22 4, h⟩ (BitVec.ofNat 22 w)) else none

/-- The instruction of tile `t` that a word stands for; none where R243 makes the word illegal. -/
def coreInstr (t w : Nat) : Option Instr :=
  let d := fieldRd w
  let a := fieldRa w
  let imm := fieldImm w
  match bits w 26 6 with
  | 0x00 => decodeAlu t w
  | 0x01 => some (.addi t d a imm)
  | 0x02 => some (.andi t d a imm)
  | 0x03 => some (.ori t d a imm)
  | 0x04 => some (.xori t d a imm)
  | 0x05 => decodeShift t w
  | 0x06 => whenZero (bits w 21 5) (.cmpi t a imm)
  | 0x07 => whenZero (bits w 16 5) (.movi t d imm)
  | 0x08 => whenZero (bits w 18 3) (.movk t d (fieldHw w) imm)
  | 0x10 => some (.ldb t d a imm)
  | 0x11 => some (.ldbu t d a imm)
  | 0x12 => some (.ldh t d a imm)
  | 0x13 => some (.ldhu t d a imm)
  | 0x14 => some (.ldw t d a imm)
  | 0x15 => some (.ldwu t d a imm)
  | 0x16 => some (.ldd t d a imm)
  | 0x18 => some (.stb t d a imm)
  | 0x19 => some (.sth t d a imm)
  | 0x1A => some (.stw t d a imm)
  | 0x1B => some (.std t d a imm)
  | 0x20 => decodeBranch t w
  | 0x21 => some (.jump t (BitVec.ofNat 26 w))
  | 0x22 => some (.jal t (BitVec.ofNat 26 w))
  | 0x28 => decodeIssue t w
  | 0x29 => whenZero (bits w 21 5 + bits w 16 2) (.waitk t (fieldK w) imm)
  | 0x2A => whenZero (bits w 16 10 + bits w 5 11) (.sync t (fieldKind w) (bit w 2) (bit w 3) (bit w 4))
  | 0x2B => decodeQueue t w
  | 0x2C => decodeSystem t w
  | _ => none

/-! ### The words of the instructions -/

def wordR (func : Nat) (rd ra rb : Reg) : Nat := rd.val * 2 ^ 21 + ra.val * 2 ^ 16 + rb.val * 2 ^ 11 + func
def wordI (maj : Nat) (rd ra : Reg) (imm : W16) : Nat :=
  maj * 2 ^ 26 + rd.val * 2 ^ 21 + ra.val * 2 ^ 16 + imm.toNat
def wordK (rd : Reg) (hw : Fin 4) (imm : W16) : Nat := 0x08 * 2 ^ 26 + rd.val * 2 ^ 21 + hw.val * 2 ^ 16 + imm.toNat
def wordB (c : Fin 15) (off : BitVec 22) : Nat := 0x20 * 2 ^ 26 + c.val * 2 ^ 22 + off.toNat
def wordJ (maj : Nat) (off : BitVec 26) : Nat := maj * 2 ^ 26 + off.toNat
def wordE (engine : Nat) (ra : Reg) (imm : W16) : Nat :=
  0x28 * 2 ^ 26 + engine * 2 ^ 23 + ra.val * 2 ^ 16 + imm.toNat
def wordW (k : Fin 8) (n : W16) : Nat := 0x29 * 2 ^ 26 + k.val * 2 ^ 18 + n.toNat
def wordY (kind : Fin 4) (step scan switch : Bool) : Nat :=
  0x2A * 2 ^ 26 + kind.val + 4 * b2n step + 8 * b2n scan + 16 * b2n switch
def wordQ (rd ra rb : Reg) (nq : Fin 4) (sub : Nat) : Nat :=
  0x2B * 2 ^ 26 + rd.val * 2 ^ 21 + ra.val * 2 ^ 16 + rb.val * 2 ^ 11 + nq.val * 2 ^ 9 + sub
def wordS (rd ra : Reg) (ix sub : Nat) : Nat :=
  0x2C * 2 ^ 26 + rd.val * 2 ^ 21 + ra.val * 2 ^ 16 + ix * 2 ^ 10 + sub

/-- The shift field of a SHI. -/
def shiftCode (op : ShiftOp) : Nat := match op with | .shl => 0 | .shr => 1 | .sar => 2

/-- The word of an instruction of the tile core, with zero in every field its format leaves unused; none for any other
command. -/
def coreWord (i : Instr) : Option Nat :=
  match i with
  | .add _ rd ra rb => some (wordR 0x000 rd ra rb)
  | .sub _ rd ra rb => some (wordR 0x001 rd ra rb)
  | .andR _ rd ra rb => some (wordR 0x002 rd ra rb)
  | .orR _ rd ra rb => some (wordR 0x003 rd ra rb)
  | .xorR _ rd ra rb => some (wordR 0x004 rd ra rb)
  | .shl _ rd ra rb => some (wordR 0x005 rd ra rb)
  | .shr _ rd ra rb => some (wordR 0x006 rd ra rb)
  | .sar _ rd ra rb => some (wordR 0x007 rd ra rb)
  | .mul _ rd ra rb => some (wordR 0x008 rd ra rb)
  | .mulhu _ rd ra rb => some (wordR 0x009 rd ra rb)
  | .mulhs _ rd ra rb => some (wordR 0x00A rd ra rb)
  | .minS _ rd ra rb => some (wordR 0x00B rd ra rb)
  | .minU _ rd ra rb => some (wordR 0x00C rd ra rb)
  | .maxS _ rd ra rb => some (wordR 0x00D rd ra rb)
  | .maxU _ rd ra rb => some (wordR 0x00E rd ra rb)
  | .cmp _ ra rb => some (wordR 0x010 0 ra rb)
  | .tst _ ra rb => some (wordR 0x011 0 ra rb)
  | .jalr _ rd ra => some (wordR 0x020 rd ra 0)
  | .addi _ rd ra imm => some (wordI 0x01 rd ra imm)
  | .andi _ rd ra imm => some (wordI 0x02 rd ra imm)
  | .ori _ rd ra imm => some (wordI 0x03 rd ra imm)
  | .xori _ rd ra imm => some (wordI 0x04 rd ra imm)
  | .shi _ rd ra op n => some (wordI 0x05 rd ra (BitVec.ofNat 16 (shiftCode op * 2 ^ 6 + n.toNat)))
  | .cmpi _ ra imm => some (wordI 0x06 0 ra imm)
  | .movi _ rd imm => some (wordI 0x07 rd 0 imm)
  | .movk _ rd hw imm => some (wordK rd hw imm)
  | .ldb _ rd ra imm => some (wordI 0x10 rd ra imm)
  | .ldbu _ rd ra imm => some (wordI 0x11 rd ra imm)
  | .ldh _ rd ra imm => some (wordI 0x12 rd ra imm)
  | .ldhu _ rd ra imm => some (wordI 0x13 rd ra imm)
  | .ldw _ rd ra imm => some (wordI 0x14 rd ra imm)
  | .ldwu _ rd ra imm => some (wordI 0x15 rd ra imm)
  | .ldd _ rd ra imm => some (wordI 0x16 rd ra imm)
  | .stb _ rs ra imm => some (wordI 0x18 rs ra imm)
  | .sth _ rs ra imm => some (wordI 0x19 rs ra imm)
  | .stw _ rs ra imm => some (wordI 0x1A rs ra imm)
  | .std _ rs ra imm => some (wordI 0x1B rs ra imm)
  | .bCond _ c off => some (wordB c off)
  | .jump _ off => some (wordJ 0x21 off)
  | .jal _ off => some (wordJ 0x22 off)
  | .issueFwd _ ra imm => some (wordE 1 ra imm)
  | .issueBwd _ ra imm => some (wordE 2 ra imm)
  | .rowMap _ ra imm => some (wordE 3 ra imm)
  | .dmaMove _ ra imm => some (wordE 4 ra imm)
  | .issueXch _ ra imm => some (wordE 5 ra imm)
  | .waitk _ c n => some (wordW c n)
  | .sync _ kind step scan switch => some (wordY kind step scan switch)
  | .send _ ra rb nq => some (wordQ 0 ra rb nq 0)
  | .sendn _ rd ra rb nq => some (wordQ rd ra rb nq 1)
  | .recv _ rd q => some (wordQ rd 0 0 q 2)
  | .recvn _ rd ra q => some (wordQ rd ra 0 q 3)
  | .tsr _ rd ix => some (wordS rd 0 ix.val 1)
  | .tsww _ ra ix => some (wordS 0 ra ix.val 2)
  | .rdk _ rd c => some (wordS rd 0 c.val 3)
  | .setk _ ra c => some (wordS 0 ra c.val 4)
  | .trap _ ix => some (wordS 0 0 ix.val 5)
  | .rte _ => some (wordS 0 0 0 6)
  | .endProgram _ => some (wordS 0 0 0 7)
  | .rstep _ rd => some (wordS rd 0 0 8)
  | _ => none

end Sys2Proof.Machine
end

