-- ==== Sys2Proof/Machine/Dictionary.lean ====
section
/-! DEFINITION. Dictionary: the entries of the object dictionary as the tables of the spec list them (R12,
R13, R38–R43, R82 and the entry tables of the other chapters). A row stands for `count` indexes `step`
apart and for the subindexes `lo` to `hi`. -/

namespace Sys2Proof.Machine

/-- The data types of R43; an octet string and a writable domain carry their length. -/
inductive DType where
  | boolean
  | i8
  | i16
  | i32
  | i64
  | u8
  | u16
  | u32
  | u64
  | f32
  | str
  | octet
  | domain
  deriving DecidableEq, Repr

/-- The access codes of R13. -/
inductive AccessCode where
  | const
  | ro
  | wo
  | rw
  | rwStop
  | rwHost
  deriving DecidableEq, Repr

/-- The value check of an entry at step 8 of R45 (R499). A check that needs the state is named here and
made in DictCheck.lean. -/
inductive Check where
  | any
  | oneOf (vs : List Nat)
  | mask (allowed : Nat)
  | range (lo hi : Nat)
  | mult (n : Nat)
  | heartbeat
  | device
  | peer
  | tile
  | column
  | even
  | odd
  | stackBase
  | watchBase
  | watchTable
  | retirePc
  | regionTable
  | permit
  | microcode
  | routeTable
  | weights
  | replicaTable
  | snapBase
  | genLength
  | hosting
  | target
  | powerCap
  | monitors
  | image
  deriving DecidableEq, Repr

/-- One row of the dictionary. -/
structure Entry where
  index : Nat
  step : Nat
  count : Nat
  lo : Nat
  hi : Nat
  type : DType
  access : AccessCode
  default : Nat
  saved : Bool
  check : Check
  length : Nat
  deriving DecidableEq, Repr

/-- Entries of 0x1000–0x10FF. -/
def entries10 : List Entry :=
  [ ⟨0x1000, 1, 1, 0x00, 0x00, .u32, .const, 0, false, .any, 0⟩,  -- Device type
    ⟨0x1001, 1, 1, 0x00, 0x00, .u8, .ro, 0, false, .any, 0⟩,  -- Error register
    ⟨0x1003, 1, 1, 0x00, 0x00, .u8, .rw, 0, false, .oneOf [0], 0⟩,  -- Number of errors
    ⟨0x1003, 1, 1, 0x01, 0x10, .u32, .ro, 0, false, .any, 0⟩,  -- Error history
    ⟨0x1008, 1, 1, 0x00, 0x00, .str, .const, 0, false, .any, 0⟩,  -- Device name
    ⟨0x1009, 1, 1, 0x00, 0x00, .str, .const, 0, false, .any, 0⟩,  -- Hardware version
    ⟨0x100A, 1, 1, 0x00, 0x00, .str, .ro, 0, false, .any, 0⟩,  -- Software version
    ⟨0x1010, 1, 1, 0x01, 0x01, .u32, .rw, 1, false, .oneOf [0x65766173], 0⟩,  -- Store all
    ⟨0x1010, 1, 1, 0x02, 0x02, .u32, .rw, 1, false, .oneOf [0x65766173], 0⟩,  -- Store communication
    ⟨0x1010, 1, 1, 0x03, 0x03, .u32, .rw, 1, false, .oneOf [0x65766173], 0⟩,  -- Store application
    ⟨0x1011, 1, 1, 0x01, 0x03, .u32, .rw, 1, false, .oneOf [0x64616F6C], 0⟩,  -- Restore defaults
    ⟨0x1014, 1, 1, 0x00, 0x00, .u32, .ro, 0, false, .any, 0⟩,  -- COB-ID EMCY
    ⟨0x1015, 1, 1, 0x00, 0x00, .u16, .rw, 0xA, true, .any, 0⟩,  -- EMCY inhibit time
    ⟨0x1016, 1, 1, 0x01, 0x04, .u32, .rw, 0, true, .mask 0x007FFFFF, 0⟩,  -- Heartbeat consumer
    ⟨0x1017, 1, 1, 0x00, 0x00, .u16, .rw, 0x3E8, true, .heartbeat, 0⟩,  -- Heartbeat producer time
    ⟨0x1018, 1, 1, 0x01, 0x01, .u32, .const, 0xA53, false, .any, 0⟩,  -- Vendor-ID
    ⟨0x1018, 1, 1, 0x02, 0x02, .u32, .const, 0x48, false, .any, 0⟩,  -- Product code
    ⟨0x1018, 1, 1, 0x03, 0x03, .u32, .const, 0x10001, false, .any, 0⟩,  -- Revision number
    ⟨0x1018, 1, 1, 0x04, 0x04, .u32, .const, 1, false, .any, 0⟩ ]  -- Serial number

/-- Entries of 0x1E00–0x1EFF. OD 0x1E40.0D is RO as the table of R82 has it, although R81 calls every entry of OD 0x1E40
RW-HOST (log entry 116). -/
def entries1Ea : List Entry :=
  [ ⟨0x1E40, 1, 1, 0x01, 0x01, .boolean, .rwHost, 1, true, .any, 0⟩,  -- CAN write enable
    ⟨0x1E40, 1, 1, 0x02, 0x02, .boolean, .rwHost, 1, true, .any, 0⟩,  -- Uzon write enable
    ⟨0x1E40, 1, 1, 0x03, 0x03, .boolean, .rwHost, 0, true, .any, 0⟩,  -- Peer filter
    ⟨0x1E40, 1, 1, 0x04, 0x0B, .u16, .rwHost, 0xFFFF, true, .device, 0⟩,  -- Allowed peers
    ⟨0x1E40, 1, 1, 0x0C, 0x0C, .u8, .rwHost, 0, true, .oneOf [0, 1], 0⟩,  -- NMT reset scope
    ⟨0x1E40, 1, 1, 0x0D, 0x0D, .u32, .ro, 0, false, .any, 0⟩,  -- Refused by protection
    ⟨0x1E41, 1, 1, 0x01, 0x01, .u8, .ro, 0, false, .any, 0⟩,  -- Node-ID in use
    ⟨0x1E41, 1, 1, 0x02, 0x02, .u16, .const, 0x1F4, false, .any, 0⟩,  -- Nominal bit rate
    ⟨0x1E41, 1, 1, 0x03, 0x03, .u8, .rw, 5, true, .oneOf [2, 4, 5], 0⟩,  -- Data bit rate
    ⟨0x1E41, 1, 1, 0x04, 0x04, .u8, .ro, 0, false, .any, 0⟩,  -- Bus state
    ⟨0x1E41, 1, 1, 0x05, 0x05, .u8, .ro, 0x7F, false, .any, 0⟩,  -- NMT state
    ⟨0x1E41, 1, 1, 0x06, 0x06, .u32, .ro, 0, false, .any, 0⟩,  -- Bus-off count
    ⟨0x1E41, 1, 1, 0x07, 0x07, .u8, .ro, 0, false, .any, 0⟩,  -- Transmit error counter
    ⟨0x1E41, 1, 1, 0x08, 0x08, .u8, .ro, 0, false, .any, 0⟩,  -- Receive error counter
    ⟨0x1E41, 1, 1, 0x09, 0x09, .u8, .ro, 0, false, .any, 0⟩,  -- Heartbeat consumer status
    ⟨0x1E42, 1, 1, 0x01, 0x01, .u16, .rw, 0x3E8, true, .range 10 60000, 0⟩,  -- Session timeout
    ⟨0x1E42, 1, 1, 0x02, 0x02, .u8, .ro, 0, false, .any, 0⟩,  -- Open sessions
    ⟨0x1E42, 1, 1, 0x03, 0x03, .u64, .ro, 0, false, .any, 0⟩,  -- Accesses served
    ⟨0x1E42, 1, 1, 0x04, 0x04, .u32, .ro, 0, false, .any, 0⟩,  -- Aborts sent
    ⟨0x1E42, 1, 1, 0x05, 0x05, .u32, .ro, 0, false, .any, 0⟩,  -- Last abort code
    ⟨0x1E42, 1, 1, 0x06, 0x06, .u32, .ro, 0, false, .any, 0⟩,  -- Last abort entry
    ⟨0x1E42, 1, 1, 0x07, 0x07, .u8, .ro, 0xFF, false, .any, 0⟩,  -- Last abort path
    ⟨0x1E42, 1, 1, 0x08, 0x08, .boolean, .ro, 0, false, .any, 0⟩,  -- Store or restore in progress
    ⟨0x1E42, 1, 1, 0x09, 0x09, .u8, .ro, 0, false, .any, 0⟩ ]  -- Saved-set status

/-- Entries of 0x1E00–0x1EFF. -/
def entries1Eb : List Entry :=
  [ ⟨0x1E42, 1, 1, 0x0A, 0x0A, .u32, .ro, 0, false, .any, 0⟩ ]  -- EMCY events not sent

/-- Entries of 0x2000–0x20FF. -/
def entries20 : List Entry :=
  [ ⟨0x2000, 1, 1, 0x01, 0x01, .str, .const, 0, false, .any, 0⟩,  -- Vendor name
    ⟨0x2000, 1, 1, 0x02, 0x02, .str, .const, 0, false, .any, 0⟩,  -- Product name
    ⟨0x2000, 1, 1, 0x03, 0x03, .str, .const, 0, false, .any, 0⟩,  -- Part number
    ⟨0x2000, 1, 1, 0x04, 0x04, .u64, .const, 1, false, .any, 0⟩,  -- Module serial number
    ⟨0x2000, 1, 1, 0x05, 0x05, .u16, .const, 1, false, .any, 0⟩,  -- Die stepping
    ⟨0x2000, 1, 1, 0x06, 0x06, .u16, .const, 1, false, .any, 0⟩,  -- Module board issue
    ⟨0x2001, 1, 1, 0x01, 0x01, .u8, .const, 0x30, false, .any, 0⟩,  -- Factory width
    ⟨0x2001, 1, 1, 0x02, 0x02, .u8, .ro, 0x30, false, .any, 0⟩,  -- Current width W
    ⟨0x2001, 1, 1, 0x03, 0x03, .u8, .const, 1, false, .any, 0⟩,  -- Cooling suffix
    ⟨0x2001, 1, 1, 0x04, 0x04, .u16, .const, 0x3E8, false, .any, 0⟩,  -- Variant power limit
    ⟨0x2001, 1, 1, 0x05, 0x05, .u8, .ro, 0x30, false, .any, 0⟩,  -- Enabled column count
    ⟨0x2001, 1, 1, 0x06, 0x06, .u16, .ro, 0x900, false, .any, 0⟩,  -- Tile count
    ⟨0x2010, 1, 1, 0x00, 0x00, .u8, .const, 0x32, false, .any, 0⟩,  -- Number of entries
    ⟨0x2010, 1, 1, 0x01, 0x32, .u8, .ro, 0, false, .any, 0⟩,  -- Physical column status
    ⟨0x2011, 1, 1, 0x00, 0x00, .u8, .const, 0x30, false, .any, 0⟩,  -- Number of entries
    ⟨0x2011, 1, 1, 0x01, 0x30, .u8, .ro, 0, false, .any, 0⟩,  -- Column map
    ⟨0x2012, 1, 1, 0x01, 0x01, .u64, .ro, 0, false, .any, 0⟩,  -- Pending retirements
    ⟨0x2012, 1, 1, 0x02, 0x02, .u8, .rwHost, 0, false, .oneOf [1], 0⟩,  -- Apply retirements
    ⟨0x2012, 1, 1, 0x03, 0x03, .u8, .rwHost, 0xFF, false, .column, 0⟩,  -- Mark column pending
    ⟨0x2012, 1, 1, 0x04, 0x04, .u8, .ro, 0, false, .any, 0⟩,  -- Field retirement count
    ⟨0x2020, 1, 1, 0x01, 0x01, .u8, .rw, 0, true, .oneOf [0, 1], 0⟩ ]  -- Deck mode

/-- Entries of 0x2100–0x21FF. -/
def entries21 : List Entry :=
  [ ⟨0x2100, 16, 8, 0x01, 0x01, .u8, .wo, 0, false, .oneOf [1, 2, 3, 4, 5, 6], 0⟩,  -- Command
    ⟨0x2100, 16, 8, 0x02, 0x02, .u8, .ro, 0, false, .any, 0⟩,  -- State
    ⟨0x2100, 16, 8, 0x03, 0x03, .u16, .ro, 0, false, .any, 0⟩,  -- Last refusal
    ⟨0x2100, 16, 8, 0x04, 0x04, .u8, .rwStop, 0, false, .oneOf [0, 1, 2], 0⟩,  -- Shape
    ⟨0x2100, 16, 8, 0x05, 0x05, .u8, .rwStop, 0, false, .any, 0⟩,  -- First column
    ⟨0x2100, 16, 8, 0x06, 0x06, .u8, .rwStop, 0, false, .any, 0⟩,  -- Last column
    ⟨0x2100, 16, 8, 0x07, 0x07, .u64, .rwStop, 0, false, .any, 0⟩,  -- Channels S0, S1
    ⟨0x2100, 16, 8, 0x08, 0x08, .u64, .rwStop, 0, false, .any, 0⟩,  -- Channels S2, S3
    ⟨0x2100, 16, 8, 0x09, 0x09, .u32, .rwStop, 0, false, .mask 0x00FFFFFF, 0⟩,  -- Links
    ⟨0x2100, 16, 8, 0x0A, 0x0A, .u64, .rwStop, 0, false, .any, 0⟩,  -- Image reference
    ⟨0x2100, 16, 8, 0x0B, 0x0B, .u32, .rw, 0x100000, false, .any, 0⟩,  -- Stop timeout
    ⟨0x2100, 16, 8, 0x0C, 0x0C, .u16, .ro, 0, false, .any, 0⟩,  -- Fault cause
    ⟨0x2100, 16, 8, 0x0D, 0x0D, .u64, .ro, 0, false, .any, 0⟩ ]  -- Superstep count

/-- Entries of 0x2200–0x22FF. -/
def entries22 : List Entry :=
  [ ⟨0x2200, 1, 1, 0x01, 0x01, .u8, .const, 7, false, .any, 0⟩,  -- Banks per tile
    ⟨0x2200, 1, 1, 0x02, 0x02, .u8, .const, 0x80, false, .any, 0⟩,  -- Rows per bank
    ⟨0x2200, 1, 1, 0x03, 0x03, .u16, .const, 0x200, false, .any, 0⟩,  -- Row size
    ⟨0x2200, 1, 1, 0x04, 0x04, .u8, .const, 4, false, .any, 0⟩,  -- Spare rows per bank
    ⟨0x2200, 1, 1, 0x05, 0x05, .u16, .const, 0x4000, false, .any, 0⟩,  -- Core scratch size
    ⟨0x2200, 1, 1, 0x06, 0x06, .u16, .const, 0x2000, false, .any, 0⟩,  -- Stat memory size
    ⟨0x2200, 1, 1, 0x07, 0x07, .u32, .ro, 0, false, .any, 0⟩,  -- Spare rows in use
    ⟨0x2200, 1, 1, 0x08, 0x08, .u16, .ro, 0, false, .any, 0⟩,  -- Banks without a free spare
    ⟨0x2201, 1, 1, 0x00, 0x00, .domain, .ro, 0, false, .any, 0⟩,  -- Tile health
    ⟨0x2202, 1, 1, 0x01, 0x01, .u16, .rw, 0, false, .tile, 0⟩,  -- Selected tile
    ⟨0x2202, 1, 1, 0x02, 0x02, .octet, .ro, 0, false, .any, 512⟩,  -- Selected status words
    ⟨0x2202, 1, 1, 0x03, 0x03, .octet, .ro, 0, false, .any, 32⟩ ]  -- Selected spare map

/-- Entries of 0x2300–0x23FF. -/
def entries23 : List Entry :=
  [ ⟨0x2300, 1, 1, 0x01, 0x01, .u8, .const, 0xC, false, .any, 0⟩,  -- Sync latency, deck-local frame
    ⟨0x2300, 1, 1, 0x02, 0x02, .u8, .const, 0x10, false, .any, 0⟩,  -- Sync latency, frame spanning the beam
    ⟨0x2300, 1, 1, 0x03, 0x03, .u8, .const, 2, false, .any, 0⟩,  -- Beam crossing
    ⟨0x2300, 1, 1, 0x04, 0x04, .u16, .const, 0x200, false, .any, 0⟩,  -- Port width
    ⟨0x2300, 1, 1, 0x05, 0x05, .u8, .const, 0x10, false, .any, 0⟩,  -- Laid table entry size
    ⟨0x2300, 1, 1, 0x06, 0x06, .u16, .const, 0x2000, false, .any, 0⟩,  -- Laid table maximum
    ⟨0x2300, 1, 1, 0x07, 0x07, .u8, .const, 0x40, false, .any, 0⟩,  -- Edge queue depth
    ⟨0x2301, 1, 1, 0x01, 0x01, .u16, .const, 0x280, false, .any, 0⟩,  -- Staged read, first word
    ⟨0x2301, 1, 1, 0x02, 0x02, .u16, .const, 2, false, .any, 0⟩,  -- Staged read, word spacing
    ⟨0x2301, 1, 1, 0x03, 0x03, .u16, .const, 0x208, false, .any, 0⟩,  -- Staged write completion
    ⟨0x2301, 1, 1, 0x04, 0x04, .u16, .const, 2, false, .any, 0⟩,  -- Outbound drain interval
    ⟨0x2301, 1, 1, 0x05, 0x05, .u16, .const, 2, false, .any, 0⟩,  -- Staged handover
    ⟨0x2302, 1, 1, 0x01, 0x08, .u32, .rw, 0x40000000, true, .any, 0⟩,  -- Sync watchdog, frames 0–7
    ⟨0x2303, 1, 1, 0x01, 0x08, .u32, .rw, 0x186A0, true, .range 100 10000000, 0⟩,  -- External timeout, frames 0–7
    ⟨0x2304, 1, 1, 0x01, 0x08, .u32, .ro, 0, false, .any, 0⟩,  -- External phase number, frames 0–7
    ⟨0x2305, 1, 1, 0x01, 0x01, .u32, .ro, 0, false, .any, 0⟩,  -- Tokens discarded
    ⟨0x2305, 1, 1, 0x02, 0x02, .u32, .ro, 0, false, .any, 0⟩,  -- Tokens held early
    ⟨0x2305, 1, 1, 0x03, 0x03, .u32, .ro, 0xFFFFFFFF, false, .any, 0⟩,  -- Last edge fault
    ⟨0x2305, 1, 1, 0x04, 0x04, .u32, .ro, 0, false, .any, 0⟩,  -- Edge faults
    ⟨0x2306, 1, 1, 0x00, 0x00, .domain, .ro, 0, false, .any, 0⟩,  -- Exchange status
    ⟨0x2310, 1, 8, 0x01, 0x01, .u8, .rw, 0, false, .mask 0x0F, 0⟩,  -- Job, frames 0–7
    ⟨0x2310, 1, 8, 0x02, 0x02, .u8, .rw, 0, false, .range 0 32, 0⟩,  -- Peer count, frames 0–7
    ⟨0x2310, 1, 8, 0x03, 0x22, .u16, .rw, 0xFFFF, false, .peer, 0⟩ ]  -- Peers, frames 0–7

/-- Entries of 0x2400–0x24FF. -/
def entries24 : List Entry :=
  [ ⟨0x2400, 1, 1, 0x01, 0x01, .u16, .const, 1, false, .any, 0⟩,  -- Reckoning Order revision
    ⟨0x2400, 1, 1, 0x02, 0x02, .u8, .const, 0x20, false, .any, 0⟩,  -- Block length
    ⟨0x2400, 1, 1, 0x03, 0x03, .u8, .const, 0x40, false, .any, 0⟩,  -- Reduction lanes
    ⟨0x2400, 1, 1, 0x04, 0x04, .u8, .const, 0xA, false, .any, 0⟩,  -- Philox rounds
    ⟨0x2400, 1, 1, 0x05, 0x05, .boolean, .ro, 0, false, .any, 0⟩,  -- RNG known-answer test
    ⟨0x2400, 1, 1, 0x06, 0x06, .u16, .const, 0xFFF, false, .any, 0⟩,  -- Formats supported
    ⟨0x2401, 1, 1, 0x01, 0x08, .u64, .rw, 0, false, .any, 0⟩,  -- Job seed, frames 0–7
    ⟨0x2402, 1, 1, 0x01, 0x08, .u64, .rw, 0, false, .any, 0⟩,  -- Initial step, frames 0–7
    ⟨0x2403, 1, 1, 0x01, 0x08, .u64, .ro, 0, false, .any, 0⟩,  -- Current step, frames 0–7
    ⟨0x2404, 1, 1, 0x00, 0x00, .domain, .ro, 0, false, .any, 0⟩ ]  -- Non-finite outputs

/-- Entries of 0x2500–0x25FF. -/
def entries25 : List Entry :=
  [ ⟨0x2500, 1, 1, 0x01, 0x01, .u16, .const, 0x500, false, .any, 0⟩,  -- Forward cells
    ⟨0x2500, 1, 1, 0x02, 0x02, .u16, .const, 0x100, false, .any, 0⟩,  -- Accumulator tokens
    ⟨0x2500, 1, 1, 0x03, 0x03, .u8, .const, 4, false, .any, 0⟩,  -- Weight load
    ⟨0x2500, 1, 1, 0x04, 0x04, .u8, .const, 8, false, .any, 0⟩,  -- Operation start
    ⟨0x2500, 1, 1, 0x05, 0x05, .u8, .const, 6, false, .any, 0⟩,  -- Operation drain
    ⟨0x2500, 1, 1, 0x06, 0x06, .u8, .const, 0x40, false, .any, 0⟩,  -- Row lanes
    ⟨0x2500, 1, 1, 0x07, 0x07, .u16, .const, 0x400, false, .any, 0⟩,  -- Stat records
    ⟨0x2500, 1, 1, 0x08, 0x08, .u8, .const, 0x40, false, .any, 0⟩,  -- DMA rate
    ⟨0x2500, 1, 1, 0x09, 0x09, .u8, .const, 0x20, false, .any, 0⟩,  -- DMA transpose rate
    ⟨0x2501, 1, 1, 0x01, 0x04, .u64, .ro, 0, false, .any, 0⟩,  -- Operations completed
    ⟨0x2501, 1, 1, 0x05, 0x05, .u64, .ro, 0, false, .any, 0⟩,  -- Backward operations with DWEN = 0
    ⟨0x2501, 1, 1, 0x06, 0x06, .u32, .ro, 0, false, .any, 0⟩,  -- Descriptor refusals
    ⟨0x2501, 1, 1, 0x07, 0x07, .u32, .ro, 0xFFFFFFFF, false, .any, 0⟩,  -- Last refusal
    ⟨0x2502, 1, 1, 0x00, 0x00, .domain, .ro, 0, false, .any, 0⟩,  -- Function constants
    ⟨0x2503, 1, 1, 0x00, 0x00, .domain, .ro, 0, false, .any, 0⟩ ]  -- Engine status

/-- Entries of 0x2600–0x26FF. -/
def entries26 : List Entry :=
  [ ⟨0x2600, 1, 1, 0x01, 0x01, .u16, .const, 0x1000, false, .any, 0⟩,  -- Tracked tensors
    ⟨0x2600, 1, 1, 0x02, 0x02, .u8, .const, 0x10, false, .any, 0⟩,  -- Watch lines per tile
    ⟨0x2600, 1, 1, 0x03, 0x03, .u8, .const, 0x20, false, .any, 0⟩,  -- History maximum
    ⟨0x2600, 1, 1, 0x04, 0x04, .u8, .const, 0x10, false, .any, 0⟩,  -- Default history length
    ⟨0x2600, 1, 1, 0x05, 0x05, .u8, .const, 0xC, false, .any, 0⟩,  -- Default shadow period
    ⟨0x2600, 1, 1, 0x06, 0x06, .u16, .const, 0x40, false, .any, 0⟩,  -- Default zero-run threshold
    ⟨0x2600, 1, 1, 0x07, 0x07, .u8, .const, 2, false, .any, 0⟩,  -- Default lag
    ⟨0x2601, 1, 1, 0x01, 0x01, .u64, .rw, 0x17FFE00000, true, .watchBase, 0⟩,  -- Watch region base
    ⟨0x2601, 1, 1, 0x02, 0x02, .u16, .ro, 0, false, .any, 0⟩,  -- Collector backlog
    ⟨0x2602, 1, 1, 0x01, 0x08, .u64, .ro, 0, false, .any, 0⟩,  -- Last scan, frames 0–7
    ⟨0x2603, 1, 1, 0x01, 0x08, .u32, .ro, 0, false, .any, 0⟩,  -- Non-finite scans, frames 0–7
    ⟨0x2604, 1, 1, 0x01, 0x01, .u32, .ro, 0, false, .any, 0⟩,  -- Alarms raised
    ⟨0x2604, 1, 1, 0x02, 0x02, .u64, .ro, 0, false, .any, 0⟩,  -- Last alarm
    ⟨0x2604, 1, 1, 0x03, 0x03, .u32, .ro, 0, false, .any, 0⟩,  -- Counts dropped
    ⟨0x2604, 1, 1, 0x04, 0x04, .u32, .ro, 0, false, .any, 0⟩,  -- Late counts
    ⟨0x2604, 1, 1, 0x05, 0x05, .u32, .ro, 0, false, .any, 0⟩,  -- Shadow samples
    ⟨0x2604, 1, 1, 0x06, 0x06, .u32, .ro, 0, false, .any, 0⟩,  -- Shadow skipped
    ⟨0x2610, 1, 1, 0x00, 0x00, .domain, .rw, 0, false, .watchTable, 65536⟩,  -- Configuration table
    ⟨0x2611, 1, 1, 0x00, 0x00, .domain, .ro, 0, false, .any, 0⟩,  -- Tensor state
    ⟨0x2612, 1, 1, 0x00, 0x00, .domain, .ro, 0, false, .any, 0⟩,  -- Histories
    ⟨0x2613, 1, 1, 0x00, 0x00, .domain, .ro, 0, false, .any, 0⟩ ]  -- Shadow histograms

/-- Entries of 0x2700–0x27FF. -/
def entries27 : List Entry :=
  [ ⟨0x2700, 1, 1, 0x01, 0x01, .u8, .const, 0x20, false, .any, 0⟩,  -- Queue depth
    ⟨0x2700, 1, 1, 0x02, 0x02, .u8, .const, 4, false, .any, 0⟩,  -- Tuple maximum
    ⟨0x2700, 1, 1, 0x03, 0x03, .u8, .const, 4, false, .any, 0⟩,  -- Input buffer
    ⟨0x2700, 1, 1, 0x04, 0x04, .u8, .const, 8, false, .any, 0⟩,  -- Injection buffer
    ⟨0x2700, 1, 1, 0x05, 0x05, .u8, .const, 2, false, .any, 0⟩,  -- Hop
    ⟨0x2700, 1, 1, 0x06, 0x06, .u8, .const, 8, false, .any, 0⟩,  -- Remote operations
    ⟨0x2700, 1, 1, 0x07, 0x07, .u16, .const, 0x100, false, .any, 0⟩,  -- Supervisor queue depth
    ⟨0x2700, 1, 1, 0x08, 0x08, .u8, .const, 0x10, false, .any, 0⟩,  -- Mailbox depth
    ⟨0x2701, 1, 1, 0x01, 0x08, .u32, .rw, 0x10000, true, .any, 0⟩,  -- Send-stall timeout, frames 0–7
    ⟨0x2702, 1, 1, 0x01, 0x08, .u32, .rw, 0x1000000, true, .any, 0⟩,  -- Receive-wait timeout, frames 0–7
    ⟨0x2703, 1, 1, 0x01, 0x01, .u32, .ro, 0, false, .any, 0⟩,  -- Refused arrivals
    ⟨0x2703, 1, 1, 0x02, 0x02, .u32, .ro, 0, false, .any, 0⟩,  -- Refused at source
    ⟨0x2703, 1, 1, 0x03, 0x03, .u32, .ro, 0, false, .any, 0⟩,  -- Poisoned flits
    ⟨0x2703, 1, 1, 0x04, 0x04, .u64, .ro, 0, false, .any, 0⟩,  -- Last stall fault
    ⟨0x2704, 1, 1, 0x00, 0x00, .domain, .ro, 0, false, .any, 0⟩,  -- Queue status
    ⟨0x2705, 1, 1, 0x00, 0x00, .domain, .ro, 0, false, .any, 0⟩,  -- Stall report
    ⟨0x2706, 1, 1, 0x01, 0x08, .u16, .ro, 0, false, .any, 0⟩,  -- Supervisor queue, frames 0–7
    ⟨0x2710, 1, 1, 0x01, 0x01, .u16, .rw, 0xA, true, .range 1 1000, 0⟩,  -- Mailbox timeout
    ⟨0x2711, 1, 1, 0x01, 0x08, .u32, .ro, 0, false, .any, 0⟩,  -- Mailbox status, pairs 0–7
    ⟨0x2712, 1, 1, 0x01, 0x01, .u32, .ro, 0, false, .any, 0⟩,  -- Mailbox overflows
    ⟨0x2712, 1, 1, 0x02, 0x02, .u32, .ro, 0, false, .any, 0⟩ ]  -- Mailbox timeouts

/-- Entries of 0x2800–0x28FF. -/
def entries28a : List Entry :=
  [ ⟨0x2800, 1, 1, 0x01, 0x01, .u8, .const, 4, false, .any, 0⟩,  -- Stacks
    ⟨0x2800, 1, 1, 0x02, 0x02, .u8, .const, 0x20, false, .any, 0⟩,  -- Channels per stack
    ⟨0x2800, 1, 1, 0x03, 0x03, .u8, .const, 2, false, .any, 0⟩,  -- Pseudo-channels per channel
    ⟨0x2800, 1, 1, 0x04, 0x04, .u16, .const, 0x1F40, false, .any, 0⟩,  -- Data rate
    ⟨0x2800, 1, 1, 0x05, 0x05, .u8, .const, 0x40, false, .any, 0⟩,  -- Transactions per channel
    ⟨0x2800, 1, 1, 0x06, 0x06, .u16, .const, 0x2000, false, .any, 0⟩,  -- Transactions per device
    ⟨0x2800, 1, 1, 0x07, 0x07, .u8, .const, 2, false, .any, 0⟩,  -- Corrector latency
    ⟨0x2800, 1, 1, 0x08, 0x08, .u8, .const, 6, false, .any, 0⟩,  -- Stack decoder latency
    ⟨0x2801, 1, 1, 0x01, 0x04, .u64, .ro, 0x1800000000, false, .any, 0⟩,  -- Capacity, S0–S3
    ⟨0x2801, 1, 1, 0x05, 0x05, .u64, .ro, 0x6000000000, false, .any, 0⟩,  -- Device stack capacity
    ⟨0x2801, 1, 1, 0x06, 0x06, .u16, .ro, 0, false, .any, 0⟩,  -- Retired pseudo-channels
    ⟨0x2802, 1, 1, 0x00, 0x00, .domain, .ro, 0, false, .any, 0⟩,  -- Pseudo-channel status
    ⟨0x2803, 1, 1, 0x01, 0x01, .u16, .rwHost, 0xFFFF, false, .retirePc, 0⟩,  -- Retire pseudo-channel
    ⟨0x2803, 1, 1, 0x02, 0x02, .boolean, .ro, 0, false, .any, 0⟩,  -- Retirement in progress
    ⟨0x2804, 1, 1, 0x01, 0x04, .u64, .ro, 0, false, .any, 0⟩,  -- Stack CE, S0–S3
    ⟨0x2804, 1, 1, 0x05, 0x08, .u64, .ro, 0, false, .any, 0⟩,  -- Stack UE, S0–S3
    ⟨0x2804, 1, 1, 0x09, 0x0C, .u64, .ro, 0, false, .any, 0⟩,  -- Stack poisoned reads, S0–S3
    ⟨0x2805, 1, 1, 0x01, 0x01, .u64, .ro, 0xFFFFFFFFFFFFFFFF, false, .any, 0⟩,  -- Last stack error
    ⟨0x2806, 1, 1, 0x01, 0x01, .u64, .ro, 0, false, .any, 0⟩,  -- Tile CE total
    ⟨0x2806, 1, 1, 0x02, 0x02, .u64, .ro, 0, false, .any, 0⟩,  -- Tile UE total
    ⟨0x2806, 1, 1, 0x03, 0x03, .u64, .ro, 0, false, .any, 0⟩,  -- Tile poisoned reads
    ⟨0x2807, 1, 1, 0x00, 0x00, .domain, .ro, 0, false, .any, 0⟩,  -- Code matrices
    ⟨0x2810, 1, 1, 0x00, 0x00, .domain, .rw, 0, true, .regionTable, 384⟩,  -- Region modes
    ⟨0x2811, 1, 1, 0x01, 0x01, .u8, .rw, 1, true, .range 1 4, 0⟩ ]  -- Tally write share

/-- Entries of 0x2800–0x28FF. -/
def entries28b : List Entry :=
  [ ⟨0x2812, 1, 1, 0x01, 0x04, .i16, .ro, 0, false, .any, 0⟩,  -- Stack temperature, S0–S3
    ⟨0x2812, 1, 1, 0x05, 0x08, .u8, .ro, 0, false, .any, 0⟩,  -- Refresh rate, S0–S3
    ⟨0x2820, 1, 5, 0x01, 0x01, .u8, .wo, 0, false, .oneOf [1, 2], 0⟩,  -- Command
    ⟨0x2820, 1, 5, 0x02, 0x02, .u8, .rw, 0, false, .range 0 2, 0⟩,  -- Mode
    ⟨0x2820, 1, 5, 0x03, 0x03, .u64, .rw, 0, false, .any, 0⟩,  -- Start address
    ⟨0x2820, 1, 5, 0x04, 0x04, .u64, .rw, 0, false, .any, 0⟩,  -- End address
    ⟨0x2820, 1, 5, 0x05, 0x05, .u8, .ro, 0, false, .any, 0⟩,  -- State
    ⟨0x2820, 1, 5, 0x06, 0x06, .u64, .ro, 0, false, .any, 0⟩,  -- Progress
    ⟨0x2820, 1, 5, 0x07, 0x07, .u32, .ro, 0, false, .any, 0⟩,  -- CE count
    ⟨0x2820, 1, 5, 0x08, 0x08, .u32, .ro, 0, false, .any, 0⟩,  -- UE count
    ⟨0x2820, 1, 5, 0x09, 0x09, .u64, .ro, 0xFFFFFFFFFFFFFFFF, false, .any, 0⟩,  -- First failing address
    ⟨0x2820, 1, 5, 0x0A, 0x0A, .u64, .ro, 0xFFFFFFFFFFFFFFFF, false, .any, 0⟩,  -- Last failing address
    ⟨0x2820, 1, 5, 0x0B, 0x0B, .u32, .ro, 0, false, .any, 0⟩,  -- Repeat count
    ⟨0x2820, 1, 5, 0x0C, 0x0C, .octet, .ro, 0, false, .any, 128⟩,  -- Repeats
    ⟨0x2820, 1, 5, 0x0D, 0x0D, .u64, .ro, 0, false, .any, 0⟩,  -- Bytes skipped
    ⟨0x2820, 1, 5, 0x0E, 0x0E, .boolean, .rw, 0, false, .permit, 0⟩ ]  -- In-service permit

/-- Entries of 0x2900–0x29FF. -/
def entries29a : List Entry :=
  [ ⟨0x2900, 1, 1, 0x01, 0x01, .u8, .const, 0x80, false, .any, 0⟩,  -- Contexts per channel
    ⟨0x2900, 1, 1, 0x02, 0x02, .u16, .const, 0x4000, false, .any, 0⟩,  -- Contexts per device
    ⟨0x2900, 1, 1, 0x03, 0x03, .u32, .const, 0x10000, false, .any, 0⟩,  -- Tally buffer per channel
    ⟨0x2900, 1, 1, 0x04, 0x04, .u16, .const, 0x8000, false, .any, 0⟩,  -- Contributors per group
    ⟨0x2900, 1, 1, 0x05, 0x05, .u8, .const, 0xF, false, .any, 0⟩,  -- Headroom
    ⟨0x2900, 1, 1, 0x06, 0x06, .u8, .const, 0x30, false, .any, 0⟩,  -- Quantisation shift
    ⟨0x2900, 1, 1, 0x07, 0x07, .u8, .const, 8, false, .any, 0⟩,  -- History length
    ⟨0x2900, 1, 1, 0x08, 0x08, .u32, .const, 0x100000, false, .any, 0⟩,  -- Bucket elements
    ⟨0x2901, 1, 1, 0x01, 0x01, .u16, .ro, 0, false, .any, 0⟩,  -- Contexts in use
    ⟨0x2901, 1, 1, 0x02, 0x02, .u64, .ro, 0, false, .any, 0⟩,  -- Segments accepted
    ⟨0x2901, 1, 1, 0x03, 0x03, .u64, .ro, 0, false, .any, 0⟩,  -- Segments refused
    ⟨0x2901, 1, 1, 0x04, 0x04, .u64, .ro, 0, false, .any, 0⟩,  -- Last refusal
    ⟨0x2901, 1, 1, 0x05, 0x05, .u64, .ro, 0, false, .any, 0⟩,  -- Closes with SUM
    ⟨0x2901, 1, 1, 0x06, 0x06, .u32, .ro, 0, false, .any, 0⟩,  -- Bound failures
    ⟨0x2901, 1, 1, 0x07, 0x07, .u32, .ro, 0, false, .any, 0⟩,  -- MAX phases
    ⟨0x2901, 1, 1, 0x08, 0x08, .u32, .ro, 0, false, .any, 0⟩,  -- Discards
    ⟨0x2901, 1, 1, 0x09, 0x09, .u32, .ro, 0, false, .any, 0⟩,  -- Lease expiries
    ⟨0x2901, 1, 1, 0x0A, 0x0A, .u32, .ro, 0, false, .any, 0⟩,  -- Retractions completed
    ⟨0x2901, 1, 1, 0x0B, 0x0B, .u64, .ro, 0, false, .any, 0⟩,  -- Buffer fills
    ⟨0x2901, 1, 1, 0x0C, 0x0C, .u64, .ro, 0, false, .any, 0⟩,  -- Buffer write-backs
    ⟨0x2901, 1, 1, 0x0D, 0x0D, .u32, .ro, 0, false, .any, 0⟩,  -- Late faults
    ⟨0x2901, 1, 1, 0x0E, 0x0E, .u64, .ro, 0, false, .any, 0⟩,  -- Segments sent
    ⟨0x2901, 1, 1, 0x0F, 0x0F, .u64, .ro, 0, false, .any, 0⟩,  -- Refusals received
    ⟨0x2901, 1, 1, 0x10, 0x10, .u32, .ro, 0, false, .any, 0⟩ ]  -- Late answers refused

/-- Entries of 0x2900–0x29FF. -/
def entries29b : List Entry :=
  [ ⟨0x2901, 1, 1, 0x11, 0x11, .u32, .ro, 0, false, .any, 0⟩,  -- Decisions refused
    ⟨0x2902, 1, 1, 0x00, 0x00, .domain, .ro, 0, false, .any, 0⟩,  -- Contexts
    ⟨0x2910, 1, 16, 0x00, 0x00, .u8, .const, 0x1B, false, .any, 0⟩,  -- Number of entries, jobs 0–15
    ⟨0x2910, 1, 16, 0x01, 0x01, .u8, .rw, 0, false, .any, 0⟩,  -- Send epoch
    ⟨0x2910, 1, 16, 0x02, 0x02, .u8, .rw, 0, false, .any, 0⟩,  -- Fence epoch
    ⟨0x2910, 1, 16, 0x03, 0x03, .u8, .rw, 0, false, .even, 0⟩,  -- Slot 0 epoch
    ⟨0x2910, 1, 16, 0x04, 0x04, .u64, .rw, 0, false, .stackBase, 0⟩,  -- Slot 0 bucket table base
    ⟨0x2910, 1, 16, 0x05, 0x05, .u32, .rw, 0, false, .range 0 65536, 0⟩,  -- Slot 0 bucket count
    ⟨0x2910, 1, 16, 0x06, 0x06, .u64, .rw, 0, false, .stackBase, 0⟩,  -- Slot 0 group table base
    ⟨0x2910, 1, 16, 0x07, 0x07, .u64, .rw, 0, false, .stackBase, 0⟩,  -- Slot 0 send-list base
    ⟨0x2910, 1, 16, 0x08, 0x08, .u32, .rw, 0, false, .any, 0⟩,  -- Slot 0 send-list length
    ⟨0x2910, 1, 16, 0x09, 0x09, .u64, .rw, 0, false, .stackBase, 0⟩,  -- Slot 0 exponent table base
    ⟨0x2910, 1, 16, 0x0A, 0x0A, .u8, .rw, 0, false, .odd, 0⟩,  -- Slot 1 epoch
    ⟨0x2910, 1, 16, 0x0B, 0x0B, .u64, .rw, 0, false, .stackBase, 0⟩,  -- Slot 1 bucket table base
    ⟨0x2910, 1, 16, 0x0C, 0x0C, .u32, .rw, 0, false, .range 0 65536, 0⟩,  -- Slot 1 bucket count
    ⟨0x2910, 1, 16, 0x0D, 0x0D, .u64, .rw, 0, false, .stackBase, 0⟩,  -- Slot 1 group table base
    ⟨0x2910, 1, 16, 0x0E, 0x0E, .u64, .rw, 0, false, .stackBase, 0⟩,  -- Slot 1 send-list base
    ⟨0x2910, 1, 16, 0x0F, 0x0F, .u32, .rw, 0, false, .any, 0⟩,  -- Slot 1 send-list length
    ⟨0x2910, 1, 16, 0x10, 0x10, .u64, .rw, 0, false, .stackBase, 0⟩,  -- Slot 1 exponent table base
    ⟨0x2910, 1, 16, 0x11, 0x11, .u64, .rw, 0, false, .stackBase, 0⟩,  -- Roll list base
    ⟨0x2910, 1, 16, 0x12, 0x12, .u16, .rw, 0, false, .range 0 4096, 0⟩,  -- Roll list count
    ⟨0x2910, 1, 16, 0x13, 0x13, .u16, .rw, 0xFFFF, false, .device, 0⟩,  -- Keeper
    ⟨0x2910, 1, 16, 0x14, 0x14, .u16, .rw, 0xFFFF, false, .device, 0⟩,  -- Standby
    ⟨0x2910, 1, 16, 0x15, 0x15, .u32, .rw, 0x4E20, true, .range 100 10000000, 0⟩ ]  -- Roll deadline

/-- Entries of 0x2900–0x29FF. -/
def entries29c : List Entry :=
  [ ⟨0x2910, 1, 16, 0x16, 0x16, .u32, .rw, 0x2710, true, .range 2000 1000000, 0⟩,  -- Takeover delay
    ⟨0x2910, 1, 16, 0x17, 0x17, .u32, .rw, 0x30D40, true, .range 1000 60000000, 0⟩,  -- Context lease
    ⟨0x2910, 1, 16, 0x18, 0x18, .u16, .rw, 0x14, true, .range 1 10000, 0⟩,  -- Retry interval
    ⟨0x2910, 1, 16, 0x19, 0x19, .u8, .rwHost, 0, false, .oneOf [1], 0⟩,  -- Withdraw
    ⟨0x2910, 1, 16, 0x1A, 0x1A, .u64, .ro, 0, false, .any, 0⟩,  -- Step state
    ⟨0x2910, 1, 16, 0x1B, 0x1B, .u16, .ro, 0xFFFF, false, .any, 0⟩ ]  -- Keeper held

/-- Entries of 0x2A00–0x2AFF. -/
def entries2Aa : List Entry :=
  [ ⟨0x2A00, 1, 1, 0x01, 0x01, .u8, .const, 4, false, .any, 0⟩,  -- Update engines
    ⟨0x2A00, 1, 1, 0x02, 0x02, .u8, .const, 0x40, false, .any, 0⟩,  -- Lanes
    ⟨0x2A00, 1, 1, 0x03, 0x03, .u16, .const, 0x400, false, .any, 0⟩,  -- Page elements
    ⟨0x2A00, 1, 1, 0x04, 0x04, .u16, .const, 0x840, false, .any, 0⟩,  -- Page bytes
    ⟨0x2A00, 1, 1, 0x05, 0x05, .u8, .const, 8, false, .any, 0⟩,  -- Microcode slots
    ⟨0x2A00, 1, 1, 0x06, 0x06, .u16, .const, 0x100, false, .any, 0⟩,  -- Groups per job
    ⟨0x2A01, 1, 1, 0x01, 0x01, .u64, .ro, 0, false, .any, 0⟩,  -- Elements updated
    ⟨0x2A01, 1, 1, 0x02, 0x02, .u64, .ro, 0, false, .any, 0⟩,  -- Buckets updated
    ⟨0x2A01, 1, 1, 0x03, 0x03, .u64, .ro, 0, false, .any, 0⟩,  -- Buckets returned
    ⟨0x2A01, 1, 1, 0x04, 0x04, .u32, .ro, 0, false, .any, 0⟩,  -- Blocks kept
    ⟨0x2A01, 1, 1, 0x05, 0x05, .u32, .ro, 0, false, .any, 0⟩,  -- Frozen closes
    ⟨0x2A01, 1, 1, 0x06, 0x06, .u32, .ro, 0, false, .any, 0⟩,  -- Broken records
    ⟨0x2A01, 1, 1, 0x07, 0x07, .u32, .ro, 0, false, .any, 0⟩,  -- Poisoned blocks
    ⟨0x2A01, 1, 1, 0x08, 0x08, .u32, .ro, 0, false, .any, 0⟩,  -- Returns held
    ⟨0x2A01, 1, 1, 0x09, 0x09, .u32, .ro, 0, false, .any, 0⟩,  -- Landings dropped
    ⟨0x2A01, 1, 1, 0x0A, 0x0A, .u64, .ro, 0xFFFFFFFFFFFFFFFF, false, .any, 0⟩,  -- Last dropped landing
    ⟨0x2A02, 1, 1, 0x00, 0x00, .domain, .rw, 0, true, .microcode, 1024⟩,  -- Microcode
    ⟨0x2A03, 1, 1, 0x01, 0x04, .u64, .ro, 0, false, .any, 0⟩,  -- Engine state, 0–3
    ⟨0x2A10, 1, 16, 0x01, 0x01, .u64, .rw, 0, false, .stackBase, 0⟩,  -- Group table base
    ⟨0x2A10, 1, 16, 0x02, 0x02, .u16, .rw, 0, false, .range 0 256, 0⟩,  -- Group count
    ⟨0x2A10, 1, 16, 0x03, 0x03, .u64, .rw, 0, false, .stackBase, 0⟩,  -- Slot 0 update table base
    ⟨0x2A10, 1, 16, 0x04, 0x04, .u64, .rw, 0, false, .stackBase, 0⟩,  -- Slot 1 update table base
    ⟨0x2A10, 1, 16, 0x05, 0x05, .u64, .rw, 0, false, .stackBase, 0⟩,  -- Slot 0 landing table base
    ⟨0x2A10, 1, 16, 0x06, 0x06, .u64, .rw, 0, false, .stackBase, 0⟩ ]  -- Slot 1 landing table base

/-- Entries of 0x2A00–0x2AFF. -/
def entries2Ab : List Entry :=
  [ ⟨0x2A10, 1, 16, 0x07, 0x07, .u64, .rw, 0, false, .any, 0⟩,  -- Update seed
    ⟨0x2A10, 1, 16, 0x08, 0x08, .u16, .rwHost, 0, false, .any, 0⟩,  -- Regenerate bucket
    ⟨0x2A10, 1, 16, 0x09, 0x09, .u32, .ro, 0, false, .any, 0⟩,  -- Buckets awaiting return
    ⟨0x2A10, 1, 16, 0x0A, 0x0A, .u64, .ro, 0, false, .any, 0⟩ ]  -- Updates outstanding

/-- Entries of 0x2B00–0x2BFF. -/
def entries2Ba : List Entry :=
  [ ⟨0x2B00, 1, 1, 0x01, 0x01, .u8, .const, 0x18, false, .any, 0⟩,  -- Links
    ⟨0x2B00, 1, 1, 0x02, 0x02, .u8, .const, 4, false, .any, 0⟩,  -- Lanes per link
    ⟨0x2B00, 1, 1, 0x03, 0x03, .u32, .const, 0x19F0A, false, .any, 0⟩,  -- Lane rate
    ⟨0x2B00, 1, 1, 0x04, 0x04, .u8, .const, 0x80, false, .any, 0⟩,  -- Flit size
    ⟨0x2B00, 1, 1, 0x05, 0x05, .u8, .const, 0x40, false, .any, 0⟩,  -- Retry buffer
    ⟨0x2B00, 1, 1, 0x06, 0x06, .u16, .const, 0x100, false, .any, 0⟩,  -- Tags per link
    ⟨0x2B00, 1, 1, 0x07, 0x07, .u16, .const, 0x1800, false, .any, 0⟩,  -- Tags per device
    ⟨0x2B00, 1, 1, 0x08, 0x08, .u8, .const, 0x26, false, .any, 0⟩,  -- Relay latency
    ⟨0x2B01, 1, 1, 0x00, 0x00, .domain, .rw, 0, true, .routeTable, 4096⟩,  -- Route table
    ⟨0x2B02, 1, 1, 0x01, 0x01, .u16, .rwHost, 0, true, .mask 0x0FFF, 0⟩,  -- Device number
    ⟨0x2B02, 1, 1, 0x02, 0x02, .u8, .rw, 0x10, true, .range 1 63, 0⟩,  -- Hop limit
    ⟨0x2B02, 1, 1, 0x03, 0x03, .u16, .rw, 8, true, .any, 0⟩,  -- Burst threshold
    ⟨0x2B02, 1, 1, 0x04, 0x04, .u32, .rw, 0x3E8, true, .range 10 1000000, 0⟩,  -- Burst window
    ⟨0x2B02, 1, 1, 0x05, 0x05, .u16, .rw, 0x40, true, .any, 0⟩,  -- PRBS error limit
    ⟨0x2B02, 1, 1, 0x06, 0x06, .u8, .rw, 0x1A, true, .any, 0⟩,  -- Horizontal margin
    ⟨0x2B02, 1, 1, 0x07, 0x07, .u8, .rw, 8, true, .any, 0⟩,  -- Vertical margin
    ⟨0x2B02, 1, 1, 0x08, 0x08, .boolean, .rw, 1, true, .any, 0⟩,  -- Auto-retrain
    ⟨0x2B02, 1, 1, 0x09, 0x09, .u32, .rw, 0x10304, true, .weights, 0⟩,  -- Egress weights
    ⟨0x2B02, 1, 1, 0x0A, 0x0A, .u32, .rw, 0x10000, true, .any, 0⟩,  -- Lane symbol threshold
    ⟨0x2B03, 1, 1, 0x01, 0x01, .u64, .ro, 0, false, .any, 0⟩,  -- Relayed
    ⟨0x2B03, 1, 1, 0x02, 0x02, .u64, .ro, 0, false, .any, 0⟩,  -- Relayed across the die
    ⟨0x2B03, 1, 1, 0x03, 0x03, .u32, .ro, 0, false, .any, 0⟩,  -- Unroutable
    ⟨0x2B03, 1, 1, 0x04, 0x04, .u32, .ro, 0, false, .any, 0⟩,  -- Hop limit reached
    ⟨0x2B03, 1, 1, 0x05, 0x05, .u32, .ro, 0, false, .any, 0⟩ ]  -- Dropped at link loss

/-- Entries of 0x2B00–0x2BFF. -/
def entries2Bb : List Entry :=
  [ ⟨0x2B03, 1, 1, 0x06, 0x06, .u32, .ro, 0, false, .any, 0⟩,  -- Reserved kinds dropped
    ⟨0x2B03, 1, 1, 0x07, 0x07, .u32, .ro, 0xFFFFFFFF, false, .any, 0⟩,  -- Last unroutable
    ⟨0x2B10, 8, 24, 0x01, 0x01, .u8, .wo, 0, false, .oneOf [1, 2, 3, 4], 0⟩,  -- Command
    ⟨0x2B10, 8, 24, 0x02, 0x02, .u8, .rwHost, 0, false, .oneOf [0xC3], 0⟩,  -- Clear retirements
    ⟨0x2B10, 8, 24, 0x03, 0x03, .u8, .rw, 0, true, .oneOf [0, 1], 0⟩,  -- Reach class
    ⟨0x2B11, 8, 24, 0x01, 0x01, .u8, .ro, 0, false, .any, 0⟩,  -- State
    ⟨0x2B11, 8, 24, 0x02, 0x02, .u8, .ro, 0, false, .any, 0⟩,  -- Active lanes
    ⟨0x2B11, 8, 24, 0x03, 0x03, .u8, .ro, 0, false, .any, 0⟩,  -- Retired lanes
    ⟨0x2B11, 8, 24, 0x04, 0x04, .u16, .ro, 0, false, .any, 0⟩,  -- Lane map
    ⟨0x2B11, 8, 24, 0x05, 0x05, .u8, .ro, 0, false, .any, 0⟩,  -- Last down cause
    ⟨0x2B11, 8, 24, 0x06, 0x06, .u32, .ro, 0, false, .any, 0⟩,  -- Payload rate
    ⟨0x2B12, 8, 24, 0x01, 0x04, .u64, .ro, 0, false, .any, 0⟩,  -- Lane status, physical lanes 0–3
    ⟨0x2B13, 8, 24, 0x01, 0x01, .u64, .ro, 0, false, .any, 0⟩,  -- Flits sent
    ⟨0x2B13, 8, 24, 0x02, 0x02, .u64, .ro, 0, false, .any, 0⟩,  -- Flits received
    ⟨0x2B13, 8, 24, 0x03, 0x03, .u32, .ro, 0, false, .any, 0⟩,  -- CRC errors
    ⟨0x2B13, 8, 24, 0x04, 0x04, .u32, .ro, 0, false, .any, 0⟩,  -- Uncorrectable codewords
    ⟨0x2B13, 8, 24, 0x05, 0x05, .u64, .ro, 0, false, .any, 0⟩,  -- Corrected symbols
    ⟨0x2B13, 8, 24, 0x06, 0x06, .u32, .ro, 0, false, .any, 0⟩,  -- Replays
    ⟨0x2B13, 8, 24, 0x07, 0x07, .u32, .ro, 0, false, .any, 0⟩,  -- Retrains
    ⟨0x2B13, 8, 24, 0x08, 0x08, .u32, .ro, 0, false, .any, 0⟩,  -- Lane tests
    ⟨0x2B13, 8, 24, 0x09, 0x09, .u16, .ro, 0, false, .any, 0⟩,  -- Tags in use
    ⟨0x2B14, 8, 24, 0x01, 0x01, .u16, .ro, 0xFFFF, false, .any, 0⟩,  -- Peer device
    ⟨0x2B14, 8, 24, 0x02, 0x02, .u8, .ro, 0xFF, false, .any, 0⟩,  -- Peer link
    ⟨0x2B14, 8, 24, 0x03, 0x03, .u8, .ro, 0, false, .any, 0⟩ ]  -- Peer retired lanes

/-- Entries of 0x2B00–0x2BFF. -/
def entries2Bc : List Entry :=
  [ ⟨0x2B15, 8, 24, 0x01, 0x05, .u16, .ro, 0, false, .any, 0⟩ ]  -- Credits held, VC0–VC4

/-- Entries of 0x2C00–0x2CFF. -/
def entries2C : List Entry :=
  [ ⟨0x2C00, 1, 1, 0x01, 0x01, .u16, .const, 0x7D0, false, .any, 0⟩,  -- Image switch bound
    ⟨0x2C00, 1, 1, 0x02, 0x02, .u8, .const, 0x10, false, .any, 0⟩,  -- Tile context switch
    ⟨0x2C00, 1, 1, 0x03, 0x03, .u8, .const, 0x20, false, .any, 0⟩,  -- Move record size
    ⟨0x2C10, 1, 8, 0x01, 0x01, .u32, .rw, 0, false, .any, 0⟩,  -- Evaluation interval
    ⟨0x2C10, 1, 8, 0x02, 0x02, .u64, .rw, 0xFFFFFFFFFFFFFFFF, false, .any, 0⟩,  -- Evaluation at step
    ⟨0x2C10, 1, 8, 0x03, 0x03, .boolean, .rw, 0, false, .any, 0⟩,  -- Guest enable
    ⟨0x2C10, 1, 8, 0x04, 0x04, .u32, .rw, 0x400000, false, .any, 0⟩,  -- Guest budget
    ⟨0x2C10, 1, 8, 0x05, 0x05, .u64, .rwStop, 0, false, .any, 0⟩,  -- Guest channels S0, S1
    ⟨0x2C10, 1, 8, 0x06, 0x06, .u64, .rwStop, 0, false, .any, 0⟩,  -- Guest channels S2, S3
    ⟨0x2C10, 1, 8, 0x07, 0x07, .u32, .ro, 0, false, .any, 0⟩,  -- Context state
    ⟨0x2C10, 1, 8, 0x08, 0x08, .u32, .ro, 0, false, .any, 0⟩,  -- Evaluation turns
    ⟨0x2C10, 1, 8, 0x09, 0x09, .u32, .ro, 0, false, .any, 0⟩,  -- Guest turns
    ⟨0x2C10, 1, 8, 0x0A, 0x0A, .u32, .ro, 0, false, .any, 0⟩,  -- Guest overruns
    ⟨0x2C10, 1, 8, 0x0B, 0x0B, .u64, .ro, 0, false, .any, 0⟩,  -- Guest tile cycles
    ⟨0x2C20, 1, 16, 0x01, 0x01, .boolean, .rw, 0, false, .any, 0⟩,  -- Update hold
    ⟨0x2C20, 1, 16, 0x02, 0x02, .boolean, .rw, 0, false, .any, 0⟩,  -- Replica coupling
    ⟨0x2C20, 1, 16, 0x03, 0x03, .u64, .rw, 0, false, .stackBase, 0⟩,  -- Move list base
    ⟨0x2C20, 1, 16, 0x04, 0x04, .u32, .rw, 0, false, .any, 0⟩,  -- Move list length
    ⟨0x2C20, 1, 16, 0x05, 0x05, .u8, .wo, 0, false, .oneOf [1, 2], 0⟩,  -- Move command
    ⟨0x2C20, 1, 16, 0x06, 0x06, .u8, .ro, 0, false, .any, 0⟩,  -- Move state
    ⟨0x2C20, 1, 16, 0x07, 0x07, .u32, .ro, 0, false, .any, 0⟩,  -- Moves done
    ⟨0x2C20, 1, 16, 0x08, 0x08, .u64, .ro, 0xFFFFFFFFFFFFFFFF, false, .any, 0⟩,  -- Last failed move
    ⟨0x2C30, 1, 16, 0x00, 0x00, .domain, .rw, 0, false, .replicaTable, 8192⟩ ]  -- Replica table

/-- Entries of 0x2D00–0x2DFF. -/
def entries2Da : List Entry :=
  [ ⟨0x2D00, 1, 1, 0x01, 0x01, .u16, .const, 0x100, false, .any, 0⟩,  -- Log records
    ⟨0x2D00, 1, 1, 0x02, 0x02, .u32, .const, 0x100000, false, .any, 0⟩,  -- Segment size
    ⟨0x2D00, 1, 1, 0x03, 0x03, .u16, .const, 0x400, false, .any, 0⟩,  -- Extents per snapshot
    ⟨0x2D00, 1, 1, 0x04, 0x04, .u32, .const, 0x10000, false, .any, 0⟩,  -- Segments per generation
    ⟨0x2D00, 1, 1, 0x05, 0x05, .u32, .ro, 0, false, .any, 0⟩,  -- Events logged
    ⟨0x2D00, 1, 1, 0x06, 0x06, .u32, .ro, 0, false, .any, 0⟩,  -- Events overwritten
    ⟨0x2D01, 1, 1, 0x00, 0x00, .domain, .ro, 0, false, .any, 0⟩,  -- Fault log
    ⟨0x2D02, 1, 1, 0x01, 0x01, .u8, .rw, 4, true, .range 2 15, 0⟩,  -- Repeat-pass limit
    ⟨0x2D02, 1, 1, 0x02, 0x02, .u32, .rw, 0x15180, true, .range 60 2592000, 0⟩,  -- Repeat window
    ⟨0x2D02, 1, 1, 0x03, 0x03, .u16, .ro, 0, false, .any, 0⟩,  -- Pending row tests
    ⟨0x2D02, 1, 1, 0x04, 0x04, .u16, .ro, 0, false, .any, 0⟩,  -- Pending pseudo-channel tests
    ⟨0x2D02, 1, 1, 0x05, 0x05, .u8, .rwHost, 0, false, .oneOf [1], 0⟩,  -- Run pseudo-channel tests
    ⟨0x2D02, 1, 1, 0x06, 0x06, .u32, .ro, 0, false, .any, 0⟩,  -- Row tests passed
    ⟨0x2D02, 1, 1, 0x07, 0x07, .u32, .ro, 0, false, .any, 0⟩,  -- Row tests failed
    ⟨0x2D02, 1, 1, 0x08, 0x08, .u32, .ro, 0, false, .any, 0⟩,  -- Pseudo-channel tests passed
    ⟨0x2D02, 1, 1, 0x09, 0x09, .u32, .ro, 0, false, .any, 0⟩,  -- Pseudo-channel tests failed
    ⟨0x2D03, 1, 1, 0x01, 0x01, .u8, .ro, 0, false, .any, 0⟩,  -- Device self-test result
    ⟨0x2D03, 1, 1, 0x02, 0x02, .u16, .ro, 0, false, .any, 0⟩,  -- Tiles failed at reset
    ⟨0x2D03, 1, 1, 0x03, 0x03, .u32, .ro, 0, false, .any, 0⟩,  -- Self-test duration
    ⟨0x2D10, 1, 8, 0x01, 0x01, .u16, .ro, 0, false, .any, 0⟩,  -- Fault cause, frame f
    ⟨0x2D10, 1, 8, 0x02, 0x02, .u16, .ro, 0xFFFF, false, .any, 0⟩,  -- Fault tile
    ⟨0x2D10, 1, 8, 0x03, 0x03, .u64, .ro, 0, false, .any, 0⟩,  -- Fault detail
    ⟨0x2D10, 1, 8, 0x04, 0x04, .u64, .ro, 0, false, .any, 0⟩,  -- Fault time
    ⟨0x2D10, 1, 8, 0x05, 0x05, .u32, .ro, 0, false, .any, 0⟩ ]  -- Faults since LOAD

/-- Entries of 0x2D00–0x2DFF. -/
def entries2Db : List Entry :=
  [ ⟨0x2D20, 1, 16, 0x01, 0x01, .u32, .rw, 0, false, .any, 0⟩,  -- Interval N
    ⟨0x2D20, 1, 16, 0x02, 0x02, .u16, .rw, 0xFFFF, false, .device, 0⟩,  -- Partner
    ⟨0x2D20, 1, 16, 0x03, 0x03, .u64, .rw, 0, false, .mult 65536, 0⟩,  -- Partner area base
    ⟨0x2D20, 1, 16, 0x04, 0x04, .u64, .rw, 0, false, .snapBase, 0⟩,  -- Local area base
    ⟨0x2D20, 1, 16, 0x05, 0x05, .u64, .rw, 0, false, .genLength, 0⟩,  -- Generation length
    ⟨0x2D20, 1, 16, 0x06, 0x06, .u64, .rw, 0, false, .stackBase, 0⟩,  -- Extent list base
    ⟨0x2D20, 1, 16, 0x07, 0x07, .u16, .rw, 0, false, .range 0 1022, 0⟩,  -- Extent list count
    ⟨0x2D20, 1, 16, 0x08, 0x08, .u8, .wo, 0, false, .oneOf [1, 2, 3], 0⟩,  -- Command
    ⟨0x2D20, 1, 16, 0x09, 0x09, .u32, .ro, 0, false, .any, 0⟩,  -- State
    ⟨0x2D20, 1, 16, 0x0A, 0x0A, .u64, .ro, 0, false, .any, 0⟩,  -- Last committed
    ⟨0x2D20, 1, 16, 0x0B, 0x0B, .u32, .ro, 0, false, .any, 0⟩,  -- Snapshots committed
    ⟨0x2D20, 1, 16, 0x0C, 0x0C, .u32, .ro, 0, false, .any, 0⟩,  -- Failures and skips
    ⟨0x2D20, 1, 16, 0x0D, 0x0D, .u32, .ro, 0, false, .any, 0⟩,  -- Last copy time
    ⟨0x2D20, 1, 16, 0x0E, 0x0E, .u32, .ro, 0, false, .any, 0⟩,  -- Last hold time
    ⟨0x2D30, 1, 1, 0x00, 0x00, .domain, .rw, 0, false, .hosting, 256⟩,  -- Hosting table
    ⟨0x2D31, 1, 1, 0x01, 0x08, .u64, .ro, 0, false, .any, 0⟩,  -- Hosting status, slots 0–7
    ⟨0x2D40, 1, 16, 0x01, 0x01, .u8, .rw, 0, false, .oneOf [0, 1], 0⟩,  -- Restore source
    ⟨0x2D40, 1, 16, 0x02, 0x02, .u16, .rw, 0xFFFF, false, .device, 0⟩,  -- Partner
    ⟨0x2D40, 1, 16, 0x03, 0x03, .u64, .rw, 0, false, .any, 0⟩,  -- Area base
    ⟨0x2D40, 1, 16, 0x04, 0x04, .u64, .rw, 0, false, .any, 0⟩,  -- Generation length
    ⟨0x2D40, 1, 16, 0x05, 0x05, .u32, .rw, 0xFFFFFFFF, false, .target, 0⟩,  -- Target step
    ⟨0x2D40, 1, 16, 0x06, 0x06, .u8, .wo, 0, false, .oneOf [1, 2, 3, 4], 0⟩,  -- Command
    ⟨0x2D40, 1, 16, 0x07, 0x07, .u8, .ro, 0, false, .any, 0⟩,  -- Restore state
    ⟨0x2D40, 1, 16, 0x08, 0x08, .u64, .ro, 0, false, .any, 0⟩ ]  -- Restore result

/-- Entries of 0x2E00–0x2EFF. -/
def entries2E : List Entry :=
  [ ⟨0x2E00, 1, 1, 0x01, 0x01, .u16, .const, 0x1F4B, false, .any, 0⟩,  -- PCI vendor ID
    ⟨0x2E00, 1, 1, 0x02, 0x02, .u16, .const, 0x48, false, .any, 0⟩,  -- PCI device ID
    ⟨0x2E00, 1, 1, 0x03, 0x03, .u16, .const, 0x101, false, .any, 0⟩,  -- Subsystem ID
    ⟨0x2E00, 1, 1, 0x04, 0x04, .u8, .ro, 0, false, .any, 0⟩,  -- Link speed
    ⟨0x2E00, 1, 1, 0x05, 0x05, .u8, .ro, 0, false, .any, 0⟩,  -- Link width
    ⟨0x2E00, 1, 1, 0x06, 0x06, .u16, .ro, 0x80, false, .any, 0⟩,  -- Max payload size
    ⟨0x2E00, 1, 1, 0x07, 0x07, .u16, .const, 0x100, false, .any, 0⟩,  -- Result slots
    ⟨0x2E00, 1, 1, 0x08, 0x08, .u8, .const, 0x10, false, .any, 0⟩,  -- DMA rings
    ⟨0x2E01, 1, 1, 0x01, 0x01, .boolean, .rwHost, 1, true, .any, 0⟩,  -- Publish alarms
    ⟨0x2E01, 1, 1, 0x02, 0x02, .boolean, .rwHost, 1, true, .any, 0⟩,  -- Publish events
    ⟨0x2E02, 1, 1, 0x01, 0x01, .u64, .ro, 0, false, .any, 0⟩,  -- Results published
    ⟨0x2E02, 1, 1, 0x02, 0x02, .u32, .ro, 0, false, .any, 0⟩,  -- Results not published
    ⟨0x2E02, 1, 1, 0x03, 0x03, .u32, .ro, 0, false, .any, 0⟩,  -- Acknowledges ignored
    ⟨0x2E02, 1, 1, 0x04, 0x04, .u32, .ro, 0, false, .any, 0⟩,  -- Host accesses dropped
    ⟨0x2E02, 1, 1, 0x05, 0x05, .u64, .ro, 0, false, .any, 0⟩,  -- Window accesses
    ⟨0x2E02, 1, 1, 0x06, 0x06, .u32, .ro, 0, false, .any, 0⟩,  -- Window commands dropped
    ⟨0x2E03, 1, 1, 0x01, 0x01, .u32, .ro, 0, false, .any, 0⟩,  -- AER correctable errors
    ⟨0x2E03, 1, 1, 0x02, 0x02, .u32, .ro, 0, false, .any, 0⟩,  -- AER uncorrectable errors
    ⟨0x2E03, 1, 1, 0x03, 0x03, .u32, .ro, 0, false, .any, 0⟩,  -- Function-level resets
    ⟨0x2E03, 1, 1, 0x04, 0x04, .u32, .ro, 0, false, .any, 0⟩,  -- Hot resets and link downs
    ⟨0x2E04, 1, 1, 0x01, 0x10, .u64, .ro, 0, false, .any, 0⟩ ]  -- Ring bytes, rings 0–15

/-- Entries of 0x2F00–0x2FFF. -/
def entries2Fa : List Entry :=
  [ ⟨0x2F00, 1, 1, 0x01, 0x01, .u8, .ro, 0, false, .any, 0⟩,  -- CLK_SEL strap
    ⟨0x2F00, 1, 1, 0x02, 0x02, .u8, .ro, 0, false, .any, 0⟩,  -- Clock in use
    ⟨0x2F00, 1, 1, 0x03, 0x03, .u16, .const, 0x3E8, false, .any, 0⟩,  -- Nominal tile clock
    ⟨0x2F00, 1, 1, 0x04, 0x04, .u16, .const, 0x4E2, false, .any, 0⟩,  -- Link clock
    ⟨0x2F00, 1, 1, 0x05, 0x05, .u16, .const, 0x7D0, false, .any, 0⟩,  -- Controller clock
    ⟨0x2F00, 1, 1, 0x06, 0x06, .u16, .const, 0x320, false, .any, 0⟩,  -- Supervisor clock
    ⟨0x2F00, 1, 1, 0x07, 0x07, .u8, .ro, 0, false, .any, 0⟩,  -- CAN clock source
    ⟨0x2F01, 1, 1, 0x01, 0x01, .u32, .ro, 0, false, .any, 0⟩,  -- Reference count
    ⟨0x2F01, 1, 1, 0x02, 0x02, .u16, .ro, 0, false, .any, 0⟩,  -- Last window count
    ⟨0x2F01, 1, 1, 0x03, 0x03, .u32, .ro, 0, false, .any, 0⟩,  -- Fail-overs
    ⟨0x2F01, 1, 1, 0x04, 0x04, .u8, .rwHost, 0, false, .oneOf [1], 0⟩,  -- Return to source
    ⟨0x2F01, 1, 1, 0x05, 0x05, .boolean, .ro, 0, false, .any, 0⟩,  -- On internal oscillator
    ⟨0x2F01, 1, 1, 0x06, 0x06, .u32, .ro, 0, false, .any, 0⟩,  -- Returns abandoned
    ⟨0x2F02, 1, 1, 0x01, 0x01, .u16, .ro, 0, false, .any, 0⟩,  -- Tile frequency f
    ⟨0x2F02, 1, 1, 0x02, 0x02, .u16, .ro, 0x3E8, false, .any, 0⟩,  -- f_cap
    ⟨0x2F02, 1, 1, 0x03, 0x03, .u16, .ro, 0x3E8, false, .any, 0⟩,  -- f_therm
    ⟨0x2F02, 1, 1, 0x04, 0x04, .u8, .ro, 0, false, .any, 0⟩,  -- Stretch, upper deck
    ⟨0x2F02, 1, 1, 0x05, 0x05, .u8, .ro, 0, false, .any, 0⟩,  -- Stretch, lower deck
    ⟨0x2F02, 1, 1, 0x06, 0x06, .u32, .ro, 0, false, .any, 0⟩,  -- Stretches to 1.25×
    ⟨0x2F02, 1, 1, 0x07, 0x07, .u32, .ro, 0, false, .any, 0⟩,  -- Stretches to 1.5×
    ⟨0x2F02, 1, 1, 0x08, 0x08, .u32, .ro, 0, false, .any, 0⟩,  -- Sag beyond 12 %
    ⟨0x2F02, 1, 1, 0x09, 0x09, .u32, .ro, 0, false, .any, 0⟩,  -- Fast-path events
    ⟨0x2F03, 1, 1, 0x01, 0x01, .u8, .rw, 1, true, .range 1 8, 0⟩,  -- Upper-deck divider
    ⟨0x2F03, 1, 1, 0x02, 0x02, .u8, .rw, 1, true, .range 1 8, 0⟩ ]  -- Lower-deck divider

/-- Entries of 0x2F00–0x2FFF. -/
def entries2Fb : List Entry :=
  [ ⟨0x2F04, 1, 1, 0x01, 0x01, .u32, .const, 0x3060805, false, .any, 0⟩,  -- Droop thresholds
    ⟨0x2F04, 1, 1, 0x02, 0x02, .u16, .const, 0x100, false, .any, 0⟩,  -- Droop hold
    ⟨0x2F08, 1, 1, 0x01, 0x01, .u16, .rw, 0x3E8, true, .powerCap, 0⟩,  -- Power cap
    ⟨0x2F08, 1, 1, 0x02, 0x02, .u16, .ro, 0, false, .any, 0⟩,  -- Input power
    ⟨0x2F08, 1, 1, 0x03, 0x03, .u16, .ro, 0, false, .any, 0⟩,  -- Input voltage
    ⟨0x2F08, 1, 1, 0x04, 0x04, .boolean, .ro, 0, false, .any, 0⟩,  -- Cap not met
    ⟨0x2F08, 1, 1, 0x05, 0x05, .u64, .ro, 0, false, .any, 0⟩,  -- Time cap not met
    ⟨0x2F08, 1, 1, 0x06, 0x06, .u16, .const, 0x4E2, false, .any, 0⟩,  -- Fast-path limit
    ⟨0x2F08, 1, 1, 0x07, 0x07, .u64, .ro, 0, false, .any, 0⟩,  -- Energy
    ⟨0x2F0C, 1, 1, 0x01, 0x01, .i16, .const, 0x5F, false, .any, 0⟩,  -- Throttle point
    ⟨0x2F0C, 1, 1, 0x02, 0x02, .i16, .const, 0x69, false, .any, 0⟩,  -- Limit
    ⟨0x2F0C, 1, 1, 0x03, 0x03, .i16, .const, 0x73, false, .any, 0⟩,  -- Hardware trip
    ⟨0x2F0C, 1, 1, 0x04, 0x04, .i16, .ro, 0, false, .any, 0⟩,  -- Hottest junction
    ⟨0x2F0C, 1, 1, 0x05, 0x05, .boolean, .ro, 0, false, .any, 0⟩,  -- Throttle active
    ⟨0x2F0C, 1, 1, 0x06, 0x06, .u64, .ro, 0, false, .any, 0⟩,  -- Time throttled
    ⟨0x2F10, 1, 1, 0x00, 0x00, .domain, .ro, 0, false, .any, 0⟩ ]  -- Sensors

/-- Entries of 0x3000–0x30FF. -/
def entries30 : List Entry :=
  [ ⟨0x3000, 1, 1, 0x01, 0x01, .u8, .const, 0x40, false, .any, 0⟩,  -- Monitor points
    ⟨0x3000, 1, 1, 0x02, 0x02, .u8, .const, 0x20, false, .any, 0⟩,  -- Bins per point
    ⟨0x3000, 1, 1, 0x03, 0x03, .u64, .rw, 0, false, .any, 0⟩,  -- Command mask
    ⟨0x3000, 1, 1, 0x04, 0x04, .u8, .wo, 0, false, .oneOf [1, 2, 3, 4], 0⟩,  -- Command
    ⟨0x3000, 1, 1, 0x05, 0x05, .u64, .ro, 0, false, .any, 0⟩,  -- Last command time
    ⟨0x3010, 1, 1, 0x00, 0x00, .domain, .rw, 0, false, .monitors, 1024⟩,  -- Monitor configuration
    ⟨0x3011, 1, 1, 0x00, 0x00, .domain, .ro, 0, false, .any, 0⟩ ]  -- Monitor results

/-- Entries of 0x3100–0x31FF. -/
def entries31 : List Entry :=
  [ ⟨0x3100, 1, 1, 0x01, 0x01, .u8, .ro, 0, false, .any, 0⟩,  -- NODE_ID straps
    ⟨0x3100, 1, 1, 0x02, 0x02, .u8, .ro, 0, false, .any, 0⟩,  -- Last reset cause
    ⟨0x3100, 1, 1, 0x03, 0x03, .u32, .ro, 0, false, .any, 0⟩,  -- Device resets
    ⟨0x3100, 1, 1, 0x04, 0x04, .u32, .ro, 0, false, .any, 0⟩,  -- Power-ups
    ⟨0x3101, 1, 1, 0x01, 0x01, .u8, .ro, 0, false, .any, 0⟩,  -- Image in use
    ⟨0x3101, 1, 1, 0x02, 0x02, .u8, .rwHost, 0, false, .image, 0⟩,  -- Preferred image
    ⟨0x3101, 1, 1, 0x03, 0x04, .u32, .ro, 0, false, .any, 0⟩,  -- Version, A and B
    ⟨0x3101, 1, 1, 0x05, 0x06, .u8, .ro, 0, false, .any, 0⟩,  -- State, A and B
    ⟨0x3101, 1, 1, 0x07, 0x07, .u16, .ro, 0, false, .any, 0⟩,  -- Security version
    ⟨0x3101, 1, 1, 0x08, 0x08, .boolean, .ro, 0, false, .any, 0⟩,  -- Fell back at boot
    ⟨0x3102, 1, 1, 0x01, 0x01, .u8, .rwHost, 0, false, .oneOf [1, 3, 4], 0⟩,  -- Update command
    ⟨0x3102, 1, 1, 0x02, 0x02, .u32, .rwHost, 0, false, .mult 4096, 0⟩,  -- Image offset
    ⟨0x3102, 1, 1, 0x03, 0x03, .u32, .rwHost, 0, false, .any, 0⟩,  -- Image length
    ⟨0x3102, 1, 1, 0x04, 0x04, .u8, .ro, 0, false, .any, 0⟩,  -- Update state
    ⟨0x3102, 1, 1, 0x05, 0x05, .u8, .ro, 0, false, .any, 0⟩,  -- Update failure
    ⟨0x3103, 1, 1, 0x01, 0x01, .u32, .ro, 0, false, .any, 0⟩,  -- Flash JEDEC ID
    ⟨0x3103, 1, 1, 0x02, 0x02, .u64, .ro, 0x4000000, false, .any, 0⟩,  -- Flash capacity
    ⟨0x3104, 1, 1, 0x01, 0x07, .u32, .ro, 0, false, .any, 0⟩,  -- Start-up step ends
    ⟨0x3105, 1, 1, 0x01, 0x01, .u16, .const, 0x2C88, false, .any, 0⟩,  -- Input minimum
    ⟨0x3105, 1, 1, 0x02, 0x02, .u16, .const, 0x3138, false, .any, 0⟩,  -- Input maximum
    ⟨0x3105, 1, 1, 0x03, 0x03, .u16, .const, 0x41A, false, .any, 0⟩,  -- Continuous input power
    ⟨0x3105, 1, 1, 0x04, 0x04, .u16, .const, 0x514, false, .any, 0⟩ ]  -- Peak input power

/-- The whole dictionary, less the subindexes 0x00 that R42 adds. -/
def dictionary : List Entry :=
  entries10 ++ entries1Ea ++ entries1Eb ++ entries20 ++ entries21 ++ entries22 ++ entries23 ++ entries24 ++
    entries25 ++ entries26 ++ entries27 ++ entries28a ++ entries28b ++ entries29a ++ entries29b ++ entries29c ++
      entries2Aa ++ entries2Ab ++ entries2Ba ++ entries2Bb ++ entries2Bc ++ entries2C ++ entries2Da ++ entries2Db ++
        entries2E ++ entries2Fa ++ entries2Fb ++ entries30 ++ entries31

/-- The entry row names this index. -/
def Entry.hasIndex (e : Entry) (i : Nat) : Bool :=
  decide (e.index ≤ i) && decide ((i - e.index) % e.step = 0) && decide ((i - e.index) / e.step < e.count)

/-- The entry row names this subindex. -/
def Entry.hasSub (e : Entry) (s : Nat) : Bool := decide (e.lo ≤ s) && decide (s ≤ e.hi)

/-- The rows of an index. -/
def rowsOf (i : Nat) : List Entry := dictionary.filter fun e => e.hasIndex i

/-- The key of a scalar entry in State.od. -/
def odKey (i s : Nat) : Nat := i * 256 + s

/-- The bytes of a scalar type (R43). -/
def DType.bytes : DType → Nat
  | .boolean => 1
  | .i8 => 1
  | .i16 => 2
  | .i32 => 4
  | .i64 => 8
  | .u8 => 1
  | .u16 => 2
  | .u32 => 4
  | .u64 => 8
  | .f32 => 4
  | .str => 0
  | .octet => 0
  | .domain => 0

/-- The type holds its value in State.od. -/
def DType.scalar (t : DType) : Bool := decide (0 < t.bytes)

end Sys2Proof.Machine
end

