-- ==== Sys2Proof/Machine/DeviceState.lean ====
section
/-! DEFINITION. DeviceState: the state of the units outside the tiles. A scalar entry of the object
dictionary that no unit below holds in a form of its own stands in State.od under its index and subindex;
a writable table object stands in State.tables under its index. -/

namespace Sys2Proof.Machine

/-! ### Grid and frames (R16–R39, R501) -/

/-- The status of a physical column (OD 0x2010). -/
inductive ColStatus where
  | enabled
  | factoryGood
  | factoryBad
  | narrowed
  | retired
  | pending
  deriving DecidableEq, Repr

/-- The five part numbers (R2): the grade and the cooling suffix on the label. -/
inductive Part where
  | lc2304
  | ac2304
  | lc2208
  | ac2208
  | ac2112
  deriving DecidableEq, Repr

/-- The tile grid: the current width W and the physical columns (R4, R17, R38). -/
structure Grid where
  width : Nat
  columns : List ColStatus
  /-- OD 0x2020.01: the deck mode in use. -/
  split : Bool
  /-- The part number on the label; it never changes (R3, R4). -/
  part : Part := .lc2304
  deriving DecidableEq, Repr

/-- The states of a frame (R34). -/
inductive FrameState where
  | empty
  | loaded
  | running
  | stopped
  | selftest
  | faulted
  deriving DecidableEq, Repr

/-- A transition in progress (R35). -/
inductive Transition where
  | load
  | stop
  | reset
  deriving DecidableEq, Repr

/-- What LOAD latches of a frame's entries (R32, R131, R165, R195, R239, R404) and the image set it read. -/
structure Latched where
  shape : Nat
  first : Nat
  last : Nat
  channels01 : Nat
  channels23 : Nat
  links : Nat
  /-- The image reference (R32), and the image set read from it. -/
  ref : Nat
  image : List Byte
  job : Nat
  peers : List Nat
  seed : Nat
  initialStep : Nat
  sendStall : Nat
  receiveWait : Nat
  evalInterval : Nat
  evalAt : Nat
  guest01 : Nat
  guest23 : Nat
  /-- Configuration records of the frame's tracked tensors: TID and record (R195). -/
  watch : List (Nat × Nat)
  deriving DecidableEq, Repr

/-- One frame. -/
structure Frame where
  st : FrameState := .empty
  /-- OD 0x21f0.02 [3]. -/
  endedAll : Bool := false
  /-- A fault cause has been recorded since LOAD, RESET or a passing SELFTEST (R408). -/
  causeHeld : Bool := false
  transition : Option Transition := none
  latched : Option Latched := none
  /-- TSW2: tile cycles since START. -/
  cycles : Nat := 0
  /-- The frame's superstep count and current step (R110, R163) and external phase (R131). -/
  supersteps : Nat := 0
  step : Nat := 0
  phase : Nat := 0
  /-- Frame cycle of the first arrival at the present sync (R113). -/
  firstArrival : Option Nat := none
  /-- The watchdog of the present sync as read at its start (R113). -/
  watchdog : Nat := 0
  /-- The exchange phase that is open: its kind, 0 internal, 1 external (R107). -/
  exchange : Option Nat := none
  /-- Peers whose token of the current phase, and of the next, has come (R133), and peers sent to. -/
  tokens : List Nat := []
  early : List Nat := []
  sent : List Nat := []
  /-- Remote writes of the phase not yet acknowledged, by peer device and frame (R132). -/
  writesOut : SMap Nat := []
  /-- The supervisor queue and the packets waiting on it at the apron, oldest first (R235). -/
  queue : List Tuple := []
  waiting : List Packet := []
  /-- Evaluation and guest turns (R396–R400). -/
  turn : Nat := 0
  evalDue : Bool := false
  evalPending : Bool := false
  guestFaulted : Bool := false
  guestDisabled : Bool := false
  turnFrom : Nat := 0
  /-- Steps with a released scan-close sync, and whether the scans of each found a non-finite gradient (R213, R325);
  steps in which the frame was faulted, reset or unloaded, with the job it then had. A step leaves both when its device
  has answered for it. -/
  scans : List (Nat × Bool) := []
  downs : List (Nat × Nat) := []
  /-- Steps not yet closed by the watch collector whose scan found a non-finite gradient (R208). -/
  scanBad : List Nat := []
  deriving DecidableEq, Repr

/-- The tile cycles of the guest turn that runs, or has been cut short by a fault (R398, R404). -/
def Frame.turnCycles (y : Frame) : Nat := if y.turn = 2 then y.cycles - y.turnFrom else 0

/-! ### Dictionary service, saved set, CAN (R40–R82) -/

/-- An open segmented session: its value or gather buffer (R57, R59). -/
structure Session where
  who : SessionId
  write : Bool
  index : W16
  sub : Byte
  buffer : List Byte
  offset : Nat
  deriving DecidableEq, Repr

/-- One copy of the saved set in the parameter region (R61): entry values and table values; valid while
its CRC-32C passes. -/
structure SavedCopy where
  valid : Bool := false
  sequence : Nat := 0
  values : SMap (Option Nat) := []
  tables : SMap (List Byte) := []
  deriving DecidableEq, Repr

/-- A store or restore in progress (R63, R64): the new copy being written. -/
structure Storing where
  copy : SavedCopy
  toA : Bool
  restore : Bool
  path : Path
  index : Nat
  /-- The client of the access that waits for the outcome, where it came through the request queue. -/
  client : Option Nat := none
  deriving DecidableEq, Repr

/-- One event on its way out as EMCY (R76). -/
structure Emcy where
  code : Nat
  event : Nat
  detail : Nat
  deriving DecidableEq, Repr

/-- The NMT states (R74). -/
inductive Nmt where
  | initialisation
  | preOperational
  | operational
  | stopped
  deriving DecidableEq, Repr

/-- The CAN node (R71–R78). -/
structure CanNode where
  nmt : Nmt := .initialisation
  nodeId : Nat := 0
  /-- The controller is off the bus for want of a clock (R461); bus-off (R78). -/
  clockless : Bool := false
  busOff : Bool := false
  txErr : Nat := 0
  rxErr : Nat := 0
  passive : Bool := false
  queue : List Emcy := []
  /-- OD 0x1003: error code and event code, newest first. -/
  history : List (Nat × Nat) := []
  /-- Error codes of the conditions in force and of the events held (R500). -/
  conditions : List Nat := []
  held : List Nat := []
  /-- Consumers timed out (OD 0x1E41.09). -/
  timedOut : List Nat := []
  /-- The data bit rate in effect (R71). -/
  dataRate : Nat := 5
  deriving DecidableEq, Repr

/-! ### Stacks, protection, scrub (R274–R306, R409–R412) -/

/-- Errors held in one protected unit: bits (symbols) in error, the poison pattern or flag, and whether the two decoders
of its corrector disagree over it (R288–R296; log entry 98). -/
structure CellErr where
  bits : Nat := 0
  poison : Bool := false
  split : Bool := false
  deriving DecidableEq, Repr

/-- A pseudo-channel: its record of OD 0x2802. -/
structure PseudoChannel where
  state : Nat := 0
  lanes : Nat := 0
  ce : Nat := 0
  ue : Nat := 0
  onDie : Nat := 0
  repeats : Nat := 0
  lastError : Nat := 0
  /-- Retiring, with the reason it will take (R302). -/
  retiring : Option Nat := none
  /-- Its stack has not been brought into service (R275). -/
  absent : Bool := false
  deriving DecidableEq, Repr

/-- A write-back of a scrub: the address, its data, whether it is poisoned, and the errors that the read met there,
which a write of the row or block removes (R298, R299). -/
structure WriteBack where
  addr : Nat
  data : List Byte
  poison : Bool
  seen : List (Nat × CellErr)
  deriving DecidableEq, Repr

/-- A scrub unit's pass (R297–R300); its scalars stand in the dictionary. -/
structure Scrub where
  running : Bool := false
  repeats : List Nat := []
  /-- A write-back still to be made (R298, R299). -/
  writeBack : Option WriteBack := none
  /-- Address read back after a write-back and not yet re-read. -/
  recheck : Option Nat := none
  deriving DecidableEq, Repr

/-- The test queues of R409–R412. -/
structure Tests where
  rows : List (Nat × Nat) := []
  /-- Pseudo-channel and 4 KiB block. -/
  pcs : List (Nat × Nat) := []
  /-- The pseudo-channels that were pending when the host started the tests (R411). -/
  pcsForced : List Nat := []
  /-- Passes: unit key and supervisor cycle (R412). -/
  rowPasses : List ((Nat × Nat) × Nat) := []
  pcPasses : List (Nat × Nat) := []
  deriving DecidableEq, Repr

/-! ### Numerics watch (R194–R217) -/

/-- The entry of a tracked tensor in the watch region (R194, R203–R211). -/
structure WatchEntry where
  step : Nat := 0
  scale : Nat := 0
  history : List W32 := []
  alarmed : Bool := false
  kept : Bool := false
  zeroRun : Nat := 0
  sat : Nat := 0
  flush : Nat := 0
  nonfinite : Nat := 0
  lastAmax : W32 := 0
  samples : Nat := 0
  abandoned : Nat := 0
  maxShadow : W32 := 0
  bins : SMap Nat := []
  deriving DecidableEq, Repr

/-! ### Host interface (R437–R457, R502) -/

/-- A mailbox queue (R236, R237). -/
structure Mailbox where
  words : List W32 := []
  timeout : Bool := false
  overflow : Bool := false
  deriving DecidableEq, Repr

/-- A mailbox pair, and the receiver states recorded at a timeout. -/
structure MailPair where
  h2s : Mailbox := {}
  s2h : Mailbox := {}
  supState : Nat := 0
  hostState : Nat := 0
  deriving DecidableEq, Repr

/-- The dictionary window (R444): its registers. -/
structure Window0 where
  idx : Nat := 0
  len : Nat := 0
  stat : Nat := 0
  abort : Nat := 0
  buf : Nat := 0
  /-- DW_DATA from its start; the bytes not listed are zero. -/
  data : List Byte := []
  deriving DecidableEq, Repr

/-- A DMA ring (R452–R454). -/
structure Ring where
  base : Nat := 0
  size : Nat := 16
  enable : Bool := false
  bound : Bool := false
  frame : Nat := 0
  prod : Nat := 0
  cons : Nat := 0
  halted : Bool := false
  code : Nat := 0
  failing : Nat := 0
  /-- Descriptors whose transfer is done and whose DONE word is not yet written: descriptor bytes. -/
  inProgress : List (List Byte) := []
  deriving DecidableEq, Repr

/-- The PCIe endpoint and the host-visible registers that no other unit holds. -/
structure HostIf where
  /-- PERST_N is high; the link is up; the function is in D3hot; the link is in L2. -/
  perstHigh : Bool := true
  linkUp : Bool := false
  d3hot : Bool := false
  l2 : Bool := false
  faultSummary : Nat := 0
  nmi : Bool := false
  lastSeq : Nat := 0
  nextSeq : Nat := 1
  lastSlot : Nat := 255
  unpublished : Bool := false
  lastAck : Nat := 0
  dbH2s : W64 := 0
  dbS2h : W64 := 0
  /-- MSI-X table dwords written, pending vectors, function mask (R455). -/
  msix : SMap Nat := []
  msixPending : List Nat := []
  functionMask : Bool := false
  /-- MSI-X Enable of the message control word; the status words of Advanced Error Reporting, which a function-level
  reset keeps (R437, R455, R456). -/
  msixEnable : Bool := false
  aerCorrectable : Nat := 0
  aerUncorrectable : Nat := 0
  deriving DecidableEq, Repr

/-! ### Clocks, power, monitors (R458–R478) -/

/-- The clock source and its monitor (R458–R465). -/
structure ClockState where
  clkSel : Bool := true
  onInternal : Bool := false
  /-- The counts of the windows that passed, newest first, at most 1,024 (R462). -/
  windows : List Nat := []
  /-- The reference count at the last fail-over, in edges × 256 (R465). -/
  frozenRef : Nat := 0
  /-- A return to the source in progress: windows passed so far (R465). -/
  returning : Option Nat := none
  pcieRefclk : Bool := true
  deriving DecidableEq, Repr

/-- Supplies, sensors and governors (R468–R472, R481). -/
structure PowerState where
  on : Bool := true
  pwrGood : Bool := true
  /-- The rails are off: by a hardware trip at this many °C (R471), or by a brown-out (R481). -/
  tripped : Option Nat := none
  brownOut : Bool := false
  /-- Input voltage in mV; it is outside its limits and the event has been sent. -/
  input : Nat := 12000
  inputOut : Bool := false
  alert : Bool := false
  /-- Sag alarm sent and not yet cleared (R469). -/
  sagAlarm : Bool := false
  /-- The droop part of the stretch factor per deck, 0, 1, 2 (R469), that of the upper deck for both in joined mode; the
  fast path is in force (R470). -/
  droopUpper : Nat := 0
  droopLower : Nat := 0
  fastPath : Bool := false
  /-- Last readings: sag in 0.01 % per supply sensor, junction in 0.1 °C per sensor. -/
  sag : SMap Nat := []
  junction : SMap Int := []
  watts : Nat := 150
  fCap : Nat := 1000
  fTherm : Nat := 1000
  /-- Energy in units of 100 µJ (OD 0x2F08.07). -/
  energy : Nat := 0
  deriving DecidableEq, Repr

/-- A monitor point (R473–R476). -/
structure MonPoint where
  count : Nat := 0
  sum : Int := 0
  min : Int := 2 ^ 63 - 1
  max : Int := -(2 ^ 63)
  bins : SMap Nat := []
  state : Nat := 0
  saturated : Bool := false
  stamp : Nat := 0
  deriving DecidableEq, Repr

/-! ### Tally, roll call, updates (R307–R361) -/

/-- The states of a tally context (R321). -/
inductive CtxState where
  | opened
  | retracting
  | closing
  | closed
  deriving DecidableEq, Repr

/-- A tally context in use (R319). -/
structure TallyCtx where
  st : CtxState
  maxPhase : Bool
  measured : Bool
  discard : Bool := false
  job : Nat
  epoch : Nat
  bucket : Nat
  step : Nat
  revision : Nat
  n : Nat := 0
  nExp : Nat
  m : Int := -149
  e : Int := 0
  float : Bool
  /-- Contributor indexes counted, and those excluded whose retraction is awaited. -/
  bits : List Nat := []
  excluded : List Nat := []
  sum : Nat
  elements : Nat
  group : List Nat
  leaseFrom : Nat := 0
  accepted : Nat := 0
  refused : Nat := 0
  /-- Set when the context closes: order among the device's closes (R328). -/
  order : Nat := 0
  deriving DecidableEq, Repr

/-- How far a send-list record has come (R312–R318, R330, R331). -/
inductive SendState where
  | ready
  | inFlight
  | setAside
  | accepted
  | awaitData
  | late
  | stopped
  | retracting
  | retracted
  deriving DecidableEq, Repr

/-- A send-list record being worked on. -/
structure SendRec where
  st : SendState := .ready
  /-- What is to be sent: by the exponent table, a MAX segment, or data with an exponent (R315, R318, R323). -/
  next : Option (Option Int) := none
  /-- What was sent last: a MAX segment or data, with E; segments not yet acknowledged, and those accepted. -/
  max : Bool := false
  e : Int := 0
  outstanding : Nat := 0
  accepted : Nat := 0
  /-- A segment of this attempt has been refused. -/
  refused : Bool := false
  deriving DecidableEq, Repr

/-- A decision of a roll keeper (R326–R333). -/
inductive Decision where
  | membership (step revision : Nat) (replay : Bool) (members : List Nat)
  | seal (step : Nat)
  deriving DecidableEq, Repr

/-- The roll call of a job on this device (R325–R333). -/
structure Roll where
  step : Nat := 0
  revision : Nat := 0
  held : Bool := false
  member : Bool := false
  replay : Bool := false
  members : List Nat := []
  sent : Bool := false
  closedSent : Bool := false
  isSealed : Bool := true
  /-- TAKEOVER has come: the device then held as keeper (R333). -/
  formerStandby : Bool := false
  keeper : Nat := 0xFFFF
  /-- The send epoch latched at revision 0 (R334), and that of the last sealed step. -/
  sendEpoch : Nat := 0
  sealedEpoch : Nat := 0
  answered : Option Nat := none
  /-- Sealed steps held, newest first (R374). -/
  sealedSteps : List Nat := []
  records : SMap SendRec := []
  /-- A late fault: its kind as event 0x0700; it cannot be retracted; WITHDRAW-LATE has been sent (R330, R379). -/
  lateFault : Option Nat := none
  lateHard : Bool := false
  withdrawn : Bool := false
  /-- A segment was refused with 0x5: the senders stop until the new membership (R318). -/
  stopped : Bool := false
  /-- The revision from which the send records have been worked on: an answer to a segment of an older one is none of
  theirs (R329). -/
  sendFrom : Nat := 0
  /-- As keeper or standby: answers (device, step, READY). -/
  answers : List (Nat × Nat × Bool) := []
  kStep : Nat := 0
  kFixed : Bool := false
  kRevision : Nat := 0
  kMembers : List Nat := []
  /-- Devices whose SENT and CLOSED of the present revision are held. -/
  kSent : List Nat := []
  kClosed : List Nat := []
  kSealed : Bool := false
  /-- Steps whose revision 0 is fixed, with the members, while a former step is not sealed (R326; log entry 106). -/
  fixed : List (Nat × List Nat) := []
  /-- Decisions not yet broadcast; the first has gone to the standby, whose lease may have expired (R333). -/
  kPending : List Decision := []
  standbyLost : Bool := false
  peerAlive : Nat := 0
  /-- Devices whose weight resend waits for the end of the updates (R417). -/
  resends : List Nat := []
  deriving DecidableEq, Repr

/-- A bucket handed to an update engine (R328, R345), or to be converted and returned as it stands (R355, R357). -/
structure BucketJob where
  job : Nat
  epoch : Nat
  bucket : Nat
  step : Nat
  /-- The sum area; the context with E and n, or none: nothing has been summed. -/
  area : Nat
  elements : Nat
  sum : Option (Nat × Int × Nat) := none
  float : Bool := false
  /-- The group record as read at the seal, with the scalars of the step (R342, R344). -/
  group : List Byte := []
  push : Bool := true
  /-- Send only to this device (R417); none: to the whole group. -/
  only : Option Nat := none
  deriving DecidableEq, Repr

/-- A bucket return not yet landed at one destination: rows not yet answered, and whether it waits to be sent
again (R352, R354). -/
structure ReturnOut where
  bucket : BucketJob
  device : Nat
  frame : Nat
  left : Nat
  held : Bool
  deriving DecidableEq, Repr

/-- A bucket landing in a frame of this device (R352, R353). -/
structure Landing where
  job : Nat
  epoch : Nat
  bucket : Nat
  step : Nat
  frame : Nat
  rows : List Nat
  last : Option Nat := none
  poison : Bool := false
  notified : Bool := false
  dropped : Bool := false
  deriving DecidableEq, Repr

/-- An update engine at a job's move list (R402): the next record, writes of the present one not yet answered, and the
status that stopped it. -/
structure MoveEngine where
  next : Nat := 0
  acks : Nat := 0
  failed : Bool := false
  deriving DecidableEq, Repr

/-! ### Links (R362–R388) -/

/-- The states of a link (R381). -/
inductive LinkState where
  | disabled
  | training
  | up
  | testing
  | retraining
  | down
  | failed
  deriving DecidableEq, Repr

/-- What waits for the response under a link tag (R377). -/
inductive Requester where
  | dma (tile row : Nat) (frame peer : Nat)
  | tally (job record step revision : Nat)
  | notice
  | weightReturn (job bucket device frame : Nat)
  | move (job engine index : Nat)
  | snapshot (job : Nat)
  /-- The header of a generation of the partner area (R426). -/
  | snapHead (job gen : Nat)
  /-- A piece of 4 KiB of the area that a restore reads (R429). -/
  | restore (job piece : Nat)
  /-- The requester has gone: the response is dropped when it arrives (R501). -/
  | abandoned
  deriving DecidableEq, Repr

/-- What a decoder or the CRC-32C found at a time: failures, and the symbols corrected per lane (R383). -/
structure FecNote where
  since : Nat
  failures : Nat
  symbols : List Nat
  deriving DecidableEq, Repr

/-- One lane (OD L+2). -/
structure Lane where
  errors : Nat := 0
  horizontal : Nat := 0
  vertical : Nat := 0
  passed : Nat := 0
  /-- Supervisor cycles of the tests passed (R384). -/
  passes : List Nat := []
  deriving DecidableEq, Repr

/-- One link. -/
structure LinkSt where
  st : LinkState := .disabled
  cause : Nat := 0
  active : BitVec 4 := 0
  retired : BitVec 4 := 0
  reversal : Bool := false
  inverted : BitVec 4 := 0
  lanes : Vector Lane 4 := Vector.replicate 4 {}
  peerDevice : Nat := 0xFFFF
  peerLink : Nat := 0xFF
  peerRetired : Nat := 0
  /-- Transmit: next SEQ, flits kept for replay (SEQ and bytes, oldest first), those still to be replayed,
  replays in a row. -/
  txSeq : Nat := 0
  retry : List (Nat × List Byte) := []
  replay : List (Nat × List Byte) := []
  replays : Nat := 0
  /-- The header of the last transaction per VC whose first flit has been acknowledged. -/
  begun : SMap (BitVec 128) := []
  /-- Receive: SEQ expected, a DATA flit has been taken, NAK to send, NAK sent and none taken since. -/
  rxSeq : Nat := 0
  rxValid : Bool := false
  nakDue : Bool := false
  nakSent : Bool := false
  /-- Receive buffers and egress queues per VC: slots with their start marks. -/
  rx : SMap (List (Bool × List Byte)) := []
  tx : SMap (List (Bool × List Byte)) := []
  /-- Credits held per VC, slots freed per VC since CREDIT_INIT, and the last total seen per VC. -/
  credits : SMap Nat := []
  freed : SMap Nat := []
  seen : SMap Nat := []
  /-- Next VC to name in a sideband, the weighted round-robin state (VC less 1, and slots left). -/
  cvc : Nat := 0
  wrr : Fin 3 × Nat := (2, 0)
  tags : SMap (Option Requester) := []
  /-- Requests that wait for a tag (R377), oldest first. -/
  waits : List (Requester × Txn) := []
  /-- The code of a CONTROL flit sent and not yet answered (R367). -/
  control : Option Nat := none
  /-- Lane test: PRBS running; own results. -/
  prbs : Bool := false
  measured : List LaneMeasure := []
  /-- What was found within the burst window (R383). -/
  fec : List FecNote := []
  deriving DecidableEq, Repr

/-! ### Snapshots and restore (R420–R436) -/

/-- An extent of a snapshot (R422, R424). -/
structure Extent where
  source : Nat
  kind : Nat
  length : Nat
  /-- Offset of its data in the generation, and its first segment. -/
  offset : Nat := 0
  first : Nat := 0
  deriving DecidableEq, Repr

/-- A job's snapshots (R421–R427). -/
structure Snap where
  take : Bool := false
  /-- A snapshot is due after this sealed step. -/
  due : Option Nat := none
  /-- The copy in progress: its step, the generation written in each area, the header that commits it, whether a read of
  the device's own state or a local write has failed, and the first status but 0 that the partner answered. -/
  step : Nat := 0
  hold : Bool := false
  partner : Option Nat := none
  localArea : Option Nat := none
  header : List Byte := []
  ownBad : Bool := false
  localBad : Bool := false
  partnerStatus : Nat := 0
  /-- The generation of the partner area that holds the newest committed snapshot. -/
  partnerNewest : Option Nat := none
  /-- The headers read from the partner area before the first copy, by generation, and those still awaited. -/
  heads : SMap (Option (List Byte)) := []
  headsDue : List Nat := []
  /-- The extents of the copy, the digests of those copied, and the writes the partner has not answered. -/
  extents : List Extent := []
  digests : SMap (List Nat) := []
  unanswered : Nat := 0
  /-- Snapshots taken by the job on this device. -/
  sequence : Nat := 0
  deriving DecidableEq, Repr

/-- A job's restore in progress (R428, R429): the generation it uses; of a partner area the pieces of 4 KiB that have
been read, an empty one where its READ failed, and the numbers of those asked for. -/
structure Rest where
  gen : Nat := 0
  fellBack : Bool := false
  pieces : SMap (Option (List Byte)) := []
  asked : List Nat := []
  deriving DecidableEq, Repr

/-! ### Flash, firmware, JTAG (R485, R488–R498) -/

/-- A firmware image slot as verified (R490): OD 0x3101.03–.06. -/
structure ImageSlot where
  state : Nat := 0
  version : Nat := 0
  security : Nat := 0
  deriving DecidableEq, Repr

/-- The configuration flash apart from what other units keep of it (R488). -/
structure Flash where
  preferredB : Bool := false
  security : Nat := 0
  powerUps : Nat := 0
  imageA : ImageSlot := {}
  imageB : ImageSlot := {}
  copyA : SavedCopy := {}
  copyB : SavedCopy := {}
  /-- Fault-log copy with OD 0x2D00.05 and .06 (R431). -/
  log : List (Nat × Nat × Nat × Nat) := []
  logged : Nat := 0
  overwritten : Nat := 0
  deriving DecidableEq, Repr

/-- The supervisors (R23, R51, R492, R494). -/
structure Supervisor where
  /-- The dictionary is served (DEV_STATUS[0]). -/
  ready : Bool := true
  recovery : Bool := false
  /-- Core 0 halted for a restart (R494). -/
  asleep : Bool := false
  imageB : Bool := false
  fellBack : Bool := false
  /-- A firmware program command in progress: the image (R493). -/
  programming : Option (List Byte) := none
  deriving DecidableEq, Repr

/-- The JTAG port (R485): instruction selected (0 BYPASS, 1 IDCODE, 2 SAMPLE/PRELOAD, 3 EXTEST), bypass bit, boundary
register, EXTEST in force. -/
structure Jtag where
  instr : Nat := 1
  bypass : Bool := false
  boundary : W64 := 0
  extest : Bool := false
  deriving DecidableEq, Repr

/-- What leaves the block or passes from one unit of it to another: an MSI-X message, a CAN frame, a message, a tally
segment that no link carries, a DONE word and data written to host memory. Newest first. -/
inductive Out where
  /-- An MSI-X message: the vector, the address and the data of its table entry (R455). -/
  | msix (vector addr data : Nat)
  /-- What a host read of BAR0 returns: the offset and the value (R440). -/
  | hostValue (off value : Nat)
  | can (id : Nat) (data : List Byte)
  | msg (device service : Nat) (data : List Byte)
  | host (addr : Nat) (data : List Byte)
  /-- A tally segment, a notice or an answer to a segment that stays inside the device (R312, R318). -/
  | segment (header : Nat) (data : List Byte)
  | tallyStatus (status e : Nat)
  | value (path : Path) (index : Nat) (abort : Nat) (data : List Byte)
  /-- A USDO response frame with its CAN-ID: client, entry, abort code and value; its bytes are CiA 1301's (R73). -/
  | usdo (id client index abort : Nat) (data : List Byte)
  | mailbox (pair : Nat) (w : W32)
  /-- The sideband contacts as EXTEST drives them (R485). -/
  | contacts (data : Nat)
  | tdo (data : Nat)
  /-- A flit of a link (R366). -/
  | flit (link : Nat) (data : List Byte)
  deriving DecidableEq, Repr

end Sys2Proof.Machine
end

