-- ==== Sys2Proof/Machine/State.lean ====
section
/-! DEFINITION. State: the whole state of the L48 as plain data, the reasons a step can stop, and the state
after reset. -/

namespace Sys2Proof.Machine

/-- Why a step stops with a fault. -/
inductive Fault where
  /-- Raised by a tile command that names a tile ID at or above 48 × W: no such tile exists (R14). Safe:
  the hardware has no such core and does nothing. -/
  | noSuchTile
  deriving DecidableEq, Repr

/-- Why a step is refused. -/
inductive Refusal where
  /-- Raised by an arm of Dispatch.lean whose command has no meaning yet. Safe: nothing is claimed of it. -/
  | notModelled (mnemonic : String)
  deriving DecidableEq, Repr

/-- The state of the L48. -/
structure State where
  /-- The commands that are waiting, first in, first out. -/
  pending : List Instr
  /-- The supervisor cycle count (SUP_CYCLES, R443). -/
  supCycles : Nat
  /-- The counter that free values are drawn with (the model's own; log entry 2). -/
  freeCtr : Nat
  /-- Byte memory by device address: main memory, core scratch, stacks, staging memory (R279). -/
  mem : Mem
  /-- Stat memory by `tile ID × 0x2000 + byte` (R100). -/
  stat : Mem
  /-- Errors held in the protected units of `mem`, by the unit's first address, and of `stat` (R288). -/
  errs : SMap CellErr
  statErrs : SMap CellErr
  /-- Scalar dictionary entries by `index × 256 + subindex`; an entry not listed holds its default. -/
  od : SMap (Option Nat)
  /-- Writable table objects and strings by index; an empty list stands for the default content. -/
  tables : SMap (List Byte)
  grid : Grid
  frames : Vector Frame 8
  tiles : SMap Tile
  /-- The stall report as frozen (R230): per tile, the 16-byte record. -/
  stall : SMap (List Byte)
  /-- Sources of regions whose contents are undefined since a change of mode: group to draw (R283). -/
  undefinedGroups : SMap Nat
  /-- Blocks of such groups written since, by block address (R283). -/
  rewritten : SMap Bool
  /-- Dictionary service. -/
  queue : List Access
  /-- How many accesses at the end of the queue reached it in the present supervisor cycle (R51). -/
  queueFresh : Nat
  sessions : List Session
  storing : Option Storing
  can : CanNode
  pcs : SMap PseudoChannel
  scrubs : SMap Scrub
  tests : Tests
  /-- The configuration record that the last LOAD latched for a tensor, by TID; none since a restore wrote its entry
  (R207). Its entry stands in the watch region, in `mem` (R194). -/
  watch : SMap (Option Nat)
  /-- The collector's open posts (R202). -/
  posts : List WatchPost
  /-- Posts on their way to the collector over the message mesh (R202). -/
  posting : List WatchPost
  mail : SMap MailPair
  dw : Window0
  rings : SMap Ring
  host : HostIf
  clock : ClockState
  power : PowerState
  monitors : SMap MonPoint
  contexts : SMap (Option TallyCtx)
  /-- The value last sent in a notice of kind 0x00, by the tag of the bucket (R319). -/
  sentExp : SMap (Option Int)
  /-- Blocks in each channel's tally buffer, most recently used first (R311). -/
  tallyBlocks : SMap (List Nat)
  rolls : SMap Roll
  buckets : List BucketJob
  returns : List ReturnOut
  landings : List Landing
  /-- Move engines by job × 4 + engine (R402). -/
  moves : SMap MoveEngine
  closes : Nat
  links : SMap LinkSt
  snaps : SMap Snap
  rests : SMap Rest
  flash : Flash
  sup : Supervisor
  jtag : Jtag
  /-- The fault log: cycle, event, EMCY code, detail; newest first (R431). -/
  log : List (Nat × Nat × Nat × Nat)
  out : List Out
  deriving DecidableEq, Repr

/-- The physical columns of a full-grade part on which every column is good: in each half the 24
lowest-numbered are enabled, and columns 24 and 49 are disabled good (R19; log entry 4). -/
def resetColumns : List ColStatus :=
  List.replicate 24 .enabled ++ [.factoryGood] ++ List.replicate 24 .enabled ++ [.factoryGood]

/-- The L48 right after step 7 of R495 has ended: every frame EMPTY, every tile in the device-reset state
of R105, memories zero, links DISABLED, the dictionary served. The grade, the straps, the flash content and
the sensor readings are the model's choice (log entry 4). -/
def State.reset : State where
  pending := []
  supCycles := 0
  freeCtr := 0
  mem := []
  stat := []
  errs := []
  statErrs := []
  od := [(0x240005, some 1), (0x310001, some 127)]
  tables := []
  grid := { width := 48, columns := resetColumns, split := false, part := .lc2304 }
  frames := Vector.replicate 8 {}
  tiles := []
  stall := []
  undefinedGroups := []
  rewritten := []
  queue := []
  queueFresh := 0
  sessions := []
  storing := none
  can := { nmt := .preOperational, nodeId := 127 }
  pcs := []
  scrubs := []
  tests := {}
  watch := []
  posts := []
  posting := []
  mail := []
  dw := {}
  rings := []
  host := {}
  clock := { windows := List.replicate 100 1000 }
  power := {}
  monitors := []
  contexts := []
  sentExp := []
  tallyBlocks := []
  rolls := []
  buckets := []
  returns := []
  landings := []
  moves := []
  closes := 0
  links := []
  snaps := []
  rests := []
  flash := { powerUps := 1, copyA := { valid := true }, copyB := { valid := true },
             imageA := { state := 1, version := 1, security := 0 } }
  sup := {}
  jtag := {}
  log := []
  out := []

end Sys2Proof.Machine
end

