-- ==== Sys2Proof/Machine/Ops.lean ====
section
/-! DEFINITION. Ops: the named operations over the state that every family uses: dictionary scalars, tiles,
frames, events and interrupts, results, the address map, frame faults. -/

namespace Sys2Proof.Machine

/-- The outcome of a command, at this model's types. -/
abbrev Result := Host.Outcome State Fault Refusal

/-! ### Dictionary scalars -/

/-- The value of a scalar entry whose default is `d` (R41). -/
def State.odGet (s : State) (i sub d : Nat) : Nat := (sget none s.od (odKey i sub)).getD d

/-- A scalar entry set by the L48 or by an access that has passed every check. -/
def State.odSet (s : State) (i sub v : Nat) : State :=
  { s with od := sput none s.od (odKey i sub) (some v) }

/-- A counter of the dictionary raised; it saturates at its width (log entry 11). -/
def State.odAdd (s : State) (w i sub n : Nat) : State :=
  s.odSet i sub (satAdd w (s.odGet i sub 0) n)

/-- A 32-bit counter plus 1. -/
def State.count32 (s : State) (i sub : Nat) : State := s.odAdd 32 i sub 1
/-- A 64-bit counter plus 1. -/
def State.count64 (s : State) (i sub : Nat) : State := s.odAdd 64 i sub 1

/-- The index of frame `f`'s block (R39). -/
def frameIndex (f : Fin 8) : Nat := 0x2100 + 0x10 * f.val

/-! ### Free values -/

/-- A fresh draw for a free value (log entry 2). -/
def State.draw (s : State) : Nat × State := (s.freeCtr, { s with freeCtr := s.freeCtr + 1 })

/-! ### Part numbers -/

/-- The width of the grade on the label (R2). -/
def Part.width : Part → Nat
  | .lc2304 => 48
  | .ac2304 => 48
  | .lc2208 => 46
  | .ac2208 => 46
  | .ac2112 => 44

/-- The cooling suffix is -LC (R2). -/
def Part.liquid : Part → Bool
  | .lc2304 => true
  | .lc2208 => true
  | _ => false

/-- The power cap of the suffix in W (R2, R3, R38), and the continuous input power (R498). -/
def Part.powerLimit (p : Part) : Nat := if p.liquid then 1000 else 700
def Part.inputPower (p : Part) : Nat := if p.liquid then 1050 else 750

/-- The subsystem ID (R438). -/
def Part.subsystem : Part → Nat
  | .lc2304 => 0x0101
  | .ac2304 => 0x0102
  | .lc2208 => 0x0103
  | .ac2208 => 0x0104
  | .ac2112 => 0x0105

/-- The part number as labelled (R2, R38). -/
def Part.label : Part → String
  | .lc2304 => "L48-2304-LC"
  | .ac2304 => "L48-2304-AC"
  | .lc2208 => "L48-2208-LC"
  | .ac2208 => "L48-2208-AC"
  | .ac2112 => "L48-2112-AC"

/-! ### Tiles and frames -/

/-- The number of tiles, 48 × W (R14). -/
def State.tileCount (s : State) : Nat := 48 * s.grid.width

/-- The row and logical column of a tile ID (R14). -/
def State.tileRow (s : State) (t : Nat) : Nat := t / s.grid.width
def State.tileCol (s : State) (t : Nat) : Nat := t % s.grid.width

def State.tile (s : State) (t : Nat) : Tile := sget {} s.tiles t
def State.setTile (s : State) (t : Nat) (x : Tile) : State := { s with tiles := sput {} s.tiles t x }
def State.modTile (s : State) (t : Nat) (f : Tile → Tile) : State := s.setTile t (f (s.tile t))

def State.frame (s : State) (f : Fin 8) : Frame := s.frames[f.val]
def State.setFrame (s : State) (f : Fin 8) (x : Frame) : State :=
  { s with frames := s.frames.set f.val x }
def State.modFrame (s : State) (f : Fin 8) (g : Frame → Frame) : State := s.setFrame f (g (s.frame f))

/-- The eight frames. -/
def allFrames : List (Fin 8) := List.finRange 8

/-- The first and the last row of a shape (R29). -/
def shapeFirstRow (shape : Nat) : Nat := if shape = 2 then 24 else 0
def shapeLastRow (shape : Nat) : Nat := if shape = 1 then 23 else 47

/-- A position lies in the latched band (R29). -/
def Latched.hasPos (l : Latched) (row col : Nat) : Bool :=
  decide (l.first ≤ col) && decide (col ≤ l.last) && decide (shapeFirstRow l.shape ≤ row) &&
    decide (row ≤ shapeLastRow l.shape)

/-- The band of a frame holds a tile. -/
def State.frameHas (s : State) (f : Fin 8) (t : Nat) : Bool :=
  match (s.frame f).st, (s.frame f).latched with
  | .empty, _ => false
  | _, some l => decide (t < s.tileCount) && l.hasPos (s.tileRow t) (s.tileCol t)
  | _, none => false

/-- The frame that is not EMPTY and holds the tile (R29: at most one). -/
def State.frameOf (s : State) (t : Nat) : Option (Fin 8) := allFrames.find? fun f => s.frameHas f t

/-- The tiles of a frame in ascending ID. -/
def State.frameTiles (s : State) (f : Fin 8) : List Nat :=
  match (s.frame f).latched with
  | none => []
  | some l =>
    (List.range (shapeLastRow l.shape + 1 - shapeFirstRow l.shape)).flatMap fun r =>
      (List.range (l.last + 1 - l.first)).map fun c =>
        (shapeFirstRow l.shape + r) * s.grid.width + (l.first + c)

/-- A frame counts as RUNNING (R48): its state reads RUNNING, or a transition from or to RUNNING is in
progress, which a STOP is while the state still reads RUNNING. -/
def State.countsRunning (s : State) (f : Fin 8) : Bool := decide ((s.frame f).st = .running)

/-- Every frame is EMPTY, with no LOAD in progress. -/
def State.allEmpty (s : State) : Bool :=
  allFrames.all fun f => decide ((s.frame f).st = .empty) && (s.frame f).transition.isNone

/-- Every tile of a frame changed. -/
def State.modTiles (s : State) (ts : List Nat) (f : Nat → Tile → Tile) : State :=
  ts.foldl (fun s t => s.modTile t (f t)) s

/-- The register context with a number: 0 main, 1 evaluation, 2 guest (R103). -/
def Tile.ctx (x : Tile) (c : Nat) : RegContext := if c = 0 then x.main else if c = 1 then x.eval else x.guest
def Tile.setCtx (x : Tile) (c : Nat) (r : RegContext) : Tile :=
  if c = 0 then { x with main := r } else if c = 1 then { x with eval := r } else { x with guest := r }
def Tile.modCtx (x : Tile) (c : Nat) (f : RegContext → RegContext) : Tile := x.setCtx c (f (x.ctx c))

/-- The job number a frame latched, while it is not EMPTY (R131). -/
def State.jobOf (s : State) (f : Fin 8) : Option Nat :=
  if (s.frame f).st = .empty then none else (s.frame f).latched.map (·.job)

/-- The frames whose latched job is `j`. -/
def State.framesOfJob (s : State) (j : Nat) : List (Fin 8) :=
  allFrames.filter fun f => s.jobOf f == some j

/-! ### The clocks' counts -/

/-- Microseconds in supervisor cycles at 800 MHz (R7). -/
def usToCycles (us : Nat) : Nat := us * 800

/-! ### What leaves the block -/

/-- Something leaves the block. -/
def State.emit (s : State) (o : Out) : State := { s with out := o :: s.out }

/-- The vector's mask bit: bit [0] of the fourth dword of its table entry; vector 0 has none (R455). -/
def HostIf.vectorMasked (h : HostIf) (v : Nat) : Bool :=
  v != 0 && bit (sget 1 h.msix (4 * v + 3)) 0

/-- A dword of the MSI-X table: a vector control word not yet written reads 1, but that of vector 0 (R439, R455). -/
def HostIf.tableWord (h : HostIf) (d : Nat) : Nat := sget (if d % 4 = 3 ∧ d ≠ 3 then 1 else 0) h.msix d

/-- Something holds every vector back: MSI-X is not enabled, the function mask, D3hot, L2 or the link down, or recovery
(R455, R456, R502; log entry 111). -/
def State.vectorsHeld (s : State) : Bool :=
  !s.host.msixEnable || s.host.functionMask || s.host.d3hot || s.host.l2 || !s.host.linkUp || s.sup.recovery

/-- An interrupt vector is raised: a message, or a pending bit while it is masked or the function sleeps
(R455, R456). After reset every vector is masked, as the PCIe rules have it (log entry 19). -/
def State.raise (s : State) (v : Nat) : State :=
  if s.vectorsHeld || s.host.vectorMasked v then
    { s with host := { s.host with
        msixPending := if s.host.msixPending.contains v then s.host.msixPending
          else v :: s.host.msixPending } }
  else s.emit (.msix v (s.host.tableWord (4 * v) + 2 ^ 32 * s.host.tableWord (4 * v + 1))
    (s.host.tableWord (4 * v + 2)))

/-! ### The error register, EMCY and the fault log (R76, R77, R431, R432, R500) -/

/-- The bit of OD 0x1001.00 that an error code sets (R77). -/
def errorBit (code : Nat) : Nat :=
  if code = 0x3100 ∨ code = 0x3200 then 4
  else if code = 0x4200 then 8
  else if code = 0x8110 ∨ code = 0x8120 ∨ code = 0x8130 ∨ code = 0x8140 then 16
  else if code = 0xFF01 then 32
  else if code = 0x1000 then 1
  else if code = 0 then 0
  else 128

/-- OD 0x1001.00: the bits of the conditions in force and of the held events; bit [0] with any other
(R77, R500). -/
def CanNode.errorRegister (c : CanNode) : Nat :=
  let r := (c.conditions ++ c.held).foldl (fun a code => a ||| errorBit code) 0
  if r = 0 then 0 else r ||| 1

/-- The codes that have an end (R500). -/
def isCondition (code : Nat) : Bool :=
  [0x3100, 0x3200, 0x4200, 0x8120, 0x8130, 0xFF00].contains code

/-- The controller is off the bus (R72, R461). -/
def CanNode.offBus (c : CanNode) : Bool := c.nodeId == 0 || c.clockless

/-- The L48 cannot send an EMCY frame at all (R76). -/
def CanNode.cannotSend (c : CanNode) : Bool :=
  c.offBus || c.nmt == .initialisation || c.nmt == .stopped

/-- An EMCY enters the emergency queue: taken out unsent while none can be sent, counted when the queue of
16 is full (R76). -/
def State.queueEmcy (s : State) (e : Emcy) : State :=
  if s.can.cannotSend then s
  else if s.can.queue.length < 16 then { s with can := { s.can with queue := s.can.queue ++ [e] } }
  else s.count32 0x1E42 0x0A

/-- The bit of FAULT_SUMMARY for an EMCY code (R443). -/
def summaryBit (code : Nat) : Option Nat :=
  if code = 0x1000 then some 0 else if code = 0x3100 then some 1 else if code = 0x3200 then some 2
  else if code = 0x4200 then some 3 else if code = 0x5000 then some 4 else if code = 0x5530 then some 5
  else if code = 0x6100 then some 6
  else if code = 0x8110 ∨ code = 0x8120 ∨ code = 0x8130 ∨ code = 0x8140 then some 7
  else if code = 0xFF00 then some 8 else if code = 0xFF01 then some 9
  else if code = 0xFF02 then some 10 else none

/-- A bit of FAULT_SUMMARY is set; vector 1 on its rise (R443, R455). -/
def State.setSummary (s : State) (code : Nat) : State :=
  match summaryBit code with
  | none => s
  | some b =>
    if bit s.host.faultSummary b then s
    else ({ s with host := { s.host with faultSummary := putBit s.host.faultSummary b true } }).raise 1

/-- The staging address of the result area and of staging memory (R279, R448). -/
def stagingBase : Nat := 0x00A000000000
def resultBase : Nat := 0x00A000FFC000

/-- Result slot `i` holds a valid result (R448). -/
def State.slotValid (s : State) (i : Nat) : Bool := bit (s.mem.byte (resultBase + 64 * i + 4)).toNat 0

/-- The slot the next result goes to (R449). -/
def State.freeSlot (s : State) : Option Nat :=
  ((List.range 256).map fun d => (s.host.lastSlot + 1 + d) % 256).find? fun i => !(s.slotValid i)

/-- A result is published into slot `i` (R449): the payload, then the header, LAST_SEQ and vector 27. -/
def State.publishAt (s : State) (i source : Nat) (payload : List Byte) : State :=
  let seq := s.host.nextSeq
  let header := leBytes 4 seq ++ [BitVec.ofNat 8 (if s.host.unpublished then 3 else 1), BitVec.ofNat 8 source]
    ++ leBytes 2 payload.length ++ zeroBytes 8
  let m := (s.mem.write (resultBase + 64 * i + 16) (payload ++ zeroBytes (48 - payload.length))).write
    (resultBase + 64 * i) header
  let s := { s with
    mem := m
    host := { s.host with
      lastSeq := seq
      nextSeq := if seq = 0xFFFFFFFF then 1 else seq + 1
      lastSlot := i
      unpublished := false } }
  (s.count64 0x2E02 0x01).raise 27

/-- An alarm or an event is published, or counted where no slot is free (R449). -/
def State.publish (s : State) (source : Nat) (payload : List Byte) : State :=
  match s.freeSlot with
  | some i => s.publishAt i source payload
  | none => { s.count32 0x2E02 0x02 with host := { s.host with unpublished := true } }

/-- The EMCY code of an event (R432); 0 where it has none. The code of 0x0100 depends on its cause. -/
def eventEmcy (event detail : Nat) : Nat :=
  match event with
  | 0x0100 => if [7, 0xA, 0xB, 0xC].contains (bits detail 0 16) then 0x5000 else 0x1000
  | 0x0101 => 0x1000
  | 0x0200 => 0x5000
  | 0x0202 => 0x5000
  | 0x0203 => 0x5000
  | 0x0204 => 0x5000
  | 0x0205 => 0x5000
  | 0x0300 => 0x5000
  | 0x0302 => 0x5000
  | 0x0303 => 0x5000
  | 0x0401 => 0x5000
  | 0x0402 => 0x5000
  | 0x0500 => 0x5000
  | 0x0501 => 0x5000
  | 0x0502 => 0x5000
  | 0x0503 => 0x5000
  | 0x0600 => 0xFF01
  | 0x0700 => 0x1000
  | 0x0702 => 0x1000
  | 0x0703 => 0x1000
  | 0x0704 => 0x1000
  | 0x0801 => 0xFF02
  | 0x0802 => 0xFF02
  | 0x0803 => 0xFF02
  | 0x0804 => 0xFF02
  | 0x0900 => 0x3100
  | 0x0901 => 0x3200
  | 0x0902 => 0x4200
  | 0x0903 => 0xFF00
  | 0x0A00 => 0x5530
  | 0x0A01 => 0x6100
  | 0x0B00 => [0x8110, 0x8120, 0x8130, 0x8140].getD (bits detail 0 4) 0
  | _ => 0

/-- An event is logged with the EMCY code `emcy` (0 none): the fault log, the error history, the condition
or the held event, the emergency queue, the summary bit and its result (R76, R431, R449, R500). -/
def State.logWith (s : State) (event detail emcy : Nat) : State :=
  let s := (if s.log.length < 256 then s else s.count32 0x2D00 0x06).count32 0x2D00 0x05
  let s := { s with log := ((s.supCycles, event, emcy, detail) :: s.log).take 256 }
  if emcy = 0 then s else
  let s := { s with can := { s.can with
    history := ((emcy, event) :: s.can.history).take 16
    conditions := if isCondition emcy && !(s.can.conditions.contains emcy) then emcy :: s.can.conditions
      else s.can.conditions
    held := if isCondition emcy || s.can.held.contains emcy then s.can.held else emcy :: s.can.held } }
  let s := (s.queueEmcy ⟨emcy, event, detail⟩).setSummary emcy
  if s.odGet 0x2E01 0x02 1 = 1 then
    s.publish 0x11 (leBytes 8 s.supCycles ++ leBytes 2 event ++ leBytes 2 emcy ++ leBytes 4 detail)
  else s

/-- An event is logged under the code of R432. -/
def State.logEvent (s : State) (event detail : Nat) : State := s.logWith event detail (eventEmcy event detail)

/-- A condition clears: error code 0x0000 is sent with the register that remains (R76, R500). -/
def State.clearCondition (s : State) (code : Nat) : State :=
  if s.can.conditions.contains code then
    ({ s with can := { s.can with conditions := s.can.conditions.filter (· != code) } }).queueEmcy ⟨0, 0, 0⟩
  else s

/-! ### The address map (R279) -/

/-- The region of a device address. -/
inductive Region where
  | stack (n off : Nat)
  | main (t off : Nat)
  | scratch (t off : Nat)
  | staging (off : Nat)
  | none
  deriving DecidableEq, Repr

def stackSize : Nat := 0x1800000000
def mainBase : Nat := 0x008000000000
def scratchBase : Nat := 0x009000000000

/-- The region of an address, apart from retired pseudo-channels and the width W. The management window is
served to nobody that asks here (R442). -/
def regionOf (a : Nat) : Region :=
  if a < 4 * stackSize then .stack (a / stackSize) (a % stackSize)
  else if mainBase ≤ a ∧ a < mainBase + 0x80000000 then .main ((a - mainBase) / 0x80000) ((a - mainBase) % 0x80000)
  else if scratchBase ≤ a ∧ a < scratchBase + 0x4000000 then
    .scratch ((a - scratchBase) / 0x4000) ((a - scratchBase) % 0x4000)
  else if stagingBase ≤ a ∧ a < stagingBase + 0x1000000 then .staging (a - stagingBase)
  else .none

/-- The device address of byte `off` of a tile's main memory and core scratch (R83, R96). -/
def mainAddr (t off : Nat) : Nat := mainBase + t * 0x80000 + off
def scratchAddr (t off : Nat) : Nat := scratchBase + t * 0x4000 + off
/-- The key of byte `off` of a tile's stat memory in State.stat. -/
def statAddr (t off : Nat) : Nat := t * 0x2000 + off

end Sys2Proof.Machine
end

