-- ==== Sys2Proof/Machine/Mesh.lean ====
section
/-! DEFINITION. Mesh: packets and routers of the message mesh and the tile queues (R218–R234). -/

namespace Sys2Proof.Machine

/-! ### Packet headers (R219) -/

def pktKind (h : W64) : Nat := bits h.toNat 0 2
def pktRow (h : W64) : Nat := bits h.toNat 2 6
def pktCol (h : W64) : Nat := bits h.toNat 8 6
def pktQueue (h : W64) : Nat := bits h.toNat 14 2
def pktClass (h : W64) : Nat := bits h.toNat 16 2
def pktOp (h : W64) : Nat := bits h.toNat 18 4
def pktLen (h : W64) : Nat := bits h.toNat 22 7
def pktSrcRow (h : W64) : Nat := bits h.toNat 29 6
def pktSrcCol (h : W64) : Nat := bits h.toNat 35 6
def pktSrcApron (h : W64) : Bool := bit h.toNat 41
def pktFrame (h : W64) : Nat := bits h.toNat 42 3
def pktStatus (h : W64) : Nat := bits h.toNat 45 4
def pktTag (h : W64) : Nat := bits h.toNat 49 3
def pktPoison (h : W64) : Bool := bit h.toNat 52

/-- A packet is poisoned by its sender or by a router (R225, R294). -/
def isPoisoned (p : Packet) : Bool := p.marked || pktPoison p.header

/-- A packet as a unit sends it. -/
def sentPacket (h : W64) (d : List W64) : Packet := { header := h, data := d }

/-- The frame number of a packet as an index. -/
def pktFrameIx (h : W64) : Fin 8 := ⟨pktFrame h % 8, Nat.mod_lt _ (by decide)⟩

/-- The fields a unit fills into a header (R219). -/
structure HeaderFields where
  kind : Nat := 0
  row : Nat := 0
  col : Nat := 0
  queue : Nat := 0
  cls : Nat
  op : Nat
  len : Nat
  srow : Nat
  scol : Nat
  apron : Bool := false
  frame : Nat
  status : Nat := 0
  tag : Nat := 0
  poison : Bool := false
  deriving DecidableEq, Repr

def packHeader (f : HeaderFields) : W64 :=
  BitVec.ofNat 64 (f.kind + f.row * 2 ^ 2 + f.col * 2 ^ 8 + f.queue * 2 ^ 14 + f.cls * 2 ^ 16 + f.op * 2 ^ 18 +
    f.len * 2 ^ 22 + f.srow * 2 ^ 29 + f.scol * 2 ^ 35 + b2n f.apron * 2 ^ 41 + f.frame * 2 ^ 42 +
    f.status * 2 ^ 45 + f.tag * 2 ^ 49 + b2n f.poison * 2 ^ 52)

/-- The tile a header's source fields name. -/
def State.pktSource (s : State) (h : W64) : Nat := pktSrcRow h * s.grid.width + pktSrcCol h

/-! ### Flits and buffers (R218, R221) -/

/-- Bits [4:0] of a flit's control byte: VALID, HEAD, TAIL and CLASS. -/
def Flit.kind (f : Flit) : Nat := 1 + 2 * b2n f.head + 4 * b2n f.tail + 8 * (f.cls % 4)

/-- The PARITY bit that is even over the data and bits [4:0] of the control byte (R218). -/
def Flit.evenParity (f : Flit) : Bool :=
  (List.range 69).foldl (fun b i => b != bit (f.data.toNat + f.kind * 2 ^ 64) i) false

/-- A flit with the parity its content calls for. -/
def Flit.seal (f : Flit) : Flit := { f with parity := f.evenParity }

/-- The control byte of a flit (R218). -/
def Flit.control (f : Flit) : Nat := f.kind + 2 ^ 5 * b2n f.parity

/-- The flits of a packet. -/
def flitsOf (p : Packet) : List Flit :=
  let n := p.data.length
  ({ data := p.header, head := true, tail := n == 0, cls := pktClass p.header, poison := p.marked } : Flit).seal ::
    (p.data.zipIdx).map fun q =>
      ({ data := q.1, head := false, tail := q.2 + 1 == n, cls := pktClass p.header } : Flit).seal

def Router.input (r : Router) (port cls : Nat) : List Flit := sget [] r.inp (port * 4 + cls)

/-- The flits an input holds per class: 4, and 8 at the local port (R221, R230). -/
def inputDepth (port : Nat) : Nat := if port = 4 then 8 else 4

/-- Flits of the unit outside enter the input while its buffer has places. -/
def Router.fillInput (r : Router) (port cls : Nat) : Router :=
  let k := port * 4 + cls
  let room := inputDepth port - (r.input port cls).length
  { r with
    inp := smod [] r.inp k (· ++ (sget [] r.outside k).take room)
    outside := smod [] r.outside k (·.drop room) }

/-- A packet of the unit at an input enters behind what waits there already. -/
def Router.enter (r : Router) (port : Nat) (p : Packet) : Router :=
  let c := pktClass p.header
  Router.fillInput { r with outside := smod [] r.outside (port * 4 + c) (· ++ flitsOf p) } port c

def State.modNet (s : State) (t : Nat) (f : Router → Router) : State :=
  s.modTile t fun x => { x with net := f x.net }

/-- A packet enters the mesh at a tile's local port (R230); rows that a DMA engine or a remote row port sends
follow from their decoupling queue (R93). -/
def State.inject (s : State) (t : Nat) (p : Packet) : State :=
  s.modNet t fun r => r.enter 4 p

/-- The injection buffer of a class has room for a whole packet (R230): 8 flits per class. -/
def State.injectRoom (s : State) (t cls flits : Nat) : Bool :=
  decide ((((s.tile t).net.input 4 cls).length) + flits ≤ 8)

/-! ### Refusals (R229, R233, R234) -/

/-- The tile an apron unit's packets enter at: row 0 or row 47 of a column (R235). -/
def State.apronTile (s : State) (south : Bool) (col : Nat) : Nat :=
  (if south then 47 else 0) * s.grid.width + col

/-- A packet of an apron unit enters the mesh at the edge row of its destination column, as the places of the input
there allow (R221, R235). -/
def State.apronSend (s : State) (south : Bool) (p : Packet) : State :=
  s.modNet (s.apronTile south (pktCol p.header)) fun r => r.enter (if south then 2 else 0) p

/-- A refusal of the supervisor queue, code 0x3, to the tile `src` (R233, R235). -/
def State.supervisorRefusal (s : State) (src frame : Nat) : State :=
  s.apronSend false (sentPacket (packHeader
    { row := s.tileRow src, col := s.tileCol src, cls := 2, op := 5, len := 0, srow := 0
      scol := s.tileCol src, apron := true, frame := frame, status := 3 }) [])

/-- A refusal packet of code `code` for a tuple back to its sender (R229): it leaves from tile `t`, and goes to the
supervisor's unit of the north apron where the supervisor sent the tuple (R235). -/
def State.refuse (s : State) (t : Nat) (h : W64) (code : Nat) : State :=
  s.inject t (sentPacket (packHeader
    { kind := b2n (pktSrcApron h), row := pktSrcRow h, col := pktSrcCol h
      queue := if pktSrcApron h then 0 else pktQueue h, cls := 2, op := 5, len := 0
      srow := s.tileRow t, scol := s.tileCol t, frame := pktFrame h, status := code }) [])

/-- The status word of a queue records a refusal for a send that named it (R229, R230, R234). -/
def TileQueue.refusal (q : TileQueue) (code dest : Nat) : TileQueue :=
  { q with refusalsReceived := satAdd 16 q.refusalsReceived 1, lastCode := code, lastDest := dest }

def Tile.modQueue (x : Tile) (q : Nat) (f : TileQueue → TileQueue) : Tile :=
  { x with queues := x.queues.setIfInBounds q (f (x.queues.getD q {})) }
def Tile.queue (x : Tile) (q : Nat) : TileQueue := x.queues.getD q {}

/-! ### Tile queues (R226–R229) -/

/-- Words a queue holds. -/
def TileQueue.held (q : TileQueue) : Nat := q.tuples.foldl (fun n p => n + p.words.length) 0

/-- A tuple enters whole when there is room for all of its words (R226). -/
def TileQueue.hasRoom (q : TileQueue) (n : Nat) : Bool := decide (q.held + n ≤ 32)

/-- A packet as a tuple of a queue. -/
def State.tupleOf (s : State) (p : Packet) : Tuple := ⟨s.pktSource p.header, pktSrcApron p.header, p.data⟩

/-- A tuple meets a CLOSED queue of tile `t` (R229). -/
def State.refuseTuple (s : State) (t : Nat) (p : Packet) : State :=
  let s := s.modTile t fun x => x.modQueue (pktQueue p.header) fun q =>
    { q with refusedArrivals := satAdd 8 q.refusedArrivals 1 }
  (s.count32 0x2703 0x01).refuse t p.header 1

/-- The stage of a class beyond an output: the ejection stage of output 4, the apron of an edge port. -/
def stageKey (o cls : Nat) : Nat := if o = 4 then cls else 4 * (o + 1) + cls

/-- The packet whole in a stage, if any. -/
def Router.ejected (r : Router) (k : Nat) : Option Packet :=
  match sget [] r.eject k with
  | [] => none
  | h :: rest => if (h :: rest).any (·.tail) then
      some { header := if (h :: rest).any (·.poison) then h.data ||| BitVec.ofNat 64 (2 ^ 52) else h.data
             data := rest.map (·.data), marked := (h :: rest).any (·.poison) }
    else none

/-- A packet is taken from the stage beyond output `o` by its sink; a command may carry a packet that no router of this
model's state has moved. -/
def State.takeStage (s : State) (t o : Nat) (p : Packet) : State :=
  let k := stageKey o (pktClass p.header)
  if (s.tile t).net.ejected k = some p then s.modNet t fun r => { r with eject := sput [] r.eject k [] } else s

/-- A packet is taken from the ejection stage of its tile. -/
def State.takeEjected (s : State) (t : Nat) (p : Packet) : State := s.takeStage t 4 p

/-- The edge tile at which a packet leaves for an apron, and its port there (R221). -/
def State.apronDoor (s : State) (h : W64) : Nat × Nat :=
  match pktKind h with
  | 1 => (pktSrcCol h, 0)
  | 2 => (47 * s.grid.width + pktSrcCol h, 2)
  | _ => if 2 * pktCol h < s.grid.width then (pktSrcRow h * s.grid.width, 3)
         else (pktSrcRow h * s.grid.width + (s.grid.width - 1), 1)

/-- A packet is taken by an apron unit. -/
def State.takeApron (s : State) (p : Packet) : State :=
  s.takeStage (s.apronDoor p.header).1 (s.apronDoor p.header).2 p

/-- A packet waits at its apron (R235). -/
def State.holdApron (s : State) (p : Packet) : State :=
  let d := s.apronDoor p.header
  let k := stageKey d.2 (pktClass p.header)
  s.modNet d.1 fun r => if (sget [] r.eject k).isEmpty then { r with eject := sput [] r.eject k (flitsOf p) } else r

/-- The port by which a packet to tile `t` arrives there (R221): along its column, else along its row. -/
def State.arrivalPort (s : State) (t : Nat) (h : W64) : Nat :=
  if pktSrcRow h < s.tileRow t then 0
  else if s.tileRow t < pktSrcRow h then 2
  else if pktSrcCol h < s.tileCol t then 3
  else if s.tileCol t < pktSrcCol h then 1
  else if pktSrcApron h then (if pktSrcRow h = 0 then 0 else 2)
  else 4

/-- A tuple that finds its queue without room waits: its header in the ejection stage, its other flits in the input
buffer they came by (R228). Behind another packet it waits in the input buffer whole. -/
def State.holdEjected (s : State) (t : Nat) (p : Packet) : State :=
  let c := pktClass p.header
  let port := s.arrivalPort t p.header
  let k := port * 4 + c
  s.modNet t fun r =>
    if (sget [] r.eject c).isEmpty then
      { r with
        eject := sput [] r.eject c ((flitsOf p).take 1)
        inp := smod [] r.inp k ((flitsOf p).drop 1 ++ ·)
        hold := sput 0 r.hold (16 + c) (if p.data.isEmpty then 0 else port + 1) }
    else { r with inp := smod [] r.inp k (· ++ flitsOf p) }

/-- A tuple enters its queue. -/
def State.enterQueue (s : State) (t : Nat) (p : Packet) : State :=
  let tup := s.tupleOf p
  s.modTile t fun x => x.modQueue (pktQueue p.header) fun q => { q with tuples := q.tuples ++ [tup] }

/-- A poisoned tuple is discarded and counted as a refused arrival (R225). -/
def State.discardTuple (s : State) (t q : Nat) : State :=
  (s.modTile t fun x => x.modQueue q fun q =>
    { q with refusedArrivals := satAdd 8 q.refusedArrivals 1 }).count32 0x2703 0x01

/-- A tuple reaches a tile queue (R225, R226, R228, R229). -/
def State.arriveTuple (s : State) (t : Nat) (p : Packet) : State :=
  let q := (s.tile t).queue (pktQueue p.header)
  if isPoisoned p then (s.takeEjected t p).discardTuple t (pktQueue p.header)
  else if !q.isOpen then (s.takeEjected t p).refuseTuple t p
  else if q.hasRoom p.data.length then (s.takeEjected t p).enterQueue t p
  else s.holdEjected t p

/-- The head word taken from a queue (R226). -/
def TileQueue.take (q : TileQueue) : Option (W64 × TileQueue) :=
  match q.tuples with
  | [] => none
  | p :: rest =>
    match p.words with
    | [] => none
    | [w] => some (w, { q with tuples := rest })
    | w :: ws => some (w, { q with tuples := { p with words := ws } :: rest })

/-- A queue closes: what it holds is discarded and added to the refused arrivals (R227; log entry 12), and a
tuple waiting on it is refused (R228). -/
def TileQueue.close (q : TileQueue) : TileQueue :=
  { q with isOpen := false, tuples := [], refusedArrivals := satAdd 8 q.refusedArrivals q.tuples.length }

/-! ### Routing (R221) -/

/-- The output of a packet at a tile: 0 N, 1 E, 2 S, 3 W, 4 ejection. -/
def State.route (s : State) (t : Nat) (h : W64) : Nat :=
  let r := s.tileRow t
  let c := s.tileCol t
  match pktKind h with
  | 0 =>
    if c < pktCol h then 1 else if pktCol h < c then 3
    else if r < pktRow h then 2 else if pktRow h < r then 0 else 4
  | 1 => 0
  | 2 => 2
  | _ => if 2 * pktCol h < s.grid.width then 3 else 1

/-- The tile across a port, if any; at the edges stand the aprons. -/
def State.neighbour (s : State) (t port : Nat) : Option Nat :=
  let w := s.grid.width
  match port with
  | 0 => if s.tileRow t = 0 then none else some (t - w)
  | 1 => if s.tileCol t + 1 = w then none else some (t + 1)
  | 2 => if s.tileRow t = 47 then none else some (t + w)
  | 3 => if s.tileCol t = 0 then none else some (t - 1)
  | _ => none

/-- The supervisor queue of a frame is OPEN, the words it holds, and whether `n` more find room and none waits
(R235). -/
def Frame.queueOpen (y : Frame) : Bool := y.st == .loaded || y.st == .running || y.st == .stopped
def Frame.queueHeld (y : Frame) : Nat := y.queue.foldl (fun n p => n + p.words.length) 0
def Frame.queueRoom (y : Frame) (n : Nat) : Bool := y.waiting.isEmpty && decide (y.queueHeld + n ≤ 256)

/-- The port of the neighbour that faces a port. -/
def facing (port : Nat) : Nat := (port + 2) % 4

/-- The flits an output may have in the buffer beyond it (R221, R224). -/
def State.outDepth (s : State) (t port : Nat) : Nat :=
  if s.grid.split && ((s.tileRow t == 23 && port == 2) || (s.tileRow t == 24 && port == 0)) then 8 else 4

/-- The output the head flit of an input wants; a body flit follows its packet's head (wormhole, R221). -/
def State.wants (s : State) (t port cls : Nat) : Option Nat :=
  match (s.tile t).net.input port cls with
  | [] => none
  | f :: _ =>
    if f.head then some (s.route t f.data)
    else (List.range 5).find? fun o => sget 0 (s.tile t).net.hold (o * 4 + cls) == port + 1

/-- The header in the stage beyond output `o` waits for room: a tuple for an OPEN queue of the tile, or for the OPEN
supervisor queue of its frame (R228, R235). -/
def State.stageWaits (s : State) (t o cls : Nat) : Bool :=
  match sget [] (s.tile t).net.eject (stageKey o cls) with
  | [] => false
  | f :: _ =>
    let h := f.data
    let q := (s.tile t).queue (pktQueue h)
    let y := s.frame (pktFrameIx h)
    !(f.poison || pktPoison h) && pktOp h == 0 &&
      (if o = 4 then q.isOpen && !(q.hasRoom (pktLen h))
       else o == 0 && pktQueue h == 0 && y.queueOpen && !(y.queueRoom (pktLen h)))

/-- The flit can go now: a credit is held, or the stage beyond is free for it, and no other packet of its class holds
the output (R220, R221, R228). -/
def State.canHop (s : State) (t port cls o : Nat) : Bool :=
  let r := (s.tile t).net
  let held := sget 0 r.hold (o * 4 + cls)
  (held == 0 || held == port + 1) &&
    (if o = 4 ∨ (s.neighbour t o).isNone then (r.ejected (stageKey o cls)).isNone && !(s.stageWaits t o cls)
     else decide (sget 0 r.used (o * 4 + cls) < s.outDepth t o))

/-- Round robin: the first of `n` numbers from `start` on that is a candidate. -/
def roundRobin (n start : Nat) (ok : Nat → Bool) : Option Nat :=
  ((List.range n).map fun i => (start + i) % n).find? ok

/-- The input and class the output grants: class 2 first, then round-robin over classes and over inputs
(R221). -/
def State.grant (s : State) (t o : Nat) : Option (Nat × Nat) :=
  let r := (s.tile t).net
  let ok (p c : Nat) : Bool := s.wants t p c == some o && s.canHop t p c o
  let anyIn (c : Nat) : Bool := (List.range 5).any fun p => ok p c
  let cls := if anyIn 2 then some 2
    else roundRobin 4 (sget 0 r.turn o) fun c => c != 2 && anyIn c
  match cls with
  | none => none
  | some c => (roundRobin 5 (sget 0 r.turn (8 + 4 * o + c)) fun p => ok p c).map fun p => (p, c)

/-- The flit as it comes over its link: a fault there inverts its PARITY bit. -/
def Flit.arrive (f : Flit) (fault : Bool) : Flit := if fault then { f with parity := !f.parity } else f

/-- A flit has bad parity (R218, R225). -/
def Flit.parityBad (f : Flit) : Bool := f.parity != f.evenParity

/-- The flit as the router forwards it: one with bad parity poisons its packet, in the header or, once that has
passed, by a mark (R225). -/
def Flit.forward (f : Flit) : Flit :=
  if !f.parityBad then f
  else Flit.seal { f with
    data := if f.head then f.data ||| BitVec.ofNat 64 (2 ^ 52) else f.data, poison := true }

/-- One flit leaves input (`port`, `cls`) of tile `t` for output `o`. -/
def State.hop (s : State) (t port cls o : Nat) (fault : Bool) : State :=
  match (s.tile t).net.input port cls with
  | [] => s
  | f0 :: rest =>
    let f := (f0.arrive fault).forward
    let s := s.modNet t fun r => Router.fillInput
      { r with
        inp := sput [] r.inp (port * 4 + cls) rest
        hold := sput 0 r.hold (o * 4 + cls) (if f.tail then 0 else port + 1)
        turn := sput 0 (if cls = 2 then r.turn else sput 0 r.turn o ((cls + 1) % 4)) (8 + 4 * o + cls)
          ((port + 1) % 5) } port cls
    -- The upstream router regains its credit.
    let s := match (if port < 4 then s.neighbour t port else none) with
      | some u => s.modNet u fun r => { r with used := smod 0 r.used (facing port * 4 + cls) (· - 1) }
      | none => s
    match s.neighbour t o with
    | none => s.modNet t fun r => { r with eject := smod [] r.eject (stageKey o cls) (· ++ [f]) }
    | some n =>
      let s := s.modNet t fun r => { r with used := smod 0 r.used (o * 4 + cls) (· + 1) }
      s.modNet n fun r => { r with inp := smod [] r.inp (facing o * 4 + cls) (· ++ [f]) }

/-- One more flit of the packet whose header stands in the ejection stage follows it, if it is at this router. -/
def State.drainOnce (s : State) (t cls : Nat) : State :=
  match sget 0 (s.tile t).net.hold (16 + cls) with
  | 0 => s
  | port + 1 =>
    if s.wants t port cls = some 4 ∧ s.canHop t port cls 4 then s.hop t port cls 4 false else s

/-- The flits of a tuple whose header no longer waits follow it into the ejection stage (R228): 4 at most. -/
def State.drainStage (s : State) (t : Nat) : State := Nat.repeat (fun s => s.drainOnce t 0) 4 s

/-- The queues of a tile close; a tuple that waited is refused (R227–R229). -/
def State.closeQueues (s : State) (t : Nat) : State :=
  let s := (s.modTile t fun x => { x with queues := x.queues.map TileQueue.close }).drainStage t
  match (s.tile t).net.ejected 0 with
  | some p => (s.takeEjected t p).refuseTuple t p
  | none => s

end Sys2Proof.Machine
end

