-- ==== Sys2Proof/Machine/FrameFault.lean ====
section
/-! DEFINITION. FrameFault: how a frame goes to FAULTED (R34, R407, R408, R501). -/

namespace Sys2Proof.Machine

/-! ### Frame faults (R407, R408, R501) -/

/-- A frame's supervisor queue is closed: what it holds is discarded and counted in OD 0x2703.01, and each
tuple waiting on it is refused with code 0x3 and counted likewise (R235). -/
def State.closeSupervisorQueue (s : State) (f : Fin 8) : State :=
  let x := s.frame f
  let n := x.queue.length + x.waiting.length
  let s := (if n = 0 then s else s.odAdd 32 0x2703 0x01 n).setFrame f { x with queue := [], waiting := [] }
  x.waiting.foldl (fun s p => (s.takeApron p).supervisorRefusal (s.pktSource p.header) f.val) s

/-- The frame of a post to the watch collector. -/
def postFrame : WatchPost → Nat
  | .record f _ _ _ _ _ _ _ _ => f
  | .marker f _ _ _ => f

/-- The collector discards the frame's open steps (R214). -/
def State.dropPosts (s : State) (f : Fin 8) : State :=
  { s with
    posts := s.posts.filter fun p => postFrame p != f.val
    posting := s.posting.filter fun p => postFrame p != f.val }

/-- The remote operations of a tile are abandoned: their tags wait for what answers them (R231, R501). -/
def Tile.abandonRemote (x : Tile) : Tile :=
  { x with tags := x.tags.map fun p => (p.1, p.2.map fun o => { o with gone := true }) }

/-- The link requests of a frame's tiles are abandoned (R501). -/
def State.abandonLinks (s : State) (f : Fin 8) : State :=
  let drop (r : Option Requester) : Option Requester := match r with
    | some (.dma t k g p) => if g = f.val then some .abandoned else some (.dma t k g p)
    | q => q
  { s with links := s.links.map fun l => (l.1, { l.2 with tags := l.2.tags.map fun x => (x.1, drop x.2) }) }

/-- The frame goes down in its step (R325). -/
def Frame.goesDown (y : Frame) : Frame :=
  match y.latched with
  | some l => { y with downs := (y.step, l.job) :: y.downs.erase (y.step, l.job) }
  | none => y

/-- A frame goes to FAULTED (R34, R407, R408, R501): its tiles stop as they stand and its queues close; the
first cause is recorded with the tile and detail, a later one only counted. An EMPTY frame has no fault. -/
def State.frameFault (s : State) (f : Fin 8) (cause tile detail : Nat) : State :=
  let x := s.frame f
  if x.st = .empty then s else
  let s := s.count32 (0x2D10 + f.val) 0x05
  if x.st = .faulted then s else
  let s := s.setFrame f { x.goesDown with
    st := .faulted, endedAll := false, transition := none, causeHeld := true }
  let s := (s.frameTiles f).foldl (fun s t =>
    (s.closeQueues t).modTile t Tile.abandonRemote) s
  let s := ((s.closeSupervisorQueue f).dropPosts f).abandonLinks f
  if x.causeHeld then s else
  let s := (((s.odSet (frameIndex f) 0x0C cause).odSet (0x2D10 + f.val) 0x01 cause).odSet
    (0x2D10 + f.val) 0x02 tile).odSet (0x2D10 + f.val) 0x03 detail
  (s.odSet (0x2D10 + f.val) 0x04 s.supCycles).logEvent 0x0100 (cause + f.val * 2 ^ 16)

end Sys2Proof.Machine
end

