-- ==== Sys2Proof/Machine/Memory.lean ====
section
/-! DEFINITION. Memory: protected reads and writes of tile memories, stacks and staging memory (R83–R102,
R274–R295), the stack address map and the checks an access meets. -/

namespace Sys2Proof.Machine

/-! ### Codes (R288, R292, R293) -/

/-- What a decoder finds in one protected unit. -/
inductive Found where
  | clean
  | corrected
  | uncorrectable
  | poisoned
  | miscorrected
  | missed
  deriving DecidableEq, Repr

/-- A decoder that corrects `corr` and detects `det` errors, for a unit that is not poisoned (R288, R293); where the
paired decoders disagree the data is taken as uncorrectable (R296, R406). -/
def findErrors (corr det : Nat) (e : CellErr) (draw : Nat) : Found :=
  if e.split then .uncorrectable
  else if e.bits = 0 then .clean
  else if e.bits ≤ corr then .corrected
  else if e.bits ≤ det then .uncorrectable
  else match Config.beyondCode draw with
    | 0 => .uncorrectable
    | 1 => .miscorrected
    | _ => .missed

/-- A 128-bit group of main memory: the poison pattern is recognised before decoding (R292). -/
def findGroup (strong : Bool) (e : CellErr) (draw : Nat) : Found :=
  let corr := if strong then 2 else 1
  if e.poison && !e.split then
    (if e.bits ≤ corr then .poisoned else findErrors corr (corr + 1) { e with bits := corr + 2 } draw)
  else findErrors corr (corr + 1) e draw

/-- A stack block: any symbol errors first, then the poison flag (R293, R294). -/
def findBlock (e : CellErr) (draw : Nat) : Found :=
  match findErrors 1 3 e draw with
  | .uncorrectable => .uncorrectable
  | f => if e.poison then .poisoned else f

/-- The data bytes of a unit as the decoder delivers them: all ones where it is uncorrectable or poisoned
(R291, R294), free where its errors passed the code (R288). -/
def Found.data (f : Found) (draw a : Nat) (bytes : List Byte) : List Byte :=
  match f with
  | .clean => bytes
  | .corrected => bytes
  | .uncorrectable => List.replicate bytes.length 0xFF
  | .poisoned => List.replicate bytes.length 0xFF
  | .miscorrected => (List.range bytes.length).map fun i => Config.miscorrected draw (a + i)
  | .missed => (List.range bytes.length).map fun i => Config.miscorrected draw (a + i)

/-- The decoder counts a corrected error. -/
def Found.counts (f : Found) : Bool := f == .corrected || f == .miscorrected
/-- The data cannot be used. -/
def Found.bad (f : Found) : Bool := f == .uncorrectable || f == .poisoned

/-- A disagreement of paired decoders is a device hardware fault, event 0x0500 with the code of OD 0x2807 (5 for a
stack) in [3:0] and the tile ID or pseudo-channel in [31:8] (R406, R432). -/
def State.logSplit (s : State) (e : CellErr) (code unit : Nat) : State :=
  if e.split then s.logEvent 0x0500 (code + unit * 2 ^ 8) else s

/-- The errors held in the units of `[lo, lo + len)`. -/
def errsIn (m : SMap CellErr) (lo len : Nat) : List (Nat × CellErr) :=
  m.filter fun p => decide (lo ≤ p.1) && decide (p.1 < lo + len)

/-- The errors of `[lo, lo + len)` gone: the units have been written. -/
def errsClear (m : SMap CellErr) (lo len : Nat) : SMap CellErr := sclear m lo (lo + len)

/-- What a protected read delivers: data, and whether it cannot be used. -/
structure ReadOut where
  data : List Byte
  bad : Bool := false
  deriving DecidableEq, Repr

/-! ### Main memory (R83–R95, R288–R292) -/

/-- TSW2 of the tile's frame (R104); 0 outside every frame. -/
def State.tileCycles (s : State) (t : Nat) : Nat :=
  match s.frameOf t with
  | some f => (s.frame f).cycles
  | none => 0

/-- The bank's mode: 1 strong (R89). -/
def Tile.strong (x : Tile) (row : Nat) : Bool := bit x.decl.modes (row / 128)

/-- A row becomes pending for a row test (R409). -/
def State.pendRow (s : State) (t row : Nat) : State :=
  if s.tests.rows.contains (t, row) then s
  else { s with tests := { s.tests with rows := s.tests.rows ++ [(t, row)] } }

/-- A running row read. -/
structure RowScan where
  data : List Byte
  ce : Bool := false
  ue : Bool := false
  poison : Bool := false
  s : State

/-- One group with errors met by a row read: TSW16–TSW22 and TSW24 (R290), TSW25 (R291, R292). -/
def scanGroup (t row req cyc : Nat) (r : RowScan) (p : Nat × CellErr) : RowScan :=
  let d := r.s.draw
  let x := r.s.tile t
  let g := p.1 % 512 / 16
  let found := findGroup (x.strong row) p.2 d.1
  let word := row + g * 2 ^ 10 + b2n (x.strong row) * 2 ^ 15 + (cyc % 2 ^ 32) * 2 ^ 32
  let data := splice r.data (16 * g) (found.data d.1 p.1 (slice r.data (16 * g) 16))
  let s := d.2.logSplit p.2 (b2n (!(x.strong row))) t
  if found.counts then
    { r with
      data := data
      ce := true
      s := s.modTile t fun x => { x with cnt := { x.cnt with
        ce := x.cnt.ce.setIfInBounds (row / 128) (satAdd 32 (x.cnt.ce.getD (row / 128) 0) 1)
        lastCe := word } } }
  else if found.bad then
    { r with
      data := data
      ue := r.ue || found == .uncorrectable
      poison := r.poison || found == .poisoned
      s := s.modTile t fun x => { x with cnt := { x.cnt with
        lastUe := word + req * 2 ^ 16 + b2n (found == .poisoned) * 2 ^ 19 } } }
  else { r with data := data, s := s }

/-- The groups of a row through the corrector, for requester `req` of R92. -/
def State.scanRow (s : State) (t row req : Nat) : RowScan :=
  let a := mainAddr t (row * 512)
  (errsIn s.errs a 512).foldl (scanGroup t row req (s.tileCycles t)) { data := s.mem.read a 512, s := s }

/-- What a row read counts and reports beside its groups (R291, R292, R409). -/
def RowScan.close (r : RowScan) (t row : Nat) : State :=
  let s := if r.ue then
      let s := (r.s.modTile t fun x => { x with cnt := { x.cnt with ue := satAdd 32 x.cnt.ue 1 } })
      let s := if r.poison then s else s.pendRow t row
      s.logEvent 0x0200 (t + row * 2 ^ 16)
    else r.s
  if r.poison then s.count64 0x2806 0x03 else s

/-- A row read through the corrector by requester `req` of R92 (R289–R292, R409). -/
def State.readRow (s : State) (t row req : Nat) : ReadOut × State :=
  let r := s.scanRow t row req
  (⟨r.data, r.ue || r.poison⟩, r.close t row)

/-- A whole row written; a poisoned row takes the poison pattern in every group (R85, R292). -/
def State.writeRow (s : State) (t row : Nat) (data : List Byte) (poison : Bool) : State :=
  let a := mainAddr t (row * 512)
  let errs := errsClear s.errs a 512
  { s with
    mem := s.mem.write a (if poison then List.replicate 512 0xFF else data)
    errs := if poison then
        (List.range 32).foldl (fun m g => sput {} m (a + 16 * g) { poison := true }) errs
      else errs }

/-! ### Core scratch (R96, R97) -/

/-- `n` bytes of core scratch; the offset of a byte that is uncorrectable, if any (R96, TSW26). -/
def State.readScratch (s : State) (t off n : Nat) : ReadOut × Option Nat × State :=
  let a := scratchAddr t off
  (errsIn s.errs a n).foldl (fun r p =>
    let d := r.2.2.draw
    let found := findErrors 1 2 p.2 d.1
    let o := p.1 - scratchAddr t 0
    let data := splice r.1.data (p.1 - a) (found.data d.1 p.1 (slice r.1.data (p.1 - a) 1))
    if found.bad then
      (⟨data, true⟩, some (r.2.1.getD o),
        ((d.2.logSplit p.2 2 t).modTile t fun x => { x with cnt := { x.cnt with
          scratchUe := satAdd 16 x.cnt.scratchUe 1, scratchLast := o } }).logEvent 0x0205 t)
    else if found.counts then
      (⟨data, r.1.bad⟩, r.2.1, d.2.modTile t fun x => { x with cnt := { x.cnt with
        scratchCe := satAdd 16 x.cnt.scratchCe 1, scratchLast := o } })
    else (⟨data, r.1.bad⟩, r.2.1, d.2)) (⟨s.mem.read a n, false⟩, none, s)

/-- Bytes written to core scratch (R96). -/
def State.writeScratch (s : State) (t off : Nat) (data : List Byte) : State :=
  let a := scratchAddr t off
  { s with mem := s.mem.write a data, errs := errsClear s.errs a data.length }

/-! ### Stat memory (R100) -/

/-- A line of stat memory (R100, TSW27). -/
def State.readLine (s : State) (t line : Nat) : ReadOut × State :=
  let a := statAddr t (64 * line)
  (errsIn s.statErrs a 64).foldl (fun r p =>
    let d := r.2.draw
    let found := findErrors 1 2 p.2 d.1
    let data := splice r.1.data (p.1 - a) (found.data d.1 p.1 (slice r.1.data (p.1 - a) 8))
    if found.bad then
      (⟨data, true⟩,
        ((d.2.logSplit p.2 3 t).modTile t fun x => { x with cnt := { x.cnt with
          statUe := satAdd 16 x.cnt.statUe 1, statLast := line } }).logEvent 0x0205 (t + 2 ^ 16))
    else if found.counts then
      (⟨data, r.1.bad⟩, d.2.modTile t fun x => { x with cnt := { x.cnt with
        statCe := satAdd 16 x.cnt.statCe 1, statLast := line } })
    else (⟨data, r.1.bad⟩, d.2)) (⟨s.stat.read a 64, false⟩, s)

/-- A line of stat memory written whole (R100). -/
def State.writeLine (s : State) (t line : Nat) (data : List Byte) : State :=
  let a := statAddr t (64 * line)
  { s with stat := s.stat.write a data, statErrs := errsClear s.statErrs a 64 }

/-! ### Windows (R101, R102) -/

/-- A unit lies in a window. -/
def Window.has (w : Window) (u : Nat) : Bool := decide (w.base ≤ u) && decide (u < w.base + w.count)

/-- The guest and evaluation windows of memory 0 main, 1 scratch, 2 stat. -/
def TileDecl.guestWindow (d : TileDecl) (mem : Nat) : Window :=
  if mem = 0 then d.guestRows else if mem = 1 then d.guestScratch else d.guestStat
def TileDecl.evalWindow (d : TileDecl) (mem : Nat) : Window :=
  if mem = 0 then d.evalRows else if mem = 1 then d.evalScratch else d.evalStat

/-- The table of R101. Units are rows, 256 bytes of scratch, lines. -/
def TileDecl.allows (d : TileDecl) (ctx : Nat) (write : Bool) (mem u : Nat) : Bool :=
  let g := (d.guestWindow mem).has u
  let e := (d.evalWindow mem).has u
  if ctx = 2 then g
  else if ctx = 1 then (if write then e else !g)
  else if write then !g && !e else !g

/-- TSW15 for an access that R101 does not allow (R102). -/
def State.windowRefusal (s : State) (t ctx mem u : Nat) : State :=
  s.modTile t fun x => { x with cnt := { x.cnt with
    winRefusals := satAdd 32 x.cnt.winRefusals 1, winPlace := u, winMemory := mem, winContext := ctx } }

/-! ### The stack address map (R280–R282, R303) -/

/-- The default content of a table object that is not all zero; that of the route table follows the device number
(R380). -/
def tableDefault (i : Nat) : List Byte :=
  if i = 0x2810 then List.replicate 384 1
  else if i = 0x2D30 then (List.range 256).map fun k => if k % 32 = 6 ∨ k % 32 = 7 then 0xFF else 0
  else if 0x2C30 ≤ i ∧ i < 0x2C40 then List.replicate 8192 0xFF
  else []

/-- `n` bytes at `off` of a table object; an empty table holds its default content, and where none is
listed, zeros. -/
def State.tableBytes (s : State) (i off n : Nat) : List Byte :=
  let t := sget [] s.tables i
  let t := if !t.isEmpty then t
    else if i = 0x2B01 then (List.range 4096).map fun d => if d = s.odGet 0x2B02 0x01 0 then 0x1E else 0x1F
    else tableDefault i
  let b := slice t off n
  b ++ zeroBytes (n - b.length)

/-- Region `r` of a stack is in interleaved mode (OD 0x2810). -/
def State.interleaved (s : State) (stack r : Nat) : Bool := s.tableBytes 0x2810 (96 * stack + r) 1 == [1]

/-- Where a stack address lies: its channel, pseudo-channel and the address within the pseudo-channel. -/
structure StackPlace where
  stack : Nat
  channel : Nat
  pseudo : Nat
  loc : Nat
  deriving DecidableEq, Repr

/-- The index of a pseudo-channel: 64 × stack + 2 × channel + pseudo-channel (R305). -/
def StackPlace.pc (p : StackPlace) : Nat := 64 * p.stack + 2 * p.channel + p.pseudo

/-- The mapping of R280 to R282 for the address at offset `o` of a stack. -/
def State.stackPlace (s : State) (stack o : Nat) : StackPlace :=
  let r := o / 2 ^ 30
  let x := o % 2 ^ 30
  let slot := r / 32
  let cs := (List.range 32).filter fun q => s.interleaved stack (32 * slot + q)
  let p : Nat × Nat :=
    if s.interleaved stack r then
      let y := cs.idxOf (r % 32) * 2 ^ 30 + x
      let b := y / 4096
      (cs.getD (b % cs.length) 0, slot * 2 ^ 30 + b / cs.length * 4096 + y % 4096)
    else (r % 32, slot * 2 ^ 30 + x)
  let ps := if p.2 < 0x60000000 then 0 else 1
  ⟨stack, p.1, ps, p.2 - 0x60000000 * ps⟩

def State.pcOf (s : State) (i : Nat) : PseudoChannel := sget {} s.pcs i
def State.modPc (s : State) (i : Nat) (f : PseudoChannel → PseudoChannel) : State :=
  { s with pcs := smod {} s.pcs i f }

/-- A pseudo-channel's addresses are backed (R275, R302, R303). -/
def State.pcBacked (s : State) (i : Nat) : Bool := decide ((s.pcOf i).state = 0) && !(s.pcOf i).absent

/-- A device address range is backed for an access that may reach stacks and staging memory (R279). -/
def State.stackBacked (s : State) (a : Nat) : Bool :=
  match regionOf a with
  | .stack n o => s.pcBacked (s.stackPlace n o).pc
  | _ => false

/-- An access of frame `f` in context `ctx` may reach the channel (R284, R397). -/
def State.channelHeld (s : State) (f : Fin 8) (ctx stack channel : Nat) : Bool :=
  match (s.frame f).latched with
  | none => false
  | some l =>
    let b := (stack % 2) * 32 + channel
    let held := bit (if stack < 2 then l.channels01 else l.channels23) b
    let guest := bit (if stack < 2 then l.guest01 else l.guest23) b
    if ctx = 2 then held && guest else held && !guest

/-! ### Stack blocks (R283, R285, R294) -/

/-- The group of a stack address: 3 × stack + slot. -/
def stackGroup (a : Nat) : Nat := 3 * (a / stackSize) + a % stackSize / 2 ^ 35

/-- The stored bytes of a block: undefined since a change of its group's modes until written (R283). -/
def State.blockBytes (s : State) (a : Nat) : List Byte :=
  let u := sget 0 s.undefinedGroups (stackGroup a)
  if u ≠ 0 ∧ sget false s.rewritten a = false then
    (List.range 64).map fun i => Config.undefinedByte u (a + i)
  else s.mem.read a 64

/-- A pseudo-channel becomes pending for a test of the 4 KiB block (R411). -/
def State.pendPc (s : State) (pc block : Nat) : State :=
  if s.tests.pcs.any fun p => p.1 == pc then s
  else { s with tests := { s.tests with pcs := s.tests.pcs ++ [(pc, block)] } }

/-- OD 0x2805.01 (R305): kind 0 CE, 1 UE, 2 poisoned. -/
def State.lastStackError (s : State) (a kind pc loc : Nat) : State :=
  (s.odSet 0x2805 0x01 (a + kind * 2 ^ 48 + pc * 2 ^ 50)).modPc pc fun p => { p with lastError := loc / 64 }

/-- The pseudo-channel of a stack address is retiring (R302). -/
def State.placeRetiring (s : State) (a : Nat) : Bool :=
  (s.pcOf (s.stackPlace (a / stackSize) (a % stackSize)).pc).retiring.isSome

/-- An uncorrectable block is counted, recorded and logged, and its pseudo-channel is to be tested (R294, R411). -/
def State.blockLost (s : State) (a : Nat) : State :=
  let p := s.stackPlace (a / stackSize) (a % stackSize)
  let s := (s.modPc p.pc fun q => { q with ue := satAdd 32 q.ue 1 }).count64 0x2804 (5 + p.stack)
  ((s.lastStackError a 1 p.pc p.loc).pendPc p.pc (p.loc / 4096)).logEvent 0x0300 (p.pc + (p.loc / 4096) * 2 ^ 8)

/-- What the decoder of a stack finds of a block, by the errors it holds (R293, R302). -/
def State.findAt (s : State) (a draw : Nat) : Found :=
  if s.placeRetiring a then .uncorrectable
  else match errsIn s.errs a 64 with
    | [] => .clean
    | (_, e) :: _ => findBlock e draw

/-- One 64-byte block of a stack read through the decoder (R294); a read in flight while its pseudo-channel retires is
uncorrectable (R302). -/
def State.readBlock (s : State) (a : Nat) : ReadOut × State :=
  let bytes := s.blockBytes a
  match s.placeRetiring a, errsIn s.errs a 64 with
  | false, [] => (⟨bytes, false⟩, s)
  | _, es =>
    let d := s.draw
    let found := s.findAt a d.1
    let p := s.stackPlace (a / stackSize) (a % stackSize)
    let out : ReadOut := ⟨found.data d.1 a bytes, found.bad⟩
    match found with
    | .clean => (out, d.2)
    | .missed => (out, d.2)
    | .uncorrectable => (out, (d.2.logSplit ((es.head?.map (·.2)).getD {}) 5 p.pc).blockLost a)
    | .poisoned =>
      (out, (d.2.count64 0x2804 (9 + p.stack)).lastStackError a 2 p.pc p.loc)
    | .corrected =>
      (out, ((d.2.modPc p.pc fun q => { q with ce := satAdd 64 q.ce 1 }).count64 0x2804 (1 + p.stack)).lastStackError
        a 0 p.pc p.loc)
    | .miscorrected =>
      (out, ((d.2.modPc p.pc fun q => { q with ce := satAdd 64 q.ce 1 }).count64 0x2804 (1 + p.stack)).lastStackError
        a 0 p.pc p.loc)

/-- One 64-byte block of a stack written; the poison flag is set or cleared with it (R294). A write in flight while its
pseudo-channel retires is dropped (R302). -/
def State.writeBlock (s : State) (a : Nat) (data : List Byte) (poison : Bool) : State :=
  if s.placeRetiring a then s else
  { s with
    mem := s.mem.write a data
    errs := sput {} (errsClear s.errs a 64) a { poison := poison }
    rewritten := if sget 0 s.undefinedGroups (stackGroup a) = 0 then s.rewritten
      else sput false s.rewritten a true }

/-- `n` bytes of stack from a block-aligned address, one block after another. -/
def State.readBlocks (s : State) (a : Nat) : (blocks : Nat) → ReadOut × State
  | 0 => (⟨[], false⟩, s)
  | n + 1 =>
    let r := s.readBlock a
    let q := r.2.readBlocks (a + 64) n
    (⟨r.1.data ++ q.1.data, r.1.bad || q.1.bad⟩, q.2)

/-- Whole blocks of stack written, all of them poisoned or none. -/
def State.writeBlocks (s : State) (a : Nat) (data : List Byte) (poison : Bool) : State :=
  ((chunks 64 data.length data).zipIdx).foldl (fun s p => s.writeBlock (a + 64 * p.2) p.1 poison) s

/-! ### Staging memory (R288, R294, R295) -/

/-- Bytes of staging memory, each 64-bit word through its code (R288). -/
def State.readStaging (s : State) (a n : Nat) : ReadOut × State :=
  (errsIn s.errs (a / 8 * 8) (a % 8 + n + 7)).foldl (fun r p =>
    if a + n ≤ p.1 then r else
    let d := r.2.draw
    let found := findErrors 1 2 p.2 d.1
    let bytes := found.data d.1 p.1 (r.2.mem.read p.1 8)
    let data := ((List.range n).zip r.1.data).map fun q =>
      if p.1 ≤ a + q.1 ∧ a + q.1 < p.1 + 8 then bytes.getD (a + q.1 - p.1) 0 else q.2
    (⟨data, r.1.bad || found.bad⟩, d.2.logSplit p.2 4 0)) (⟨s.mem.read a n, false⟩, s)

/-- The words of staging memory that a write of `n` bytes at `a` merges with (R295). -/
def partWords (a n : Nat) : List Nat :=
  (if a % 8 ≠ 0 then [a / 8 * 8] else []) ++ (if (a + n) % 8 ≠ 0 then [(a + n) / 8 * 8] else [])

/-- Bytes written to staging memory, and whether they were: each word written in part is read first, and where one reads
uncorrectable nothing is written (R295). -/
def State.writeStaging (s : State) (a : Nat) (data : List Byte) : Bool × State :=
  if data.isEmpty then (true, s) else
  let r := (partWords a data.length).foldl (fun q w => let r := q.2.readStaging w 8; (q.1 || r.1.bad, r.2)) (false, s)
  if r.1 then (false, r.2) else
  let s := r.2
  (true, { s with
    mem := s.mem.write a data
    errs := errsClear s.errs (a / 8 * 8) ((a + data.length + 7) / 8 * 8 - a / 8 * 8) })

/-! ### Device ranges of stacks and staging memory -/

/-- Every 64-byte block of `[a, a + n)` is backed stack or staging memory. -/
def State.rangeBacked (s : State) (a n : Nat) : Bool :=
  (List.range (ceilDiv n 64)).all fun i =>
    match regionOf (a + 64 * i) with
    | .stack k o => s.pcBacked (s.stackPlace k o).pc
    | .staging _ => true
    | _ => false

/-- `n` bytes of stacks or staging memory at `a` (for stacks `a` is the start of a block). -/
def State.readDevice (s : State) (a n : Nat) : ReadOut × State :=
  match regionOf a with
  | .stack _ _ =>
    let r := s.readBlocks (a / 64 * 64) (ceilDiv (a % 64 + n) 64)
    (⟨slice r.1.data (a % 64) n, r.1.bad⟩, r.2)
  | .staging _ => s.readStaging a n
  | _ => (⟨zeroBytes n, true⟩, s)

/-- Whole blocks written to stacks or staging memory. Staging memory has no poison form (R294): a poisoned
write to it changes nothing and answers false. -/
def State.writeDevice (s : State) (a : Nat) (data : List Byte) (poison : Bool) : Bool × State :=
  match regionOf a with
  | .stack _ _ => (true, s.writeBlocks a data poison)
  | .staging _ => if poison then (false, s) else s.writeStaging a data
  | _ => (false, s)

/-! ### One row through a memory gateway (R284, R294, R233) -/

/-- A row access of frame `f` in context `ctx` to stacks or staging memory is checked block by block: 0, or the refusal
code (R233, R284, R397). -/
def State.gatewayCheck (s : State) (f : Fin 8) (ctx a : Nat) : Nat :=
  if a % 512 ≠ 0 then 5 else
  match regionOf a with
  | .staging _ => 0
  | .stack n o =>
    let ps := (List.range 8).map fun i => s.stackPlace n (o + 64 * i)
    if ps.any fun p => !(s.pcBacked p.pc) then 5
    else if ps.any fun p => !(s.channelHeld f ctx p.stack p.channel) then 7 else 0
  | _ => 5

/-- A row access waits for the transactions in flight of a pseudo-channel that retires (R302). -/
def State.gatewayWaits (s : State) (f : Fin 8) (ctx a : Nat) : Bool :=
  s.gatewayCheck f ctx a == 0 && (match regionOf a with
    | .stack _ _ => (List.range 8).any fun i => s.placeRetiring (a + 64 * i)
    | _ => false)

/-- A gateway row read: status, row, next state (R294: an uncorrectable block answers code 0x6). -/
def State.gatewayRead (s : State) (f : Fin 8) (ctx a : Nat) : Nat × List Byte × State :=
  let c := s.gatewayCheck f ctx a
  if c ≠ 0 then (c, [], s) else
  let r := s.readDevice a 512
  (if r.1.bad then 6 else 0, r.1.data, r.2)

/-- A device range touches the result area, which only the supervisor writes (R448). -/
def touchesResults (a n : Nat) : Bool := decide (a < resultBase + 0x4000) && decide (resultBase < a + n)

/-- A gateway row write: status and next state (R294, R448). -/
def State.gatewayWrite (s : State) (f : Fin 8) (ctx a : Nat) (data : List Byte) (poison : Bool) : Nat × State :=
  let c := if touchesResults a 512 then 5 else s.gatewayCheck f ctx a
  if c ≠ 0 then (c, s) else
  let r := s.writeDevice a data poison
  (if r.1 then 0 else 6, r.2)

/-! ### Word access to a table of this device in its stacks -/

/-- A table of the user in the stacks or staging memory, read for a unit of the device (no frame's channel
check applies): `none` where it is not backed or reads uncorrectable. -/
def State.readTable (s : State) (a n : Nat) : Option (List Byte) × State :=
  if !(s.rangeBacked (a / 64 * 64) (a % 64 + n)) then (none, s) else
  let r := s.readDevice a n
  (if r.1.bad then none else some r.1.data, r.2)

/-- Bytes of a table written back: each block touched is read, merged and written whole (R285). A block
that reads uncorrectable is left unchanged. -/
def State.mergeBlock (s : State) (a off : Nat) (new : List Byte) : State :=
  let r := s.readBlock a
  if r.1.bad then r.2 else r.2.writeBlock a (splice r.1.data off new) false

/-- Bytes that lie within one 64-byte block or run over several, written into the stacks or staging. -/
def State.writeTable (s : State) (a : Nat) (data : List Byte) : State :=
  match regionOf a with
  | .staging _ => (s.writeStaging a data).2
  | .stack _ _ =>
    (List.range (ceilDiv (a % 64 + data.length) 64)).foldl (fun s i =>
      let b := a / 64 * 64 + 64 * i
      let lo := if i = 0 then a % 64 else 0
      let from_ := b + lo - a
      if s.stackBacked b then s.mergeBlock b lo (slice data from_ (64 - lo)) else s) s
  | _ => s

end Sys2Proof.Machine
end

