-- ==== Sys2Proof/Machine/Trap.lean ====
section
/-! DEFINITION. Trap: taking a trap, the one operation every cause goes through (R264–R268), its end, and the
return from a handler. -/

namespace Sys2Proof.Machine

/-- TSW48 or TSW53 as a word (R268). -/
def TrapWord.word (w : TrapWord) : Nat :=
  w.cause + w.context * 2 ^ 8 + b2n w.faulted * 2 ^ 10 + b2n w.handler * 2 ^ 11 + w.refusal * 2 ^ 12 +
    w.engine * 2 ^ 16 + w.taken * 2 ^ 32

/-- Where the save area of a context begins in core scratch (R265, R267). -/
def Tile.saveArea (x : Tile) (ctx : Nat) : Nat :=
  if ctx = 2 then 256 * (x.decl.guestScratch.base + x.decl.guestScratch.count) - 256 else 0x3F00

/-- The context's trap vector takes a software trap (R266); in the guest context no trap has a handler
(R264, R267). -/
def Tile.hasHandler (x : Tile) (ctx : Nat) : Bool := ctx != 2 && (x.ctx ctx).vector.isSome

/-- A trap raised while the handler flag is set is a nested trap (R264, cause 0x09). -/
def nestTrap (c : RegContext) (q : TrapCause) : TrapCause :=
  if c.handler then
    { q with cause := 9, detail := q.cause + c.handlerIx * 2 ^ 8, refusal := 0, engine := 0 }
  else q

/-- The content of the save area (R265). -/
def saveBytes (c : RegContext) (ctx : Nat) (w : TrapWord) (q : TrapCause) (cycle step : Nat) : List Byte :=
  leBytes 8 w.word ++ leBytes 8 q.pc.toNat ++ leBytes 8 q.word ++ leBytes 8 q.detail ++
    leBytes 8 (c.flags.word + ctx * 16) ++ leBytes 8 cycle ++ leBytes 8 step ++ zeroBytes 8 ++
    (c.k.toList.flatMap fun k => leBytes 4 k.toNat) ++
    (((c.g.toList.drop 1).take 20).flatMap fun g => leBytes 8 g.toNat)

/-- Trap entry: TSW48 (TSW53 in the guest context) to TSW52 and the save area are written and the entry is in
progress (R264, R265, R267). -/
def State.enterTrap (s : State) (t : Nat) (f : Fin 8) (q0 : TrapCause) : State :=
  let x := s.tile t
  let ctx := x.active
  let c := x.ctx ctx
  let q := nestTrap c q0
  let old := if ctx = 2 then x.trap.guest else x.trap.main
  let w : TrapWord :=
    { cause := q.cause, context := ctx
      faulted := ctx != 2 && !(q.cause = 7 && x.hasHandler ctx)
      handler := c.handler
      refusal := if q.cause = 5 then q.refusal else 0
      engine := q.engine
      taken := satAdd 32 old.taken 1 }
  let cycle := (s.frame f).cycles
  let s := s.writeScratch t (x.saveArea ctx) (saveBytes c ctx w q cycle (s.frame f).step)
  s.modTile t fun x => { x with
    wait := .none
    trap := { x.trap with
      main := if ctx = 2 then x.trap.main else w
      guest := if ctx = 2 then w else x.trap.guest
      pc := q.pc.toNat
      word := q.word
      detail := q.detail
      cycle := cycle
      entry := some q } }

/-- A trap is raised: it is taken, or held while another trap's entry is in progress (R265). -/
def State.raiseTrap (s : State) (t : Nat) (f : Fin 8) (q : TrapCause) : State :=
  if (s.tile t).trap.entry.isSome then
    s.modTile t fun x => { x with trap := { x.trap with held := x.trap.held ++ [q] } }
  else s.enterTrap t f q

/-- The count of traps taken raised by the held traps that only add to it (R265). -/
def TrapWord.addHeld (w : TrapWord) (n : Nat) : TrapWord := { w with taken := satAdd 32 w.taken n }

/-- Trap entry with the FAULTED outcome has ended (R265). -/
def State.trapFaults (s : State) (t : Nat) (f : Fin 8) : State :=
  let n := (s.tile t).trap.held.length
  let s := s.modTile t fun x => { x with trap := { x.trap with
    entry := none, held := [], main := x.trap.main.addHeld n } }
  s.frameFault f 0x0009 t (s.tile t).trap.main.word

/-- Trap entry in the guest context has ended: the guest context of the tile halts, its tables run no more, it counts as
arrived, and the frame's guest image is faulted (R137, R267). -/
def State.trapHaltsGuest (s : State) (t : Nat) (f : Fin 8) : State :=
  let n := (s.tile t).trap.held.length
  let cause := (s.tile t).trap.guest.cause
  let s := s.modTile t fun x => { x with
    guestHalted := true
    xch := { x.xch.counted.noNext with running := none }
    trap := { x.trap with entry := none, held := [], guest := x.trap.guest.addHeld n } }
  let s := s.modFrame f fun y => { y with guestFaulted := true }
  s.logEvent 0x0101 (cause + f.val * 2 ^ 16)

/-- Entry of a software trap has ended: the handler flag is set and the core is at the vector (R266). -/
def State.trapHandles (s : State) (t : Nat) (q : TrapCause) (vector : Nat) : State :=
  s.modTile t fun x =>
    { x.modCtx x.active fun c =>
        { c.goTo (BitVec.ofNat 64 vector) with handler := true, handlerIx := q.ix } with
      trap := { x.trap with entry := none, held := x.trap.held.drop 1 } }

/-- The end of a trap's entry; after a software trap a held trap is taken, as nested (R265, R266). -/
def State.endEntry (s : State) (t : Nat) (f : Fin 8) : State :=
  let x := s.tile t
  match x.trap.entry with
  | none => s
  | some q =>
    if x.active = 2 then s.trapHaltsGuest t f
    else match (x.ctx x.active).vector with
      | none => s.trapFaults t f
      | some v =>
        if q.cause ≠ 7 then s.trapFaults t f
        else
          let s' := s.trapHandles t q v
          match x.trap.held with
          | [] => s'
          | h :: _ => s'.enterTrap t f h

end Sys2Proof.Machine
end

