-- ==== Sys2Proof/Machine/TileCore.lean ====
section
/-! DEFINITION. TileCore: what every instruction of a tile core goes through: whether the core may issue, the
checks of its fetch (R246, R247), its registers and counters, and the start of a wait (R255, R268). -/

namespace Sys2Proof.Machine

/-- The active context of a tile (R103). -/
def Tile.core (x : Tile) : RegContext := x.ctx x.active

/-- The active context changed. -/
def State.modCore (s : State) (t : Nat) (g : RegContext → RegContext) : State :=
  s.modTile t fun x => x.modCtx x.active g

/-- The frame of a tile that counts as RUNNING. -/
def State.runningFrame (s : State) (t : Nat) : Option (Fin 8) :=
  match s.frameOf t with
  | some f => if (s.frame f).st = .running then some f else none
  | none => none

/-- The tile has executed END, or counts as having done so for want of a main program (R254). -/
def Tile.hasEnded (x : Tile) : Bool := !x.main.program || x.main.ended || x.eval.ended || x.guest.ended

/-- A tile's core runs a program in its active context: the tile has not executed END, the context has a
program, and the guest context has not been halted (R101, R254, R267). -/
def Tile.runsProgram (x : Tile) : Bool :=
  !x.hasEnded && x.core.program && !(x.active == 2 && x.guestHalted)

/-- The core is free to issue its next instruction: it waits on nothing, no trap entry is in progress and no
context switch is waiting (R103, R245, R265). -/
def Tile.coreFree (x : Tile) : Bool :=
  x.runsProgram && x.wait == .none && x.trap.entry.isNone && x.switching.isNone

/-- The frame of a tile whose core may issue. -/
def State.coreReady (s : State) (t : Nat) : Option (Fin 8) :=
  match s.runningFrame t with
  | some f => if (s.tile t).coreFree then some f else none
  | none => none

/-- A trap of a core instruction, with the PC of the instruction (R265). -/
def State.coreTrap (s : State) (t : Nat) (f : Fin 8) (cause detail word : Nat) : State :=
  s.raiseTrap t f { cause := cause, detail := detail, pc := (s.tile t).core.pc, word := word }

/-- A trap that no fetched instruction raised: the word it records is free (log entry 2). -/
def State.wordlessTrap (s : State) (t : Nat) (f : Fin 8) (cause detail : Nat) : State :=
  let d := s.draw
  d.2.coreTrap t f cause detail (Config.trapWord d.1).toNat

/-- The pair that holds the PC, where the core has fetched it already (R246). -/
def Tile.heldPair (x : Tile) : Option (List Byte) :=
  match x.pair with
  | some (a, d) => if a = x.core.pc.toNat / 8 * 8 then some d else none
  | none => none

/-- The word at the PC out of its pair. -/
def Tile.wordOf (x : Tile) (pair : List Byte) : Nat := sliceNat pair (x.core.pc.toNat % 8) 4

/-- The fetch of the pair at the PC, one aligned access of 8 bytes: the word at the PC, or the trap of R247. -/
def State.fetchPair (s : State) (t : Nat) (f : Fin 8) : Option Nat × State :=
  let x := s.tile t
  let a := x.core.pc.toNat / 8 * 8
  if !(x.decl.allows x.active false 1 (a / 256)) then
    (none, (s.windowRefusal t x.active 1 (a / 256)).wordlessTrap t f 4 x.core.pc.toNat)
  else
    let r := s.readScratch t a 8
    match r.2.1 with
    | some o => (none, r.2.2.wordlessTrap t f 3 o)
    | none => (some (x.wordOf r.1.data), r.2.2.modTile t fun x => { x with pair := some (a, r.1.data) })

/-- The next instruction word of a core: of the pair it holds, or fetched (R246, R247). -/
def State.fetchWord (s : State) (t : Nat) (f : Fin 8) : Option Nat × State :=
  let x := s.tile t
  match x.core.stray with
  | some a => (none, s.wordlessTrap t f 2 a.toNat)
  | none =>
    match x.heldPair with
    | some d => (some (x.wordOf d), s)
    | none => s.fetchPair t f

/-- What a core does with a command that claims its next instruction word: the trap of its fetch; `body` where the word
is one that `claims` takes; nothing where the program holds another word or the core may not issue (log entry 5). -/
def runFetched (s : State) (t : Nat) (claims : Nat → Bool) (body : State → Fin 8 → Nat → State) : Result :=
  if s.tileCount ≤ t then .fault .noSuchTile
  else match s.coreReady t with
    | none => .next s
    | some f =>
      match s.fetchWord t f with
      | (none, s') => .next s'
      | (some w, s') => if claims w then .next (body s' f w) else .next s

/-- Instruction `i` runs on tile `t` where it is what the word at the PC stands for (R242, R243, R247). -/
def runCore (s : State) (t : Nat) (i : Instr) (body : State → Fin 8 → Nat → State) : Result :=
  runFetched s t (fun w => coreInstr t w == some i) body

/-- A register result; the core goes on (R245). -/
def State.retire (s : State) (t : Nat) (rd : Reg) (v : W64) : State :=
  s.modCore t fun c => (c.setReg rd v).advance

/-- The core goes on with nothing written. -/
def State.retireNone (s : State) (t : Nat) : State := s.modCore t RegContext.advance

/-- The core jumps. -/
def State.jumpTo (s : State) (t : Nat) (a : W64) : State := s.modCore t fun c => c.goTo a

/-- A word that R243, R248 or R253 makes illegal (cause 0x01). -/
def State.illegal (s : State) (t : Nat) (f : Fin 8) (word : Nat) : State := s.coreTrap t f 1 0 word

/-- A register operand of the active context. -/
def State.reg (s : State) (t : Nat) (r : Reg) : W64 := (s.tile t).core.reg r

/-- The core begins to wait (TSW55, R268). -/
def State.startWait (s : State) (t : Nat) (f : Fin 8) (w : Wait) : State :=
  s.modTile t fun x => { x with wait := w, waitFrom := (s.frame f).cycles }

/-- The core no longer waits. -/
def State.endWait (s : State) (t : Nat) : State := s.modTile t fun x => { x with wait := .none }

/-- A completion counter plus 1; it stays at all ones and TSW54 then sets its bit (R241). -/
def State.signal (s : State) (t ctx k : Nat) : State :=
  s.modTile t fun x =>
    let c := x.ctx ctx
    let v := (c.k.getD k 0)
    if v = 0xFFFFFFFF then
      { x with trap := { x.trap with saturated := putBit x.trap.saturated k true } }
    else x.setCtx ctx { c with k := c.k.setIfInBounds k (v + 1) }

/-- A read and a write of one local row in one tile cycle (R94). -/
def State.collide (s : State) (t row : Nat) : State :=
  let now := s.tileCycles t
  s.modTile t fun x => { x with cnt := { x.cnt with
    collisions := satAdd 32 x.cnt.collisions 1, lastCollisionRow := row, lastCollisionCycle := now % 2 ^ 32 } }

/-- What the ports made of an operation enters TSW12 to TSW14 (R93, R94; log entry 103). -/
def State.usePorts (s : State) (t : Nat) (u : PortUse) : State :=
  u.collided.foldl (fun s r => s.collide t r)
    (s.modTile t fun x => { x with cnt := { x.cnt with portWaits := satAdd 32 x.cnt.portWaits u.waits } })

/-! ### Data accesses of the core (R247) -/

/-- An address of a load or store: ra plus the sign-extended immediate (R247). -/
def coreAddress (a : W64) (imm : W16) : Nat := (a + signImm imm).toNat

/-- The checks every load and store meets, in the order of R247; the access itself is `body`. -/
def coreAccess (s : State) (t : Nat) (f : Fin 8) (word a n : Nat) (write : Bool) (body : State) : State :=
  let x := s.tile t
  if 0x3FFF < a ∨ a % n ≠ 0 then s.coreTrap t f 2 a word
  else if !(x.decl.allows x.active write 1 (a / 256)) then
    (s.windowRefusal t x.active 1 (a / 256)).coreTrap t f 4 a word
  else body

/-- A load of `n` bytes (R245, R247). -/
def State.load (s : State) (t : Nat) (f : Fin 8) (word n : Nat) (isSigned : Bool) (rd ra : Reg) (imm : W16) :
    State :=
  let a := coreAddress (s.reg t ra) imm
  let r := s.readScratch t a n
  coreAccess s t f word a n false (match r.2.1 with
    | some o => r.2.2.coreTrap t f 3 o word
    | none => r.2.2.retire t rd (extendLoad n isSigned r.1.data))

/-- A store of the low `n` bytes (R245, R247). -/
def State.store (s : State) (t : Nat) (f : Fin 8) (word n : Nat) (rs ra : Reg) (imm : W16) : State :=
  let a := coreAddress (s.reg t ra) imm
  coreAccess s t f word a n true
    ((s.writeScratch t a (leBytes n (s.reg t rs).toNat)).retireNone t)

end Sys2Proof.Machine
end

