-- ==== Sys2Proof/Machine/WatchRegion.lean ====
section
/-! DEFINITION. WatchRegion: the entries of the tracked tensors in the watch region of the stacks (R194, R217, R422). -/

namespace Sys2Proof.Machine

/-- The TID that an entry's bytes name. -/
def watchTid (b : List Byte) : Nat := sliceNat b 320 2

/-- The record of OD 0x2611 of an entry (R217). -/
def WatchEntry.stateRecord (e : WatchEntry) : List Byte :=
  leBytes 8 e.step ++ leBytes 1 e.scale ++ leBytes 1 e.history.length ++ leBytes 1 (b2n e.alarmed + 2 * b2n e.kept) ++
    leBytes 1 0 ++ leBytes 2 e.zeroRun ++ leBytes 2 0 ++ leBytes 8 e.sat ++ leBytes 8 e.flush ++
      leBytes 8 e.nonfinite ++
    leBytes 4 e.lastAmax.toNat ++ leBytes 4 e.samples ++ leBytes 4 e.abandoned ++ leBytes 4 e.maxShadow.toNat ++
    zeroBytes 8

/-- The history of an entry, 32 values newest first, and its 32 shadow bins (OD 0x2612, 0x2613). -/
def WatchEntry.historyBytes (e : WatchEntry) : List Byte :=
  (e.history.flatMap fun w => leBytes 4 w.toNat) ++ zeroBytes (4 * (32 - e.history.length))
def WatchEntry.binBytes (e : WatchEntry) : List Byte := (List.range 32).flatMap fun b => leBytes 4 (sget 0 e.bins b)

/-- A watch entry in its 512 bytes of the watch region (R194, R422; the layout is the model's, log entry 16). -/
def WatchEntry.pack (e : WatchEntry) (tid : Nat) : List Byte :=
  e.stateRecord ++ e.historyBytes ++ e.binBytes ++ leBytes 2 tid ++ zeroBytes 190

def unpackWatch (b : List Byte) : WatchEntry :=
    { step := sliceNat b 0 8, scale := sliceNat b 8 1
      history := (List.range (min 32 (sliceNat b 9 1))).map fun i => BitVec.ofNat 32 (sliceNat b (64 + 4 * i) 4)
      alarmed := bit (sliceNat b 10 1) 0, kept := bit (sliceNat b 10 1) 1, zeroRun := sliceNat b 12 2
      sat := sliceNat b 16 8, flush := sliceNat b 24 8, nonfinite := sliceNat b 32 8
      lastAmax := BitVec.ofNat 32 (sliceNat b 40 4), samples := sliceNat b 44 4, abandoned := sliceNat b 48 4
      maxShadow := BitVec.ofNat 32 (sliceNat b 52 4)
      bins := (List.range 32).foldl (fun m k => sput 0 m k (sliceNat b (192 + 4 * k) 4)) [] }


/-- Where a tensor's entry stands: the 2 MiB at OD 0x2601.01 hold 4,096 entries of 512 bytes (R194, R422). -/
def State.watchPlace (s : State) (tid : Nat) : Nat := s.odGet 0x2601 0x01 0x17FFE00000 + 512 * tid

/-- The bytes of a tensor's entry. -/
def State.watchBytes (s : State) (tid : Nat) : List Byte :=
  (List.range 8).flatMap fun i => s.blockBytes (s.watchPlace tid + 64 * i)

/-- A tensor's entry as it stands in the watch region. -/
def State.watchEntry (s : State) (tid : Nat) : WatchEntry := unpackWatch (s.watchBytes tid)

/-- The bytes of a tensor's entry written to the watch region, where its blocks are backed. -/
def State.putWatch (s : State) (tid : Nat) (b : List Byte) : State :=
  if s.rangeBacked (s.watchPlace tid) 512 then s.writeBlocks (s.watchPlace tid) b false else s

/-- A tensor's entry changed. -/
def State.setWatch (s : State) (tid : Nat) (e : WatchEntry) : State := s.putWatch tid (e.pack tid)

end Sys2Proof.Machine
end

