-- ==== Sys2Proof/Machine/WatchTile.lean ====
section
/-! DEFINITION. WatchTile: the watch unit of a tile: slots, counts, amax, the scan bit and the shadow check's
tile side (R194–R202, R209–R212). -/

namespace Sys2Proof.Machine

/-- The TID the image placed in watch slot `i` (R198, bytes 0–1); 0xFFFF unused. -/
def State.slotTid (s : State) (t i : Nat) : Nat :=
  leNat (s.stat.read (statAddr t (64 * ((s.tile t).decl.watchFirst + i))) 2)

/-- The slot of a tensor in a tile (R197, R199). -/
def State.slotOf (s : State) (t tid : Nat) : Option Nat :=
  if 0x1000 ≤ tid then none
  else (List.range (s.tile t).decl.watchLines).find? fun i => s.slotTid t i == tid

def Tile.watchSlot (x : Tile) (i : Nat) : WatchSlot := sget {} x.watch.slots i
def State.modSlot (s : State) (t i : Nat) (f : WatchSlot → WatchSlot) : State :=
  s.modTile t fun x => { x with watch := { x.watch with
    slots := smod {} x.watch.slots i fun w => { f w with dirty := true } } }

/-- Counts and amax into a slot's registers (R199, R201). -/
def WatchSlot.enter (w : WatchSlot) (c : LateCount) : WatchSlot :=
  { w with
    sat := satAdd 32 w.sat c.sat, flush := satAdd 32 w.flush c.flush
    nonfinite := satAdd 32 w.nonfinite c.nonfinite
    amax := match c.amax with | some a => f32Max w.amax a | none => w.amax
    flags := match c.amax with | some _ => putBit w.flags 2 true | none => w.flags }

/-- An operation names a tensor that has no slot (R194, R199). -/
def State.countDropped (s : State) : State := s.count32 0x2604 0x03

/-- The tile has arrived at the step-advance sync of the present step: its core has, and no table of it runs (R108,
R200). -/
def Tile.arrivedAtStep (x : Tile) : Bool :=
  match x.arrival with
  | some a => a.stepAdvance && x.xch.running.isNone
  | none => false

/-- A completed operation records its counts and amax (R196, R199, R200). -/
def State.recordWatch (s : State) (t ctx tid sat flush nonfinite : Nat) (amax : Option W32) : State :=
  if ctx ≠ 0 ∨ tid = 0xFFFF then s
  else match s.slotOf t tid with
    | none => s.countDropped
    | some i =>
      let c : LateCount := ⟨i, sat, flush, nonfinite, amax⟩
      if (s.tile t).arrivedAtStep then
        (s.count32 0x2604 0x04).modTile t fun x => { x with watch := { x.watch with late := x.watch.late ++ [c] } }
      else s.modSlot t i fun w => w.enter c

/-- Non-finite outputs of an operation: TSW28 and, for gradients of the main context, the scan bit (R159, R196,
R212). -/
def State.recordNonfinite (s : State) (t ctx n : Nat) (grad : Bool) : State :=
  if n = 0 then s else
  s.modTile t fun x => { x with
    cnt := { x.cnt with nonfinite := satAdd 32 x.cnt.nonfinite n }
    watch := { x.watch with scanBit := x.watch.scanBit || (grad && ctx == 0) } }

/-- The 128-bit configuration record of a tensor as the owning frame latched it (R195, R216). -/
def State.watchRecord (s : State) (f : Fin 8) (tid : Nat) : Option Nat :=
  match (s.frame f).latched with
  | none => none
  | some l => (l.watch.find? fun p => p.1 == tid).map (·.2)

/-- The shadow period exponent of a record: 0 selects 12, 31 off (R216). -/
def shadowPeriod (r : Nat) : Option Nat :=
  let p := bits r 22 5
  if p = 31 then none else if p = 0 then some 12 else some p

/-- The shadow rows of a slot: local rows of the BF16 copies of X and W (R198). -/
def State.shadowRows (s : State) (t i : Nat) : Nat × Nat :=
  let line := s.stat.read (statAddr t (64 * ((s.tile t).decl.watchFirst + i) + 24)) 4
  (sliceNat line 0 2, sliceNat line 2 2)

/-- The BF16 operands of a shadow job: pitch 2 × K rounded up to a multiple of 8 (R209). -/
def shadowOperand (row vectors k : Nat) : Operand :=
  ⟨{ row := row, srow := 0, pitch := ceilDiv (2 * k) 8 * 8, spitch := 0, tscale := 0, fmt := 1, rest := 0 },
    vectors, k⟩

/-- A FWD issue that names a tensor with a slot: the sampling count rises, and the operation may be sampled
(R209). Answers whether it is. -/
def State.sampleFwd (s : State) (t ctx : Nat) (f : Fin 8) (d : List Byte) : Bool × State :=
  let tid := (header d).tid
  if ctx ≠ 0 ∨ tid = 0xFFFF then (false, s) else
  match s.slotOf t tid with
  | none => (false, s)
  | some i =>
    let w := (s.tile t).watchSlot i
    let n := (w.sampling + 1) % 2 ^ 32
    let s := s.modSlot t i fun w => { w with sampling := n }
    match s.watchRecord f tid with
    | none => (false, s)
    | some r =>
      match shadowPeriod r with
      | none => (false, s)
      | some p =>
        if (n + tid) % 2 ^ p ≠ 0 then (false, s) else
        let sh := fwdShape d
        let rows := s.shadowRows t i
        if bit w.flags 1 || !((shadowOperand rows.1 sh.m sh.k).inside && (shadowOperand rows.2 sh.n sh.k).inside)
        then (false, s.count32 0x2604 0x06)
        else (true, s.modSlot t i fun w => { w with flags := putBit w.flags 1 true })

/-- A shadow job not yet complete is abandoned: when a BWD operation issues, or when the operands of another sample take
its place in the one shadow buffer (R210; log entry 104). -/
def State.abandonShadow (s : State) (t : Nat) : State :=
  match (s.tile t).watch.job with
  | none => s
  | some j =>
    let s := s.modTile t fun x => { x with watch := { x.watch with job := none } }
    let s := s.modSlot t j.slot fun w => { w with flags := putBit w.flags 1 false }
    let e := s.watchEntry j.tid
    s.setWatch j.tid { e with abandoned := satAdd 32 e.abandoned 1 }

end Sys2Proof.Machine
end

