-- ==== Sys2Proof/Machine/Engines.lean ====
section
/-! DEFINITION. Engines: the places of the engines, their accesses to tile memory and the completion of
forward, backward and row operations (R102, R175–R187, R192, R210). -/

namespace Sys2Proof.Machine

/-! ### Engines of a tile -/

/-- The engine with an ENG code: 1 FWD, 2 BWD, 3 ROW, 4 DMA (R172). -/
def Tile.engine (x : Tile) (e : Nat) : Engine :=
  match e with
  | 1 => x.fwd
  | 2 => x.bwd
  | 3 => x.row
  | _ => x.dma

def Tile.setEngine (x : Tile) (e : Nat) (g : Engine) : Tile :=
  match e with
  | 1 => { x with fwd := g }
  | 2 => { x with bwd := g }
  | 3 => { x with row := g }
  | _ => { x with dma := g }

def State.modEngine (s : State) (t e : Nat) (g : Engine → Engine) : State :=
  s.modTile t fun x => x.setEngine e (g (x.engine e))

/-- Both places are taken (R177). -/
def Engine.full (g : Engine) : Bool := g.running.isSome && g.waiting.isSome
def Engine.idle (g : Engine) : Bool := g.running.isNone

/-- An operation starts at frame cycle `now`: the status word shows its KC and OP (R192). -/
def Engine.start (g : Engine) (op : EngOp) (now : Nat) : Engine :=
  { g with running := some op, kc := bits (slot op.desc 0) 16 3, op := bits (slot op.desc 0) 8 8, busyFrom := now }

/-- An operation accepted: it starts in an idle engine, or takes the waiting place (R177). -/
def Engine.accept (g : Engine) (op : EngOp) (now : Nat) : Engine :=
  let g := { g with refused := false }
  if g.idle then g.start op now else { g with waiting := some op }

/-- Busy cycles up to frame cycle `now` (R192, [63:32]). -/
def Engine.busy (g : Engine) (now : Nat) : Nat :=
  satAdd 32 g.busyCycles (if g.idle then 0 else now - g.busyFrom)

/-- The running operation has completed; the waiting one starts (R177). -/
def Engine.next (g : Engine) (now : Nat) : Engine :=
  let g := { g with busyCycles := g.busy now, running := none }
  match g.waiting with
  | some op => ({ g with waiting := none }).start op now
  | none => g

/-- The status word of an engine (R192). -/
def Engine.word (g : Engine) (now : Nat) : Nat :=
  b2n (!g.idle) + 2 * b2n g.waiting.isSome + 4 * b2n g.refused + g.refusalCode * 2 ^ 4 + g.kc * 2 ^ 8 +
    g.op * 2 ^ 16 + g.busy now * 2 ^ 32

/-! ### Bus errors (R102, R264 cause 0x06, R265) -/

/-- The detail of an engine bus error: where it was met. -/
def busRow (r : Nat) : Nat := 2 ^ 62 + r
def busScratch (o : Nat) : Nat := 2 * 2 ^ 62 + o
def busLine (l : Nat) : Nat := 3 * 2 ^ 62 + l
def busDevice (a : Nat) : Nat := a % 2 ^ 48

/-- The first of two bus errors. -/
def firstBus (a b : Option Nat) : Option Nat := match a with | some x => some x | none => b

/-- The completion of an engine operation: its count, the waiting operation, its counter, and the trap of a
bus error it met (R177, R193, R265). -/
def State.finishOp (s : State) (t : Nat) (f : Fin 8) (e : Nat) (op : EngOp) (bus : Option Nat) : State :=
  let s := s.count64 0x2501 e
  let s := s.modEngine t e fun g => g.next (s.frame f).cycles
  let s := s.signal t op.context (bits (slot op.desc 0) 16 3)
  match bus with
  | none => s
  | some d =>
    let r := s.draw
    r.2.raiseTrap t f { cause := 6, detail := d, engine := e, pc := (s.tile t).core.pc
                        word := (Config.trapWord r.1).toNat }

/-! ### Accesses of an engine -/

/-- One row read by requester `req` in context `ctx`: a read that R101 refuses delivers a poisoned row (R102). -/
def State.engineRow (s : State) (t ctx req r : Nat) : ReadOut × State :=
  if (s.tile t).decl.allows ctx false 0 r then s.readRow t r req
  else (⟨List.replicate 512 0xFF, true⟩, s.windowRefusal t ctx 0 r)

/-- Rows read into a cache, each once; the first bad one. -/
structure EngineReads where
  cache : RowCache := []
  bus : Option Nat := none
  s : State

def readEngineRow (t ctx req : Nat) (a : EngineReads) (r : Nat) : EngineReads :=
  if a.cache.any fun p => p.1 == r then a else
  let d := a.s.engineRow t ctx req r
  { cache := sput ([], false) a.cache r (d.1.data, d.1.bad)
    bus := firstBus a.bus (if d.1.bad then some (busRow r) else none)
    s := d.2 }

def State.engineReads (s : State) (t ctx req : Nat) (rows : List Nat) : EngineReads :=
  rows.foldl (readEngineRow t ctx req) { s := s }

/-- One row written by an engine: a write that R101 refuses is dropped (R102). -/
def State.engineWrite (s : State) (t ctx r : Nat) (data : List Byte) (poison : Bool) : Option Nat × State :=
  if (s.tile t).decl.allows ctx true 0 r then (none, s.writeRow t r data poison)
  else (some (busRow r), s.windowRefusal t ctx 0 r)

/-- The touched rows of an output written whole (R175). -/
def State.writeOut (s : State) (t ctx : Nat) (b : OutBuf) (bus : Option Nat) : Option Nat × State :=
  b.rows.foldl (fun a r =>
    let w := a.2.engineWrite t ctx r (b.mem.read (512 * r) 512) (b.poisoned.contains r)
    (firstBus a.1 w.1, w.2)) (bus, s)

/-! ### Forward and backward operations -/

/-- One array's operation on the rows read: the FP32 results. -/
def matCompute (c : RowCache) (acc : Bool) (o : Operand × Operand × Operand) : List (List W32) :=
  let old := if acc then
      let bs := cacheBytes c o.2.2.base o.2.2.len
      (List.range o.2.2.vectors).map fun m => fp32At bs (m * o.2.2.ref.pitch) o.2.2.elems
    else []
  matResult (loadOperand c o.1) (loadOperand c o.2.1) old

/-- The rows an array reads: its two operands and, with ACC, its output (R175). -/
def matReads (acc : Bool) (o : Operand × Operand × Operand) : List Nat :=
  o.1.rows ++ o.2.1.rows ++ (if acc then o.2.2.rows else [])

def matElems (res : List (List W32)) : List (List OutElem) := res.map fun v => v.map fun x => { value := x }

/-- Counts of an operation's outputs (R155, R159, R199, R212). -/
def State.recordOutputs (s : State) (t : Nat) (op : EngOp) (h : Header) (b : OutBuf) (amax : Option W32) : State :=
  (s.recordNonfinite t op.context b.nonfinite h.grad).recordWatch t op.context h.tid b.sat b.flush b.nonfinite amax

/-- The forward operation completes (R167, R175, R177, R210). -/
def State.completeFwd (s : State) (t : Nat) (f : Fin 8) (op : EngOp) : State :=
  let h := header op.desc
  let o := matOperands op.desc 2 (fwdShape op.desc)
  let a := s.engineReads t op.context 1 (matReads h.acc o)
  let res := matCompute a.cache h.acc o
  let b := layOut o.2.2 h.sat (a.bus.map fun _ => 0) (matElems res) {}
  let w := a.s.writeOut t op.context b a.bus
  let s := w.2.recordOutputs t op h b none
  let s := if op.sampled then
      match s.slotOf t h.tid with
      | none => s
      | some i => (s.abandonShadow t).modTile t fun x =>
        { x with watch := { x.watch with job := some ⟨i, h.tid, op.desc, res.flatten⟩ } }
    else s
  s.finishOp t f 1 op w.1

/-- The backward operation completes: either array or both (R169, R170). -/
def State.completeBwd (s : State) (t : Nat) (f : Fin 8) (op : EngOp) : State :=
  let d := op.desc
  let h := header d
  let arrays := (if dxEnabled d then [matOperands d 2 (dxShape d)] else []) ++
    (if dwEnabled d then [matOperands d 5 (dwShape d)] else [])
  let a := s.engineReads t op.context 2 (arrays.flatMap (matReads h.acc))
  let b := arrays.foldl (fun b o =>
    layOut o.2.2 h.sat (a.bus.map fun _ => 0) (matElems (matCompute a.cache h.acc o)) b) ({} : OutBuf)
  let w := a.s.writeOut t op.context b a.bus
  let s := w.2.recordOutputs t op h b none
  let s := if dwEnabled d then s else s.count64 0x2501 0x05
  s.finishOp t f 2 op w.1

/-! ### Row operations -/

/-- One stat record (R181): a line that R101 refuses or that reads uncorrectable is bad (R102). -/
def State.statRecord (s : State) (t ctx i : Nat) : (W32 × W32) × Bool × State :=
  let line := i / 8
  if !((s.tile t).decl.allows ctx false 2 line) then ((-1, -1), true, s.windowRefusal t ctx 2 line) else
  let r := s.readLine t line
  let off := 8 * (i % 8)
  ((BitVec.ofNat 32 (sliceNat r.1.data off 4), BitVec.ofNat 32 (sliceNat r.1.data (off + 4) 4)), r.1.bad, r.2)

/-- The stat records of an operation's rows. -/
structure StatReads where
  recs : List (W32 × W32) := []
  bus : Option Nat := none
  /-- The first row whose record is bad. -/
  bad : Option Nat := none
  s : State

def State.statReads (s : State) (t ctx first n : Nat) : StatReads :=
  (List.range n).foldl (fun a m =>
    let r := a.s.statRecord t ctx (first + m)
    { recs := a.recs ++ [r.1]
      bus := firstBus a.bus (if r.2.1 then some (busLine ((first + m) / 8)) else none)
      bad := firstBus a.bad (if r.2.1 then some m else none)
      s := r.2.2 }) { s := s }

/-- One stat record written (R181): a write that R101 refuses is dropped. -/
def State.writeRecord (s : State) (t ctx i : Nat) (r : W32 × W32) : Option Nat × State :=
  if (s.tile t).decl.allows ctx true 2 (i / 8) then
    let a := statAddr t (8 * i)
    (none, { s with
      stat := s.stat.write a (leBytes 4 r.1.toNat ++ leBytes 4 r.2.toNat)
      statErrs := errsClear s.statErrs a 8 })
  else (some (busLine (i / 8)), s.windowRefusal t ctx 2 (i / 8))

/-- The operation reads the stat records its forward operation wrote (R183, R185). -/
def rowReadsStat (op : Nat) : Bool := [0x06, 0x09, 0x0A].contains op

/-- The first input row that needs a bad row of main memory: its vectors of in0 and in1, and the parameter
rows, which every row needs. -/
def firstBadRow (c : RowCache) (d : List Byte) : Option Nat :=
  let h := header d
  let sh := rowShape d
  let isBad (r : Nat) : Bool := (cacheRow c r).2
  if !(c.any fun p => p.2.2) then none
  else if (rowsTouched (512 * sh.prow) (rowParamBytes h.op h.fn sh)).any isBad then some 0
  else (List.range sh.m).find? fun m =>
    ((rowIn0 d).vecRows m).any isBad || (rowUsesIn1 h.op h.fn && ((rowIn1 d).vecRows m).any isBad) ||
      (h.acc && ((rowOut d).vecRows m).any isBad)

/-- The smaller of two rows, if any. -/
def minRow (a b : Option Nat) : Option Nat :=
  match a, b with
  | some x, some y => some (min x y)
  | some x, none => some x
  | none, y => y

/-- The rows a row operation reads: its operands, its parameter rows and, with ACC, its output. -/
def rowReads (d : List Byte) : List Nat :=
  let h := header d
  let sh := rowShape d
  (rowIn0 d).rows ++ (if rowUsesIn1 h.op h.fn then (rowIn1 d).rows else []) ++
    rowsTouched (512 * sh.prow) (rowParamBytes h.op h.fn sh) ++ (if h.acc then (rowOut d).rows else [])

/-- The per-row inputs of a row operation. -/
def rowInput (c : RowCache) (d : List Byte) (recs : List (W32 × W32)) (m : Nat) : RowInput :=
  let h := header d
  let sh := rowShape d
  let pb := rowParamBytes h.op h.fn sh
  { m := m, n := sh.n
    x := (loadOperand c (rowIn0 d)).wide m
    y := if rowUsesIn1 h.op h.fn then (loadOperand c (rowIn1 d)).wide m else []
    param := fp32At (cacheBytes c (512 * sh.prow) pb) 0 (pb / 4)
    stat := recs.getD m (0, 0)
    c0 := BitVec.ofNat 32 (bits (slot d 7) 0 32), c1 := BitVec.ofNat 32 (bits (slot d 7) 32 32) }

/-- With ACC = 1 each element becomes rne32(old + result) (R175). -/
def addOld (c : RowCache) (o : Operand) (vecs : List (List OutElem)) : List (List OutElem) :=
  let bs := cacheBytes c o.base o.len
  (vecs.zipIdx).map fun p => (p.1.zipIdx).map fun q =>
    { q.1 with value := f32Add ((fp32At bs (p.2 * o.ref.pitch + 4 * q.2) 1).headD 0) q.1.value }

/-- The row operation completes (R175, R177, R179). -/
def State.completeRow (s : State) (t : Nat) (f : Fin 8) (op : EngOp) : State :=
  let d := op.desc
  let h := header d
  let sh := rowShape d
  let seed := match (s.frame f).latched with | some l => l.seed | none => 0
  let draws := drawsOf d seed op.step
  let a := s.engineReads t op.context 3 (rowReads d)
  let st := if rowReadsStat h.op then a.s.statReads t op.context sh.stat sh.m else { s := a.s }
  let res := (List.range sh.m).map fun m => rowResult h draws (rowInput a.cache d st.recs m)
  let o := rowOut d
  let vecs := arrangeRows h draws o (res.map (·.vals))
  let vecs := if h.acc then addOld a.cache o vecs else vecs
  let b := layOut o h.sat (minRow (firstBadRow a.cache d) st.bad) vecs {}
  let w := st.s.writeOut t op.context b (firstBus a.bus st.bus)
  let w := (res.zipIdx).foldl (fun w p =>
    match p.1.record with
    | none => w
    | some r =>
      let q := w.2.writeRecord t op.context (sh.stat + p.2) r
      (firstBus w.1 q.1, q.2)) w
  let captured := if h.op = 0x03 then
      (List.range sh.m).flatMap fun m => (rowInput a.cache d st.recs m).x
    else vecs.flatMap fun v => v.map (·.value)
  let amax := if h.amax then some (captureAmax captured) else none
  (w.2.recordOutputs t op h b amax).finishOp t f 3 op w.1

end Sys2Proof.Machine
end

