-- ==== Sys2Proof/Machine/LinkOps.lean ====
section
/-! DEFINITION. LinkOps: transactions, virtual channels, tags and routes of the Uzon links (R371–R380). -/

namespace Sys2Proof.Machine

/-! ### Transaction headers (R373) -/

def txnKind (h : BitVec 128) : Nat := bits h.toNat 0 4
def txnDst (h : BitVec 128) : Nat := bits h.toNat 4 12
def txnSrc (h : BitVec 128) : Nat := bits h.toNat 16 12
def txnDfr (h : BitVec 128) : Nat := bits h.toNat 28 3
def txnSfr (h : BitVec 128) : Nat := bits h.toNat 31 3
def txnTag (h : BitVec 128) : Nat := bits h.toNat 34 8
def txnStatus (h : BitVec 128) : Nat := bits h.toNat 42 4
def txnFlag (h : BitVec 128) (i : Nat) : Bool := bit h.toNat (42 + i)
def txnLen (h : BitVec 128) : Nat := bits h.toNat 46 9
def txnPoison (h : BitVec 128) : Bool := bit h.toNat 55
def txnHops (h : BitVec 128) : Nat := bits h.toNat 56 8
def txnA (h : BitVec 128) : Nat := bits h.toNat 64 48
def txnB (h : BitVec 128) : Nat := bits h.toNat 112 16

/-- A frame number of a header as an index. -/
def frameIx (n : Nat) : Fin 8 := ⟨n % 8, Nat.mod_lt _ (by decide)⟩
/-- A link number as an index. -/
def linkIx (n : Nat) : Fin 24 := ⟨n % 24, Nat.mod_lt _ (by decide)⟩

structure TxnFields where
  kind : Nat
  dst : Nat
  src : Nat
  dfr : Nat := 0
  sfr : Nat := 0
  tag : Nat := 0
  flags : Nat := 0
  len : Nat := 0
  poison : Bool := false
  hops : Nat := 0
  a : Nat := 0
  b : Nat := 0
  deriving DecidableEq, Repr

def packTxn (f : TxnFields) : BitVec 128 :=
  BitVec.ofNat 128 (f.kind + f.dst * 2 ^ 4 + f.src * 2 ^ 16 + f.dfr * 2 ^ 28 + f.sfr * 2 ^ 31 + f.tag * 2 ^ 34 +
    f.flags * 2 ^ 42 + f.len * 2 ^ 46 + b2n f.poison * 2 ^ 55 + f.hops * 2 ^ 56 + f.a * 2 ^ 64 + f.b * 2 ^ 112)

/-- The virtual channel of a kind (R374). -/
def kindVc : Nat → Nat
  | 0x1 => 2
  | 0x2 => 2
  | 0x3 => 3
  | 0x4 => 4
  | 0x5 => 4
  | 0x6 => 1
  | _ => 0

/-- A kind expects a response (R374). -/
def kindAnswered (k : Nat) : Bool := [0x1, 0x2, 0x3, 0x6, 0x9].contains k

/-- The receive buffer of a virtual channel in slots (R371). -/
def vcBuffer : Nat → Nat
  | 0 => 128
  | 3 => 256
  | _ => 1024

/-! ### Links -/

def State.link (s : State) (k : Fin 24) : LinkSt := sget {} s.links k.val
def State.setLink (s : State) (k : Fin 24) (x : LinkSt) : State := { s with links := sput {} s.links k.val x }
def State.modLink (s : State) (k : Fin 24) (f : LinkSt → LinkSt) : State := s.setLink k (f (s.link k))

/-- The index block L of a link (R388). -/
def linkIndex (k : Fin 24) : Nat := 0x2B10 + 8 * k.val

/-- This device's number (OD 0x2B02.01). -/
def State.device (s : State) : Nat := s.odGet 0x2B02 0x01 0
/-- The hop limit a transaction starts with (R380). -/
def State.hopLimit (s : State) : Nat := s.odGet 0x2B02 0x02 16

/-- The route table's byte for a device (R380): no route by default, this device at its own number. -/
def State.routeTo (s : State) (dev : Nat) : Nat :=
  let t := sget [] s.tables 0x2B01
  if t.isEmpty then (if dev = s.device then 0x1E else 0x1F) else (t.getD dev 0x1F).toNat

/-- A link that takes transactions: UP, or in a test or a retrain of an UP link, which loses none (R380, R385). -/
def LinkSt.carries (l : LinkSt) : Bool := l.st == .up || l.st == .testing || l.st == .retraining

/-- The egress link of an apron unit's transaction to a device, if it takes transactions (R380). -/
def State.egress (s : State) (dev : Nat) : Option (Fin 24) :=
  let r := s.routeTo dev
  if h : r < 24 then (if (s.link ⟨r, h⟩).carries then some ⟨r, h⟩ else none) else none

/-- The slots of a transaction, the first marked as its start (R366, R373). -/
def txnSlots (x : Txn) : List (Bool × List Byte) :=
  (true, leBytes 16 x.header.toNat) :: (chunks 16 x.payload.length x.payload).map fun b => (false, b)

/-- A transaction enters the queue of its virtual channel at a link (R371, R372). -/
def State.sendTxn (s : State) (k : Fin 24) (x : Txn) : State :=
  s.modLink k fun l => { l with tx := smod [] l.tx (kindVc (txnKind x.header)) (· ++ txnSlots x) }

/-- A free tag of a link, taken for a requester (R377). -/
def State.takeTag (s : State) (k : Fin 24) (who : Requester) : Option (Nat × State) :=
  match (List.range 256).find? fun i => (sget none (s.link k).tags i).isNone with
  | none => none
  | some i => some (i, s.modLink k fun l => { l with tags := sput none l.tags i (some who) })

/-- `x` with its tag. -/
def withTag (x : Txn) (tag : Nat) : Txn :=
  { x with header := BitVec.ofNat 128 (putBits x.header.toNat 34 8 tag) }

/-- A request sent under a free tag, or none while every tag is taken. -/
def State.tryRequest (s : State) (k : Fin 24) (who : Requester) (x : Txn) : Option State :=
  match s.takeTag k who with
  | none => none
  | some (tag, s) => some (s.sendTxn k (withTag x tag))

/-- The header and payload of a request of this device. -/
def State.requestTxn (s : State) (f : TxnFields) (payload : List Byte) : Txn :=
  ⟨packTxn { f with src := s.device, hops := s.hopLimit, len := payload.length / 16 }, payload⟩

/-- A request of this device with a tag of link `k`: none while no tag is free. -/
def State.request (s : State) (k : Fin 24) (who : Requester) (f : TxnFields) (payload : List Byte) :
    Option State := s.tryRequest k who (s.requestTxn f payload)

/-- A request that waits behind those already waiting while no tag is free (R377). -/
def State.requestOrWait (s : State) (k : Fin 24) (who : Requester) (f : TxnFields) (payload : List Byte) : State :=
  let x := s.requestTxn f payload
  let wait := s.modLink k fun l => { l with waits := l.waits ++ [(who, x)] }
  if (s.link k).waits.isEmpty then (s.tryRequest k who x).getD wait else wait

/-- A tag freed, and taken by the oldest request that waits for one (R377). -/
def State.freeTag (s : State) (k : Fin 24) (tag : Nat) : State :=
  let s := s.modLink k fun l => { l with tags := sput none l.tags tag none }
  match (s.link k).waits with
  | [] => s
  | (who, x) :: rest =>
    match s.tryRequest k who x with
    | none => s
    | some s => s.modLink k fun l => { l with waits := rest }

/-- The requesters of a kind have gone: what they sent is dropped when it is answered, what waits is not sent
(R501, R402, R434). -/
def State.abandon (s : State) (p : Requester → Bool) : State :=
  (List.finRange 24).foldl (fun s k => s.modLink k fun l => { l with
    tags := l.tags.map fun q => (q.1, match q.2 with
      | some w => some (if p w then .abandoned else w)
      | none => none)
    waits := l.waits.filter fun w => !(p w.1) }) s

/-- A response to request `h`, sent by the route table; it is lost where the way back is down (R379, R380). -/
def State.respond (s : State) (h : BitVec 128) (kind status : Nat) (poison : Bool) (a b : Nat)
    (payload : List Byte) : State :=
  match s.egress (txnSrc h) with
  | none => s
  | some k => s.sendTxn k ⟨packTxn
      { kind := kind, dst := txnSrc h, src := s.device, dfr := txnSfr h, sfr := txnDfr h, tag := txnTag h
        flags := status, len := payload.length / 16, poison := poison, hops := s.hopLimit, a := a, b := b }, payload⟩

/-- An ACK with a status (R374, R375). -/
def State.ackTxn (s : State) (h : BitVec 128) (status : Nat) : State := s.respond h 0x5 status false 0 0 []

/-- One MSG of at most 96 bytes over the route to a device. -/
def State.sendMsgPart (s : State) (dev service : Nat) (payload : List Byte) : State :=
  let n := ceilDiv payload.length 16
  match s.egress dev with
  | none => s
  | some k => s.sendTxn k ⟨packTxn
      { kind := 8, dst := dev, src := s.device, hops := s.hopLimit, len := n, b := service },
      payload ++ zeroBytes (16 * n - payload.length)⟩

/-- A message of a service to a device (R374): not acknowledged, dropped where there is no way. A message to
this device itself stays inside it; its receipt is a command (log entry 24). -/
def State.sendMsg (s : State) (dev service : Nat) (payload : List Byte) : State :=
  let s := s.emit (.msg dev service payload)
  if dev = s.device then s
  else (chunks 96 payload.length payload).foldl (fun s p => s.sendMsgPart dev service p) s

/-- The response kind to a request (R374). -/
def responseKind (kind : Nat) : Nat := if kind = 3 then 4 else if kind = 9 then 0xA else 5

/-- A request is answered with a status and nothing else. -/
def State.refuseTxn (s : State) (h : BitVec 128) (status : Nat) : State :=
  s.respond h (responseKind (txnKind h)) status false 0 0 []

/-- A transaction that finds no way: answered with 0x2 where it expects an answer (R380, R387). -/
def State.unroutable (s : State) (h : BitVec 128) : State :=
  if !(kindAnswered (txnKind h)) then s else
  ((s.count32 0x2B03 0x03).odSet 0x2B03 0x07 (txnDst h + txnSrc h * 2 ^ 12 + txnKind h * 2 ^ 24)).refuseTxn h 2

/-! ### What has arrived (R371) -/

/-- The first transaction in a receive buffer, if it is whole. -/
def firstTxn (buf : List (Bool × List Byte)) : Option (Txn × List (Bool × List Byte)) :=
  match buf with
  | [] => none
  | (_, h) :: rest =>
    let hdr := BitVec.ofNat 128 (leNat h)
    let n := txnLen hdr
    if rest.length < n then none
    else some (⟨hdr, (rest.take n).flatMap (·.2)⟩, rest.drop n)

/-- A transaction is taken from the link's receive buffer of a channel where it stands at its head; its slots are freed
(R371). A command may carry a transaction that no flit of this model's state has brought. -/
def State.takeTxnOn (s : State) (k : Fin 24) (vc : Nat) (x : Txn) : State :=
  match firstTxn (sget [] (s.link k).rx vc) with
  | some (y, rest) =>
    if y = x then s.modLink k fun l =>
      { l with rx := sput [] l.rx vc rest, freed := smod 0 l.freed vc (· + 1 + txnLen x.header) }
    else s
  | none => s

/-- A transaction is taken from the channel of its kind. -/
def State.takeTxn (s : State) (k : Fin 24) (x : Txn) : State := s.takeTxnOn k (kindVc (txnKind x.header)) x

/-- The channel at whose head a transaction stands. -/
def State.headChannel (s : State) (k : Fin 24) (x : Txn) : Option Nat :=
  (List.range 5).find? fun vc => match firstTxn (sget [] (s.link k).rx vc) with
    | some (y, _) => y == x
    | none => false

/-! ### Attachment (R22, R31) -/

/-- Link `k` attaches to the tile (R22). -/
def State.attaches (s : State) (k t : Nat) : Bool :=
  let r := s.tileRow t
  if k < 12 then s.tileCol t == 0 && r / 4 == k
  else s.tileCol t + 1 == s.grid.width && r / 4 + 12 == k

/-- The frame holds a link (R31). -/
def State.linkHeld (s : State) (f : Fin 8) (k : Nat) : Bool :=
  match (s.frame f).latched with
  | some l => bit l.links k
  | none => false

end Sys2Proof.Machine
end

