-- ==== Sys2Proof/Machine/Dma.lean ====
section
/-! DEFINITION. Dma: the DMA engine: its descriptor and checks, local moves, transposes, remote rows, staged
transfers and link writes (R126–R129, R231–R233, R256–R261). -/

namespace Sys2Proof.Machine

/-! ### The descriptor (R256) -/

def dmaOp (d : List Byte) : Nat := bits (slot d 0) 8 8
def dmaWidthCode (d : List Byte) : Nat := bits (slot d 0) 4 4
/-- The element width of a transpose in bytes. -/
def dmaWidth (d : List Byte) : Nat := match dmaWidthCode d with | 1 => 1 | 2 => 2 | _ => 4
def dmaSrc (d : List Byte) : Nat := bits (slot d 1) 0 48
def dmaSrcSpace (d : List Byte) : Nat := bits (slot d 1) 48 2
def dmaDst (d : List Byte) : Nat := bits (slot d 2) 0 48
def dmaDstSpace (d : List Byte) : Nat := bits (slot d 2) 48 2
def dmaLen (d : List Byte) : Nat := bits (slot d 3) 0 24
def dmaNr (d : List Byte) : Nat := bits (slot d 4) 0 12 + 1
def dmaNc (d : List Byte) : Nat := bits (slot d 4) 12 12 + 1
def dmaSpitch (d : List Byte) : Nat := bits (slot d 4) 24 20
def dmaDpitch (d : List Byte) : Nat := bits (slot d 4) 44 20
def dmaLink (d : List Byte) : Nat := bits (slot d 5) 0 5
def dmaDev (d : List Byte) : Nat := bits (slot d 5) 5 12
def dmaDfr (d : List Byte) : Nat := bits (slot d 5) 17 3

/-- The staged modes (R250, R257). -/
def dmaStaged (d : List Byte) : Bool := dmaOp d == 3 || dmaOp d == 4

/-- A local range of a space: `n` bytes from the row, offset or line named stay inside the memory, and a
scratch offset is a multiple of 64 (R261, code 0x7). -/
def localInside (space at_ n : Nat) : Bool :=
  match space with
  | 1 => decide (at_ + ceilDiv n 512 ≤ 896)
  | 2 => decide (at_ % 64 = 0) && decide (at_ + n ≤ 0x4000)
  | 3 => decide (at_ + ceilDiv n 64 ≤ 128)
  | _ => true

/-- The bytes the source and the destination vectors of a transpose span (R258). -/
def transposeSrcLen (d : List Byte) : Nat := (dmaNr d - 1) * dmaSpitch d + dmaNc d * dmaWidth d
def transposeDstLen (d : List Byte) : Nat := (dmaNc d - 1) * dmaDpitch d + dmaNr d * dmaWidth d

/-- Whether the modes use the source, the destination and the length (R257). -/
def dmaUsesSrc (op : Nat) : Bool := [1, 2, 3, 5].contains op
def dmaUsesDst (op : Nat) : Bool := [1, 2, 4, 5, 6].contains op

/-- The space pairs of R257. -/
def dmaSpacesOk (d : List Byte) : Bool :=
  let a := dmaSrcSpace d
  let b := dmaDstSpace d
  match dmaOp d with
  | 1 => (a != 0 && b != 0) || (a == 0 && b == 1) || (a == 1 && b == 0)
  | 2 => decide (a ≤ 1) && b == 1
  | 3 => a == 0
  | 4 => b == 0
  | 5 => a == 1 && b == 0
  | _ => b != 0

/-- The lengths of R257 that are refused; rows that are not whole are a bus error (R84). -/
def dmaLenBad (d : List Byte) : Bool :=
  let n := dmaLen d
  match dmaOp d with
  | 1 => n == 0 || (dmaSrcSpace d != 0 && dmaDstSpace d != 0 && n % 64 != 0)
  | 2 => false
  | 3 => n == 0 || decide (4096 < n) || n % 64 != 0
  | 4 => n == 0 || decide (4096 < n) || n % 64 != 0
  | 5 => n == 0
  | _ => n == 0 || n % 64 != 0

/-- The stack whose edge port a tile has, if any (R21). -/
def State.edgeStack (s : State) (t : Nat) : Option Nat :=
  let right := decide (s.grid.width ≤ 2 * s.tileCol t)
  if s.tileRow t = 0 then some (b2n right)
  else if s.tileRow t = 47 then some (2 + b2n right) else none

/-- A staged mode outside R126: code 0x5 of R261. -/
def State.stagedBad (s : State) (t : Nat) (d : List Byte) : Bool :=
  let a := if dmaOp d = 3 then dmaSrc d else dmaDst d
  match s.edgeStack t with
  | none => true
  | some k => decide (a / stackSize ≠ k) || decide ((a + dmaLen d - 1) / 4096 ≠ a / 4096)

/-- LINK_WRITE outside the conditions of R260 and R397: code 0x6 of R261. -/
def State.linkWriteBad (s : State) (t : Nat) (f : Fin 8) (d : List Byte) : Bool :=
  let x := s.tile t
  !(s.attaches (dmaLink d) t) || !(s.linkHeld f (dmaLink d)) || x.xch.phase != 3 || x.arrival.isSome || x.active == 2

/-- The fields a mode leaves zero (R256, code 0x9). -/
def dmaRestBad (d : List Byte) : Bool :=
  let op := dmaOp d
  bits (slot d 0) 19 45 != 0 ||
    (if dmaUsesSrc op then bits (slot d 1) 50 14 != 0 else slot d 1 != 0) ||
    (if dmaUsesDst op then bits (slot d 2) 50 14 != 0 else slot d 2 != 0) ||
    (if op == 2 then slot d 3 != 0 else bits (slot d 3) 24 40 != 0 || slot d 4 != 0) ||
    (if op == 5 then bits (slot d 5) 20 44 != 0 else slot d 5 != 0) || slot d 6 != 0 || slot d 7 != 0

/-- The checks of a DMA descriptor: 0, or the lowest failing code (R261). -/
def State.checkDma (s : State) (t : Nat) (f : Fin 8) (d : List Byte) : Nat :=
  let op := dmaOp d
  let fn := dmaWidthCode d
  let w := dmaWidth d
  lowestCode [
    (bits (slot d 0) 0 4 != 4, 1),
    (op == 0 || decide (6 < op) || decide (3 < fn) || (op != 2 && fn != 0) || (op == 2 && fn == 0), 2),
    (!(dmaSpacesOk d), 3),
    (dmaLenBad d, 4),
    (dmaStaged d && s.stagedBad t d, 5),
    (op == 5 && s.linkWriteBad t f d, 6),
    ((dmaUsesSrc op && !(localInside (dmaSrcSpace d) (dmaSrc d) (if op = 2 then transposeSrcLen d else dmaLen d))) ||
      (dmaUsesDst op && !(localInside (dmaDstSpace d) (dmaDst d)
        (if op = 2 then transposeDstLen d else dmaLen d))), 7),
    (op == 2 && (dmaSpitch d % w != 0 || dmaDpitch d % w != 0 ||
      (decide (1 < dmaNc d) && decide (dmaDpitch d < dmaNr d * w))), 8),
    (dmaRestBad d, 9)]

/-- The mode moves rows over the message mesh or a link (R257). -/
def dmaRemote (d : List Byte) : Bool :=
  dmaOp d == 5 || (dmaOp d == 1 && (dmaSrcSpace d == 0 || dmaDstSpace d == 0)) || (dmaOp d == 2 && dmaSrcSpace d == 0)

/-- A range that is not whole, aligned rows: the place of the bus error (R84, R257). -/
def dmaRangeError (d : List Byte) : Option Nat :=
  let n := dmaLen d
  match dmaOp d with
  | 1 =>
    if dmaSrcSpace d = 0 then (if dmaSrc d % 512 ≠ 0 ∨ n % 512 ≠ 0 then some (busDevice (dmaSrc d)) else none)
    else if dmaDstSpace d = 0 then (if dmaDst d % 512 ≠ 0 ∨ n % 512 ≠ 0 then some (busDevice (dmaDst d)) else none)
    else if n % 512 = 0 then none
    else if dmaSrcSpace d = 1 then some (busRow (dmaSrc d))
    else if dmaDstSpace d = 1 then some (busRow (dmaDst d)) else none
  | 2 => if dmaSrcSpace d = 0 ∧ dmaSrc d % 512 ≠ 0 then some (busDevice (dmaSrc d)) else none
  | 5 => if dmaDst d % 512 ≠ 0 ∨ n % 512 ≠ 0 then some (busDevice (dmaDst d)) else none
  | 6 => if dmaDstSpace d = 1 ∧ n % 512 ≠ 0 then some (busRow (dmaDst d)) else none
  | _ => none

/-- The rows a remote mode moves in all. -/
def dmaRows (d : List Byte) : Nat :=
  if (dmaRangeError d).isSome then 0
  else if dmaOp d = 2 then ceilDiv (transposeSrcLen d) 512 else dmaLen d / 512

/-! ### Local moves (R257) -/

/-- One 64-byte piece of a local source. -/
def State.readPiece (s : State) (t ctx space at_ i : Nat) : ReadOut × Option Nat × State :=
  if space = 2 then
    let o := at_ + 64 * i
    if !((s.tile t).decl.allows ctx false 1 (o / 256)) then
      (⟨List.replicate 64 0xFF, true⟩, some (busScratch o), s.windowRefusal t ctx 1 (o / 256))
    else
      let r := s.readScratch t o 64
      (r.1, r.2.1.map busScratch, r.2.2)
  else
    let l := at_ + i
    if !((s.tile t).decl.allows ctx false 2 l) then
      (⟨List.replicate 64 0xFF, true⟩, some (busLine l), s.windowRefusal t ctx 2 l)
    else
      let r := s.readLine t l
      (r.1, if r.1.bad then some (busLine l) else none, r.2)

/-- The source of a local move, as 64-byte pieces with their bad marks. -/
structure Pieces where
  ps : List (List Byte × Bool) := []
  bus : Option Nat := none
  s : State

def State.readPieces (s : State) (t ctx space at_ n : Nat) : Pieces :=
  if space = 1 then
    let a := s.engineReads t ctx 4 ((List.range (n / 512)).map (at_ + ·))
    { ps := (List.range (n / 512)).flatMap fun i =>
        let c := cacheRow a.cache (at_ + i)
        (chunks 64 8 c.1).map fun b => (b, c.2)
      bus := a.bus, s := a.s }
  else
    (List.range (n / 64)).foldl (fun a i =>
      let r := a.s.readPiece t ctx space at_ i
      { ps := a.ps ++ [(r.1.data, r.1.bad)], bus := firstBus a.bus r.2.1, s := r.2.2 }) { s := s }

/-- One 64-byte piece written to core scratch or stat memory. -/
def State.writePiece (s : State) (t ctx space at_ i : Nat) (data : List Byte) : Option Nat × State :=
  if space = 2 then
    let o := at_ + 64 * i
    if (s.tile t).decl.allows ctx true 1 (o / 256) then (none, s.writeScratch t o data)
    else (some (busScratch o), s.windowRefusal t ctx 1 (o / 256))
  else
    let l := at_ + i
    if (s.tile t).decl.allows ctx true 2 l then (none, s.writeLine t l data)
    else (some (busLine l), s.windowRefusal t ctx 2 l)

/-- The pieces written to a local destination; a row of a bad piece is written poisoned (R291). -/
def State.writePieces (s : State) (t ctx space at_ : Nat) (ps : List (List Byte × Bool)) (bus : Option Nat) :
    Option Nat × State :=
  if space = 1 then
    ((chunks 8 ps.length ps).zipIdx).foldl (fun a p =>
      let w := a.2.engineWrite t ctx (at_ + p.2) (p.1.flatMap (·.1)) (p.1.any (·.2))
      (firstBus a.1 w.1, w.2)) (bus, s)
  else
    (ps.zipIdx).foldl (fun a p =>
      let w := a.2.writePiece t ctx space at_ p.2 p.1.1
      (firstBus a.1 w.1, w.2)) (bus, s)

/-! ### Transpose (R258) -/

/-- The source bytes of a transpose and the source rows that read bad, by row of the range. -/
structure TransposeIn where
  bytes : List Byte
  bad : List Nat
  deriving DecidableEq, Repr

/-- The destination rows of a transpose: content, and whether an element came from a bad row. -/
def transposeOut (d : List Byte) (i : TransposeIn) : OutBuf :=
  let w := dmaWidth d
  let base := 512 * dmaDst d
  (List.range (dmaNc d)).foldl (fun b j =>
    let at_ := base + j * dmaDpitch d
    let bytes := (List.range (dmaNr d)).flatMap fun k => slice i.bytes (k * dmaSpitch d + j * w) w
    let poison := if i.bad.isEmpty then [] else
      (List.range (dmaNr d)).flatMap fun k =>
        if i.bad.contains ((k * dmaSpitch d + j * w) / 512) then rowsTouched (at_ + k * w) w else []
    { b with
      mem := b.mem.write at_ bytes
      rows := (b.rows ++ rowsTouched at_ bytes.length).eraseDups
      poisoned := b.poisoned ++ poison }) ({} : OutBuf)

/-! ### Remote rows (R231–R233) -/

/-- The requester's own check of a remote address: code 0x5 first, then code 0x2 (R233). -/
def State.remoteCheck (s : State) (f : Fin 8) (a : Nat) : Nat :=
  match regionOf a with
  | .main t _ => if s.tileCount ≤ t then 5 else if s.frameHas f t then 0 else 2
  | .scratch _ _ => 5
  | _ => 0

/-- A refusal at the source with code 0x2 is counted (R239). -/
def State.countOutside (s : State) (code : Nat) : State := if code = 2 then s.count32 0x2703 0x02 else s

/-- The destination fields of a remote operation: the target tile, or the memory gateway of the apron that
serves the address (R23, R219). -/
def State.remoteDest (s : State) (a : Nat) : HeaderFields :=
  match regionOf a with
  | .main t _ => { kind := 0, row := s.tileRow t, col := s.tileCol t, cls := 1, op := 0, len := 0
                   srow := 0, scol := 0, frame := 0 }
  | .stack n _ => { kind := if n < 2 then 1 else 2, queue := 2, cls := 1, op := 0, len := 0
                    srow := 0, scol := 0, frame := 0 }
  | _ => { kind := 1, queue := 2, cls := 1, op := 0, len := 0, srow := 0, scol := 0, frame := 0 }

/-- A free remote-operation tag of a tile: 8 at most (R231). -/
def Tile.freeTag (x : Tile) : Option Nat := (List.range 8).find? fun i => (sget none x.tags i).isNone

/-- The running DMA operation changed. -/
def State.modDma (s : State) (t : Nat) (g : EngOp → EngOp) : State :=
  s.modEngine t 4 fun e => { e with running := e.running.map g }

/-- A row of the running operation has ended, with the bus error it met. -/
def State.rowDone (s : State) (t : Nat) (bus : Option Nat) : State :=
  s.modDma t fun o => { o with completed := o.completed + 1, busError := firstBus o.busError bus }

/-- The next row of a remote read is requested (R231); a refusal at the source poisons the reserved row
(R102, R233). -/
def State.requestRead (s : State) (t : Nat) (f : Fin 8) (op : EngOp) (i tag : Nat) : State :=
  let d := op.desc
  let a := dmaSrc d + 512 * i
  let s := s.modDma t fun o => { o with requested := o.requested + 1 }
  if s.remoteCheck f a ≠ 0 then
    let s := (s.countOutside (s.remoteCheck f a)).rowDone t (some (busDevice a))
    if dmaOp d = 1 then (s.engineWrite t op.context (dmaDst d + i) [] true).2
    else s.modDma t fun o => { o with rows := sput ([], false) o.rows i (List.replicate 512 0xFF, true) }
  else
    let h := packHeader { s.remoteDest a with
      op := 1, len := 1, srow := s.tileRow t, scol := s.tileCol t, frame := f.val, tag := tag }
    (s.modTile t fun x => { x with tags := sput none x.tags tag
                                     (some { write := false, addr := a, row := i }) }).inject t
      (sentPacket h [BitVec.ofNat 64 a])

/-- The next row of a remote write is read and sent (R231, R294). -/
def State.requestWrite (s : State) (t : Nat) (f : Fin 8) (op : EngOp) (i tag : Nat) : State :=
  let d := op.desc
  let a := dmaDst d + 512 * i
  let s := s.modDma t fun o => { o with requested := o.requested + 1 }
  if s.remoteCheck f a ≠ 0 then (s.countOutside (s.remoteCheck f a)).rowDone t (some (busDevice a))
  else
    let r := s.engineRow t op.context 4 (dmaSrc d + i)
    let s := r.2.modDma t fun o =>
      { o with busError := firstBus o.busError (if r.1.bad then some (busRow (dmaSrc d + i)) else none) }
    let h := packHeader { s.remoteDest a with
      op := 2, len := 65, srow := s.tileRow t, scol := s.tileCol t, frame := f.val, tag := tag
      poison := r.1.bad }
    (s.modTile t fun x => { x with tags := sput none x.tags tag
                                     (some { write := true, addr := a, row := i }) }).inject t
      (sentPacket h (BitVec.ofNat 64 a :: (chunks 8 64 r.1.data).map fun b => BitVec.ofNat 64 (leNat b)))

/-- The key of a peer in Frame.writesOut. -/
def peerKey (dev frame : Nat) : Nat := dev * 8 + frame

/-- The next row of a LINK_WRITE goes out as a remote write over its link (R132, R260, R374); it waits while
no tag of the link is free (R377). -/
def State.requestLink (s : State) (t : Nat) (f : Fin 8) (op : EngOp) (i : Nat) : State :=
  let d := op.desc
  let k := linkIx (dmaLink d)
  if (s.link k).carries = false then
    (s.modDma t fun o => { o with requested := o.requested + 1 }).rowDone t (some (busDevice (dmaDst d + 512 * i)))
  else
    let r := s.engineRow t op.context 4 (dmaSrc d + i)
    match r.2.request k (.dma t (dmaSrc d + i) f.val (peerKey (dmaDev d) (dmaDfr d)))
        { kind := 1, dst := dmaDev d, src := 0, dfr := dmaDfr d, sfr := f.val, poison := r.1.bad
          a := dmaDst d + 512 * i } r.1.data with
    | none => s
    | some s =>
      let s := s.modDma t fun o =>
        { o with
          requested := o.requested + 1
          busError := firstBus o.busError (if r.1.bad then some (busRow (dmaSrc d + i)) else none) }
      s.modFrame f fun y => { y with writesOut := smod 0 y.writesOut (peerKey (dmaDev d) (dmaDfr d)) (· + 1) }

/-- One more row of the running remote operation, if it has one to ask for, fewer than 8 are outstanding and a tag is
free (R231, R257). -/
def State.pumpOnce (s : State) (t : Nat) (f : Fin 8) : State :=
  match (s.tile t).dma.running with
  | none => s
  | some op =>
    if !(dmaRemote op.desc) || decide (dmaRows op.desc ≤ op.requested) ||
        decide (op.completed + 8 ≤ op.requested) then s
    else if dmaOp op.desc = 5 then s.requestLink t f op op.requested
    else match (s.tile t).freeTag with
      | none => s
      | some tag =>
        if dmaOp op.desc = 1 ∧ dmaDstSpace op.desc = 0 then s.requestWrite t f op op.requested tag
        else s.requestRead t f op op.requested tag

/-- The DMA engine keeps at most 8 remote operations outstanding (R231). -/
def State.pumpDma (s : State) (t : Nat) (f : Fin 8) : State :=
  Nat.repeat (fun s => s.pumpOnce t f) 8 s

/-- Every row of the running operation has ended. -/
def dmaRowsDone (op : EngOp) : Bool := decide (dmaRows op.desc ≤ op.completed)

/-! ### Completion -/

/-- The bytes of a remote transpose's source out of its rows. -/
def transposeRemote (op : EngOp) : TransposeIn :=
  let n := dmaRows op.desc
  { bytes := (List.range n).flatMap fun i => (sget (zeroBytes 512, false) op.rows i).1
    bad := (List.range n).filter fun i => (sget ([], false) op.rows i).2 }

/-- The DMA operation does what its mode's completion point leaves to do, and completes (R257, R258). -/
def State.completeDma (s : State) (t : Nat) (f : Fin 8) (op : EngOp) : State :=
  let d := op.desc
  let ctx := op.context
  match dmaRangeError d with
  | some b => s.finishOp t f 4 op (some b)
  | none =>
    if dmaOp d = 1 ∧ dmaRemote d = false then
      let p := s.readPieces t ctx (dmaSrcSpace d) (dmaSrc d) (dmaLen d)
      let w := p.s.writePieces t ctx (dmaDstSpace d) (dmaDst d) p.ps p.bus
      w.2.finishOp t f 4 op w.1
    else if dmaOp d = 6 then
      let w := s.writePieces t ctx (dmaDstSpace d) (dmaDst d)
        (List.replicate (dmaLen d / 64) (zeroBytes 64, false)) none
      w.2.finishOp t f 4 op w.1
    else if dmaOp d = 2 then
      if dmaSrcSpace d = 0 then
        let w := s.writeOut t ctx (transposeOut d (transposeRemote op)) op.busError
        w.2.finishOp t f 4 op w.1
      else
        let n := ceilDiv (transposeSrcLen d) 512
        let a := s.engineReads t ctx 4 ((List.range n).map (dmaSrc d + ·))
        let i : TransposeIn :=
          { bytes := (List.range n).flatMap fun k => (cacheRow a.cache (dmaSrc d + k)).1
            bad := (List.range n).filter fun k => (cacheRow a.cache (dmaSrc d + k)).2 }
        let w := a.s.writeOut t ctx (transposeOut d i) a.bus
        w.2.finishOp t f 4 op w.1
    else s.finishOp t f 4 op op.busError

/-! ### Staged transfers (R126–R129) -/

/-- Words of staged reads posted and not yet popped on a port (R126). -/
def EdgePort.posted (e : EdgePort) : Nat :=
  e.inbound.length + e.reads.foldl (fun n r => n + (r.words - r.done)) 0

/-- Room that staged writes leave for words of laid tables (R127, R128): words still to be pushed. -/
def EdgePort.room (e : EdgePort) : Nat :=
  e.writes.foldl (fun n r => n + (r.words - r.done)) 0 - e.outbound.length

/-- A staged request reaches its port (R126). -/
def State.postStaged (s : State) (t ctx addr : Nat) (d : List Byte) : State :=
  let isWrite := dmaOp d == 4
  let r : Staged :=
    { write := isWrite, addr := if isWrite then dmaDst d else dmaSrc d, words := dmaLen d / 64
      kc := bits (slot d 0) 16 3, context := ctx, desc := addr }
  s.modTile t fun x =>
    { x with edge := if isWrite then { x.edge with writes := x.edge.writes ++ [r] }
        else { x.edge with reads := x.edge.reads ++ [r] } }

/-- The address of the next word of a staged request. -/
def Staged.at (r : Staged) : Nat := r.addr + 64 * r.done

/-- Whether the next block of a staged request may be reached (R84, R257, R284, R397): the bus error otherwise. -/
def State.stagedCheck (s : State) (f : Fin 8) (r : Staged) : Option Nat :=
  let a := r.at
  let p := s.stackPlace (a / stackSize) (a % stackSize)
  if r.addr % 512 ≠ 0 ∨ s.pcBacked p.pc = false ∨ s.channelHeld f r.context p.stack p.channel = false then
    some (busDevice a)
  else none

/-- A staged request has ended: its count, its counter and the trap of a bus error (R128, R265). -/
def State.finishStaged (s : State) (t : Nat) (f : Fin 8) (r : Staged) : State :=
  let s := (s.count64 0x2501 0x04).signal t r.context r.kc
  match r.busError with
  | none => s
  | some d =>
    let q := s.draw
    q.2.raiseTrap t f { cause := 6, detail := d, engine := 4, pc := (s.tile t).core.pc
                        word := (Config.trapWord q.1).toNat }

/-- The next word of the oldest unfinished staged read enters the inbound queue (R126, R294). -/
def State.stagedWord (s : State) (t : Nat) (f : Fin 8) : State :=
  match (s.tile t).edge.reads with
  | [] => s
  | r :: rest =>
    let a := r.at
    if (s.stagedCheck f r).isNone && s.placeRetiring a then s else
    let q : ReadOut × Option Nat × State := match s.stagedCheck f r with
      | some b => (⟨List.replicate 64 0xFF, true⟩, some b, s)
      | none => let o := s.readBlock a; (o.1, if o.1.bad then some (busDevice a) else none, o.2)
    let r' := { r with done := r.done + 1, busError := firstBus r.busError q.2.1 }
    let s := q.2.2.modTile t fun x => { x with edge := { x.edge with
      inbound := x.edge.inbound ++ [q.1.data]
      reads := if r'.done = r'.words then rest else r' :: rest } }
    if r'.done = r'.words then s.finishStaged t f r' else s

/-- The first staged write that lacks a word has taken one, with the bus error it met (R128). -/
def takeWord (e : Option Nat) : List Staged → List Staged
  | [] => []
  | r :: rest =>
    if r.done < r.words then { r with done := r.done + 1, busError := firstBus r.busError e } :: rest
    else r :: takeWord e rest

/-- The stack controller takes the head of the outbound queue and writes its block for the open staged write
(R128, R129, R284). -/
def State.drainWord (s : State) (t : Nat) (f : Fin 8) : State :=
  match (s.tile t).edge.writes.find? (fun r => decide (r.done < r.words)), (s.tile t).edge.outbound with
  | some r, w :: ws =>
    let e := s.stagedCheck f r
    if e.isNone && s.placeRetiring r.at then s else
    let s := if e.isNone then s.writeBlock r.at w false else s
    s.modTile t fun x => { x with edge := { x.edge with outbound := ws, writes := takeWord e x.edge.writes } }
  | _, _ => s

end Sys2Proof.Machine
end

