-- ==== Sys2Proof/Machine/Issue.lean ====
section
/-! DEFINITION. Issue: the hand-over of a descriptor to an engine by an ISSUE (R98, R126, R176, R209, R210,
R249, R250, R261–R263) and the fetch of laid tables (R119–R124). -/

namespace Sys2Proof.Machine

/-! ### Laid table entries (R119–R121) -/

/-- One 16-byte entry of a laid table as a number. -/
def tableEntry (code : List Byte) (i : Nat) : Nat := sliceNat code (16 * i) 16

/-- The OUT field and the GAT field of a port: 0 N, 1 E, 2 S, 3 W. -/
def entryOut (e p : Nat) : Nat := bits e (5 * p) 5
def entryGat (e p : Nat) : Nat := bits e (20 + 5 * p) 5
def entryRd (e : Nat) : Bool := bit e 40
def entryRdReg (e : Nat) : Nat := bits e 41 1
def entryRdRow (e : Nat) : Nat := bits e 42 10
def entryWr (e : Nat) : Bool := bit e 52
def entryWrReg (e : Nat) : Nat := bits e 53 1
def entryWrRow (e : Nat) : Nat := bits e 54 10
/-- The tile cycles an entry runs. -/
def entryCycles (e : Nat) : Nat := bits e 64 12 + 1
/-- The sector step of R121. -/
def entryStep (e : Nat) : Nat := match bits e 76 2 with | 0 => 0 | 1 => 1 | 2 => 2 | _ => 4
def entryEnd (e : Nat) : Bool := bit e 79

/-- The selectors of R120 that are not reserved. -/
def outSelectorOk (v : Nat) : Bool := decide (v ≤ 4) || (decide (8 ≤ v) && decide (v ≤ 0x17))
def gatSelectorOk (v : Nat) : Bool := v == 0 || (decide (8 ≤ v) && decide (v ≤ 0x17))

/-- A selector or a reserved bit of an entry is not allowed (R120, R124). -/
def entryReserved (e : Nat) : Bool :=
  (List.range 4).any (fun p => !(outSelectorOk (entryOut e p)) || !(gatSelectorOk (entryGat e p))) ||
    bit e 78 || bits e 80 48 != 0

/-- The port of a tile leads nowhere that a laid table may name (R16, R30, R118): it leaves the frame and is
no stack edge, or it crosses the beam in split mode. -/
def State.portClosed (s : State) (f : Fin 8) (t p : Nat) : Bool :=
  match s.neighbour t p with
  | none => p % 2 == 1
  | some n => !(s.frameHas f n) ||
      (s.grid.split && ((s.tileRow t == 23 && p == 2) || (s.tileRow t == 24 && p == 0)))

/-- The entry drives or names port `p`. -/
def entryNames (e p : Nat) : Bool :=
  entryOut e p != 0 || entryGat e p != 0 || (List.range 4).any fun o => entryOut e o == p + 1

/-- The entry names a port that R118 forbids. -/
def State.entryLeaves (s : State) (f : Fin 8) (t e : Nat) : Bool :=
  (List.range 4).any fun p => entryNames e p && s.portClosed f t p

/-- The entries of fetched row `i` of a table that has `n` entries. -/
def rowEntries (row : List Byte) (i n : Nat) : List Nat :=
  ((List.range 32).filter fun j => decide (32 * i + j < n)).map fun j => tableEntry row j

/-- TSW48 names the tile of a laid table fault found at fetch (R263). -/
def State.recordTableFault (s : State) (t : Nat) : State :=
  s.modTile t fun x => { x with trap := { x.trap with main := { x.trap.main with faulted := true, engine := 5 } } }

/-- A bus error of the exchange engine at a local row that R101 refuses (R102, R264). -/
def State.xchRefused (s : State) (t : Nat) (f : Fin 8) (row : Nat) : State :=
  let q := s.draw
  q.2.raiseTrap t f { cause := 6, detail := busRow row, engine := 5, pc := (s.tile t).core.pc
                      word := (Config.trapWord q.1).toNat }

/-- Row `i` of a table is fetched: its content, and the cause if the fetch faults the frame (R123, R263,
R291). A row that R101 refuses is a bus error, and its entries are idle (R102; log entry 102). -/
def State.fetchTableRow (s : State) (t : Nat) (f : Fin 8) (l : LaidTable) (i : Nat) : List Byte × State :=
  let allowed := (s.tile t).decl.allows l.context false 0 (l.row + i)
  let r := s.engineRow t l.context 0 (l.row + i)
  if !allowed then (zeroBytes 512, r.2.xchRefused t f (l.row + i))
  else if r.1.bad then (r.1.data, r.2.frameFault f 0x0007 t 0)
  else if (rowEntries r.1.data i l.entries).any fun e => entryReserved e || s.entryLeaves f t e then
    (r.1.data, (r.2.recordTableFault t).frameFault f 0x0006 t 0)
  else (r.1.data, r.2)

/-- The rows of a table. -/
def LaidTable.rows (l : LaidTable) : Nat := ceilDiv l.entries 32

/-- The first two rows are fetched when the descriptor issues (R123). -/
def State.fetchFirst (s : State) (t : Nat) (f : Fin 8) (l : LaidTable) : LaidTable × State :=
  let a := s.fetchTableRow t f l 0
  if l.rows ≤ 1 then ({ l with code := a.1 }, a.2) else
  let b := a.2.fetchTableRow t f l 1
  ({ l with code := a.1 ++ b.1 }, b.2)

/-! ### The XCH descriptor (R262, R263) -/

def xchRow (d : List Byte) : Nat := bits (slot d 1) 0 10
def xchEntries (d : List Byte) : Nat := bits (slot d 1) 10 14

/-- The checks of an XCH descriptor. -/
def Tile.checkXch (x : Tile) (d : List Byte) : Nat :=
  lowestCode [
    (bits (slot d 0) 0 4 != 5, 1),
    (x.xch.next.isSome, 6),
    (xchEntries d == 0 || decide (8192 < xchEntries d) || !(x.decl.tables.contains (xchRow d, xchEntries d)), 8),
    (bits (slot d 0) 4 12 != 0 || bits (slot d 0) 19 45 != 0 || bits (slot d 1) 24 40 != 0 ||
      (List.range 6).any fun i => slot d (i + 2) != 0, 9)]

/-! ### Issue -/

/-- The core waits on; a wait that goes on keeps its beginning (R255). -/
def State.holdWait (s : State) (t : Nat) (f : Fin 8) (w : Wait) : State :=
  if (s.tile t).wait = w then s else s.startWait t f w

/-- The checks of the engine to which a descriptor is issued (R176, R261, R263). -/
def State.checkIssue (s : State) (t : Nat) (f : Fin 8) (eng : Nat) (d : List Byte) : Nat :=
  match eng with
  | 1 => checkFwd d
  | 2 => checkBwd d
  | 3 => checkRow d
  | 4 => s.checkDma t f d
  | _ => (s.tile t).checkXch d

/-- A descriptor is refused (R176, R193). -/
def State.refuseIssue (s : State) (t : Nat) (f : Fin 8) (eng a word code : Nat) : State :=
  let s := if eng ≤ 4 then s.modEngine t eng fun g => { g with refused := true, refusalCode := code } else s
  let s := (s.count32 0x2501 0x06).odSet 0x2501 0x07 (t + eng * 2 ^ 16 + code * 2 ^ 20 + f.val * 2 ^ 24)
  s.raiseTrap t f { cause := 5, detail := a, refusal := code, engine := eng
                    pc := (s.tile t).core.pc, word := word }

/-- The ISSUE is done; the core goes on. -/
def State.issueDone (s : State) (t : Nat) : State := (s.endWait t).retireNone t

/-- A staged read would pass the limit of 64 posted words (R126). -/
def EdgePort.over (e : EdgePort) (d : List Byte) : Bool :=
  dmaOp d == 3 && decide (64 < e.posted + dmaLen d / 64)

/-- An accepted descriptor enters its engine (R98, R126, R163, R177, R209, R210, R262). -/
def State.acceptIssue (s : State) (t : Nat) (f : Fin 8) (eng a : Nat) (d : List Byte) : State :=
  let ctx := (s.tile t).active
  let now := (s.frame f).cycles
  let op : EngOp := { desc := d, addr := a, context := ctx, step := (s.frame f).step }
  match eng with
  | 1 =>
    let r := s.sampleFwd t ctx f d
    (r.2.modEngine t 1 fun g => g.accept { op with sampled := r.1 } now).issueDone t
  | 2 => ((s.abandonShadow t).modEngine t 2 fun g => g.accept op now).issueDone t
  | 3 => (s.modEngine t 3 fun g => g.accept op now).issueDone t
  | 4 =>
    if dmaStaged d then
      ((s.modEngine t 4 fun g => { g with refused := false }).postStaged t ctx a d).issueDone t
    else ((s.modEngine t 4 fun g => g.accept op now).pumpDma t f).issueDone t
  | _ =>
    let s := s.issueDone t
    let l := s.fetchFirst t f { row := xchRow d, entries := xchEntries d, kc := bits (slot d 0) 16 3, context := ctx }
    l.2.modTile t fun x => { x with xch := { x.xch with next := some l.1 } }

/-- The descriptor has been read: it is refused, waits for staged words, or is accepted. -/
def State.issueRead (s : State) (t : Nat) (f : Fin 8) (eng a word : Nat) (d : List Byte) : State :=
  let c := s.checkIssue t f eng d
  if c ≠ 0 then s.refuseIssue t f eng a word c
  else if eng = 4 ∧ (s.tile t).edge.over d then s.holdWait t f (.issue eng a word)
  else s.acceptIssue t f eng a d

/-- The stored bytes of a descriptor. -/
def State.descriptorAt (s : State) (t a : Nat) : List Byte := s.mem.read (scratchAddr t a) 64

/-- The place an ISSUE waits for is taken (R177, R249, R250). -/
def State.placeTaken (s : State) (t eng a : Nat) : Bool :=
  decide (eng ≤ 4) && ((s.tile t).engine eng).full && !(eng == 4 && dmaStaged (s.descriptorAt t a))

/-- An ISSUE whose address is in order (R249): it waits for a place, then reads its descriptor. -/
def State.tryIssue (s : State) (t : Nat) (f : Fin 8) (eng a word : Nat) : State :=
  let x := s.tile t
  if s.placeTaken t eng a then s.holdWait t f (.issue eng a word)
  else if !(x.decl.allows x.active false 1 (a / 256)) then
    (s.windowRefusal t x.active 1 (a / 256)).coreTrap t f 4 a word
  else
    let r := s.readScratch t a 64
    match r.2.1 with
    | some o => r.2.2.coreTrap t f 3 o word
    | none => r.2.2.issueRead t f eng a word r.1.data

/-- The descriptor address of R249 is a multiple of 64 in 0x0000–0x3EC0. -/
def descriptorAddrOk (a : Nat) : Bool := a % 64 == 0 && decide (a ≤ 0x3EC0)

/-- ISSUE: the address test first (R249). -/
def State.issue (s : State) (t : Nat) (f : Fin 8) (eng a word : Nat) : State :=
  if descriptorAddrOk a then s.tryIssue t f eng a word else s.coreTrap t f 2 a word

end Sys2Proof.Machine
end

