-- ==== Sys2Proof/Machine/StatusWords.lean ====
section
/-! DEFINITION. StatusWords: the tile status words TSW0 to TSW63 as they are read, and their writes (R104, R137,
R192, R234, R268). -/

namespace Sys2Proof.Machine

/-! ### Columns (R17, R26) -/

/-- The column carries a logical column: enabled, or enabled and pending retirement (R24). -/
def ColStatus.carries (c : ColStatus) : Bool := c == .enabled || c == .pending

/-- The physical columns that carry the logical columns 0, 1, … (R17). -/
def Grid.columnMap (g : Grid) : List Nat :=
  if g.width = 0 then []
  else ((g.columns.zipIdx).filter fun p => p.1.carries).map (·.2)

/-- The physical column of a logical column; 0xFF where there is none (OD 0x2011). -/
def State.physicalColumn (s : State) (c : Nat) : Nat := s.grid.columnMap.getD c 0xFF

/-- The column of a tile is pending retirement (TSW1 [6]). -/
def State.columnPending (s : State) (t : Nat) : Bool :=
  s.grid.columns.getD (s.physicalColumn (s.tileCol t)) .enabled == .pending

/-! ### Words -/

/-- TSW0. The frame number of a tile that lies in no frame reads 0, which no rule says (log entry 118). -/
def State.identityWord (s : State) (t : Nat) : Nat :=
  t + s.tileRow t * 2 ^ 16 + s.tileCol t * 2 ^ 24 + s.grid.width * 2 ^ 32 +
    (match s.frameOf t with | some f => f.val | none => 0) * 2 ^ 40 + b2n (decide (24 ≤ s.tileRow t)) * 2 ^ 43 +
    b2n s.grid.split * 2 ^ 44

/-- The spare rows of bank `b` in use (TSW6). -/
def Tile.sparesUsed (x : Tile) (b : Nat) : Nat :=
  (List.range 4).countP fun i => sget 0 x.spares (4 * b + i) != 0
def Tile.spareWord (x : Tile) : Nat := (List.range 7).foldl (fun a b => a + x.sparesUsed b * 2 ^ (3 * b)) 0

/-- The queue a waiting send addressed, DQ of R219 (R252). -/
def Tile.sendQueue (x : Tile) (rb : Nat) : Nat := bits (x.core.g.getD rb 0).toNat 14 2

/-- TSW55 [2:0] and [5:3]. -/
def Tile.waitCode (x : Tile) : Nat × Nat :=
  match x.wait with
  | .none => (0, 0)
  | .waitk k _ => (1, k)
  | .issue e _ _ => (2, e)
  | .send _ rb _ => (3, x.sendQueue rb)
  | .recv q _ => (4, q)
  | .sync => (5, 0)
  | .ended => (6, 0)

/-- The core waits on queue `q` (R234 [7]). -/
def Tile.readerWaits (x : Tile) (q : Nat) : Bool :=
  match x.wait with
  | .recv p _ => p == q
  | _ => false

/-- The status word of a queue (R234). -/
def Tile.queueWord (x : Tile) (q : Nat) : Nat :=
  let w := x.queue q
  let head := match w.tuples with
    | [] => 0
    | p :: _ => p.words.length * 2 ^ 8 + b2n p.apron * 2 ^ 11 + (p.source % 2 ^ 12) * 2 ^ 12
  w.held + b2n w.isOpen * 2 ^ 6 + b2n (x.readerWaits q) * 2 ^ 7 + head + w.refusedArrivals * 2 ^ 24 +
    w.refusalsReceived * 2 ^ 32 + w.lastCode * 2 ^ 48 + (w.lastDest % 2 ^ 12) * 2 ^ 52

/-- The copy of the head word (R234). -/
def Tile.headWord (x : Tile) (q : Nat) : Nat :=
  match (x.queue q).tuples with
  | p :: _ => (p.words.headD 0).toNat
  | [] => 0

/-- TSW44 and TSW45 (R137). -/
def Exchange.statusWord (e : Exchange) : Nat :=
  e.phase + e.kind * 2 ^ 3 + e.entryShown * 2 ^ 16 + (e.cycle % 2 ^ 32) * 2 ^ 32
def Exchange.lossWord (e : Exchange) : Nat :=
  e.dropped + e.emptyTakes * 2 ^ 16 + e.entryWait * 2 ^ 32 + (e.firstLoss.getD 0 % 2 ^ 16) * 2 ^ 48

/-- A base and a count in fields of `b` and `c` bits, the count from bit `at_` on. -/
def Window.fields (x : Window) (b c at_ : Nat) : Nat := x.base % 2 ^ b + (x.count % 2 ^ c) * 2 ^ at_

/-- The windows of TSW7 to TSW10. -/
def TileDecl.windowWord (d : TileDecl) : Nat → Nat
  | 7 => d.guestRows.fields 10 10 16
  | 8 => d.evalRows.fields 10 10 16
  | 9 => d.guestScratch.fields 6 7 8 + d.evalScratch.fields 6 7 8 * 2 ^ 16
  | _ => d.guestStat.fields 7 8 8 + d.evalStat.fields 7 8 8 * 2 ^ 16

/-- TSW12 to TSW28. -/
def TileCounters.word (c : TileCounters) (ix : Nat) : Nat :=
  match ix with
  | 12 => c.collisions
  | 13 => c.lastCollisionRow + c.lastCollisionCycle * 2 ^ 32
  | 14 => c.portWaits
  | 15 => c.winRefusals + c.winPlace * 2 ^ 32 + c.winMemory * 2 ^ 44 + c.winContext * 2 ^ 46
  | 23 => c.ue
  | 24 => c.lastCe
  | 25 => c.lastUe
  | 26 => c.scratchCe + c.scratchUe * 2 ^ 16 + c.scratchLast * 2 ^ 32
  | 27 => c.statCe + c.statUe * 2 ^ 16 + c.statLast * 2 ^ 32
  | 28 => c.nonfinite
  | i => if 16 ≤ i ∧ i ≤ 22 then c.ce.getD (i - 16) 0 else 0

/-- TSW48 to TSW54 (R268): bit [11] is the handler flag. -/
def Tile.trapStatus (x : Tile) (ix : Nat) : Nat :=
  match ix with
  | 48 => ({ x.trap.main with handler := (x.ctx x.trap.main.context).handler } : TrapWord).word
  | 49 => x.trap.pc
  | 50 => x.trap.word
  | 51 => x.trap.detail
  | 52 => x.trap.cycle
  | 53 => ({ x.trap.guest with handler := x.guest.handler } : TrapWord).word
  | _ => x.trap.saturated

/-- TSW55 (R268). -/
def Tile.waitWord (x : Tile) (now : Nat) : Nat :=
  let w := x.waitCode
  w.1 + w.2 * 2 ^ 3 + (if w.1 = 0 then 0 else min (now - x.waitFrom) 0xFFFFFFFF) * 2 ^ 32

/-- A tile status word as it is read (R104). -/
def State.statusWord (s : State) (t ix : Nat) : Nat :=
  let x := s.tile t
  let now := s.tileCycles t
  let v :=
    if ix = 0 then s.identityWord t
    else if ix = 1 then s.physicalColumn (s.tileCol t) + b2n (s.columnPending t) * 2 ^ 6
    else if ix = 2 then now
    else if ix = 3 then (match s.frameOf t with | some f => (s.frame f).supersteps | none => 0)
    else if ix = 4 then x.active + b2n x.switching.isSome * 2 ^ 2
    else if ix = 5 then x.decl.modes % 2 ^ 7
    else if ix = 6 then x.spareWord
    else if ix ≤ 10 then x.decl.windowWord ix
    else if ix ≤ 28 then x.cnt.word ix
    else if ix ≤ 31 then 0
    else if ix ≤ 39 then (if ix % 2 = 0 then x.queueWord ((ix - 32) / 2) else x.headWord ((ix - 32) / 2))
    else if ix ≤ 43 then (x.engine (ix - 39)).word now
    else if ix = 44 then x.xch.statusWord
    else if ix = 45 then x.xch.lossWord
    else if ix ≤ 47 then 0
    else if ix ≤ 54 then x.trapStatus ix
    else if ix = 55 then x.waitWord now
    else (x.core.sw.getD (ix - 56) 0).toNat
  v % 2 ^ 64

/-- The core may write the word: R/C or RW (R104). -/
def statusWritable (ix : Nat) : Bool := ix == 12 || ix == 14 || ix == 15 || ix == 28 || decide (56 ≤ ix)

/-- A write of a writable status word: R/C words clear, software words take the value (R104). -/
def Tile.writeStatus (x : Tile) (ix : Nat) (v : W64) : Tile :=
  match ix with
  | 12 => { x with cnt := { x.cnt with collisions := 0 } }
  | 14 => { x with cnt := { x.cnt with portWaits := 0 } }
  | 15 => { x with cnt := { x.cnt with winRefusals := 0, winPlace := 0, winMemory := 0, winContext := 0 } }
  | 28 => { x with cnt := { x.cnt with nonfinite := 0 } }
  | _ => x.modCtx x.active fun c => { c with sw := c.sw.setIfInBounds (ix - 56) v }

end Sys2Proof.Machine
end

