-- ==== Sys2Proof/Machine/CoreSys.lean ====
section
/-! DEFINITION. CoreSys: the waits, syncs, queue operations and system instructions of the tile core (R226–R230,
R245, R248, R251–R254, R264–R266). -/

namespace Sys2Proof.Machine

/-! ### Counters -/

/-- WAITK: it completes when k ≥ n, taking n from it, or the core waits (R241, R251). -/
def State.tryWaitk (s : State) (t : Nat) (f : Fin 8) (k n : Nat) : State :=
  let c := (s.tile t).core
  let v := (c.k.getD k 0).toNat
  if n ≤ v then
    (s.modCore t fun c => ({ c with k := c.k.setIfInBounds k (BitVec.ofNat 32 (v - n)) } : RegContext)).issueDone t
  else s.holdWait t f (.waitk k n)

/-- WAITK k, n (R251). -/
def execWaitk (t : Nat) (c : Fin 8) (n : W16) (s : State) : Result :=
  runCore s t (.waitk t c n) fun s f _ => s.tryWaitk t f c.val n.toNat

/-- RDK: rd = k, zero-extended (R245). -/
def execRdk (t : Nat) (rd : Reg) (c : Fin 8) (s : State) : Result :=
  runCore s t (.rdk t rd c) fun s _ _ => s.retire t rd ((s.tile t).core.k[c.val].zeroExtend 64)

/-- SETK: k = ra[31:0] (R241, R245). -/
def execSetk (t : Nat) (ra : Reg) (c : Fin 8) (s : State) : Result :=
  runCore s t (.setk t ra c) fun s _ _ =>
    (s.modCore t fun r => { r with k := r.k.set c.val ((r.reg ra).truncate 32) }).retireNone t

/-! ### Status words -/

/-- TSR: rd = TSW[IX] (R104, R245). -/
def execTsr (t : Nat) (rd : Reg) (ix : Fin 64) (s : State) : Result :=
  runCore s t (.tsr t rd ix) fun s _ _ => s.retire t rd (BitVec.ofNat 64 (s.statusWord t ix.val))

/-- TSWW: an R/C word clears, a software word takes ra, a read-only word is an illegal instruction (R104,
R245). -/
def execTsww (t : Nat) (ra : Reg) (ix : Fin 64) (s : State) : Result :=
  runCore s t (.tsww t ra ix) fun s f w =>
    if statusWritable ix.val then
      (s.modTile t fun x => x.writeStatus ix.val (x.core.reg ra)).retireNone t
    else s.illegal t f w

/-- RSTEP: rd = the frame's current step (R163, R245). -/
def execRstep (t : Nat) (rd : Reg) (s : State) : Result :=
  runCore s t (.rstep t rd) fun s f _ => s.retire t rd (BitVec.ofNat 64 (s.frame f).step)

/-! ### Sync (R108, R253) -/

/-- The sync at which the tile now stands to arrive is an exit sync: its exchange phase runs (R107, R137). -/
def Tile.atExit (x : Tile) : Bool := decide (2 ≤ x.xch.phase)

/-- The first arrival at a sync starts its watchdog, whose value is read then (R113). -/
def State.firstArrives (s : State) (f : Fin 8) : State :=
  if (s.frame f).firstArrival.isSome then s
  else s.modFrame f fun y =>
    { y with firstArrival := some y.cycles, watchdog := s.odGet 0x2302 (f.val + 1) 0x40000000 }

/-- The tile arrives: at a scan-close its scan bit goes with the arrival, and clears (R108, R212). -/
def Tile.takeScan (x : Tile) : Tile :=
  match x.arrival with
  | none => x
  | some a =>
    { x with
      arrival := some { a with scan := a.scanClose && x.watch.scanBit }
      watch := { x.watch with scanBit := !a.scanClose && x.watch.scanBit } }

/-- The tile's core arrives at a sync with its kind and flags (R108, R113, R137); at an exit sync the tile has arrived
once its table has ended too. -/
def State.arrive (s : State) (t : Nat) (f : Fin 8) (kind : Nat) (stepAdvance scanClose switchPoint : Bool) :
    State :=
  let now := (s.frame f).cycles
  let ended := !((s.tile t).atExit && (s.tile t).xch.running.isSome)
  let s := s.startWait t f .sync
  let s := s.modTile t fun x =>
    { x.modCtx x.active RegContext.advance with
      arrival := some ⟨kind, stepAdvance, scanClose, switchPoint, now, false⟩
      xch := { x.xch with
        phase := if x.atExit then (if x.xch.running.isNone then 4 else x.xch.phase) else 1
        kind := kind } }
  if ended then (s.modTile t Tile.takeScan).firstArrives f else s

/-- SYNC: kind 3 is illegal, and so is the switch-point flag on an entry sync of kind 0 or 1 (R253). In the
guest context kind 1, the step-advance flag and the scan-close flag are illegal (R397). -/
def execSync (t : Nat) (kind : Fin 4) (stepAdvance scanClose switchPoint : Bool) (s : State) : Result :=
  runCore s t (.sync t kind stepAdvance scanClose switchPoint) fun s f w =>
    if kind = 3 ∨ (switchPoint ∧ (s.tile t).atExit = false ∧ kind ≠ 2) ∨
        ((s.tile t).active = 2 ∧ (kind = 1 ∨ stepAdvance ∨ scanClose)) then
      s.illegal t f w
    else s.arrive t f kind.val stepAdvance scanClose switchPoint

/-! ### Sends (R30, R230, R252) -/

/-- The destination of a send: bits [15:0] of rb in the layout of R219. -/
structure SendDest where
  kind : Nat
  row : Nat
  col : Nat
  queue : Nat
  deriving DecidableEq, Repr

def sendDest (rb : W64) : SendDest :=
  { kind := bits rb.toNat 0 2, row := bits rb.toNat 2 6, col := bits rb.toNat 8 6, queue := bits rb.toNat 14 2 }

/-- The tile a destination names, if the grid has it. -/
def State.destTile (s : State) (d : SendDest) : Option Nat :=
  if d.kind = 0 ∧ d.row < 48 ∧ d.col < s.grid.width then some (d.row * s.grid.width + d.col) else none

/-- A destination the frame's tiles may send to: one of its tiles, or its supervisor queue (R30, R252). -/
def State.sendAllowed (s : State) (f : Fin 8) (d : SendDest) : Bool :=
  if d.kind = 0 then (match s.destTile d with | some u => s.frameHas f u | none => false)
  else d.kind == 1 && d.queue == 0

/-- The class of a send (R252). -/
def SendDest.cls (d : SendDest) : Nat := if d.kind = 0 then 0 else 3

/-- The packet of a send of registers ra to ra + NQ (R252). -/
def State.sendPacket (s : State) (t : Nat) (f : Fin 8) (ra : Nat) (nq : Nat) (d : SendDest) : Packet :=
  let c := (s.tile t).core
  sentPacket
    (packHeader { kind := d.kind, row := d.row, col := d.col, queue := d.queue, cls := d.cls, op := 0, len := nq + 1
                  srow := s.tileRow t, scol := s.tileCol t, frame := f.val })
    ((List.range (nq + 1)).map fun i => if ra + i = 0 then 0 else c.g.getD (ra + i) 0)

/-- A send refused at the source with code 0x2 (R230, R234). -/
def State.refuseAtSource (s : State) (t : Nat) (d : SendDest) : State :=
  (s.count32 0x2703 0x02).modTile t fun x => x.modQueue d.queue fun q =>
    q.refusal 2 ((s.destTile d).getD 0xFFF)

/-- What a send finds. -/
inductive SendFinding where
  | sent
  | noRoom
  | refused
  deriving DecidableEq, Repr

/-- A send is made, is refused at the source, or finds no room (R230, R252). -/
def State.sendTuple (s : State) (t : Nat) (f : Fin 8) (ra nq : Nat) (rb : W64) : SendFinding × State :=
  let d := sendDest rb
  if !(s.sendAllowed f d) then (.refused, s.refuseAtSource t d)
  else if !(s.injectRoom t d.cls (nq + 2)) then (.noRoom, s)
  else (.sent, s.inject t (s.sendPacket t f ra nq d))

/-- A waiting send: it completes when it is made or refused (R230, R252). -/
def State.trySend (s : State) (t : Nat) (f : Fin 8) (ra rb nq : Nat) : State :=
  let r := s.sendTuple t f ra nq (if rb = 0 then 0 else (s.tile t).core.g.getD rb 0)
  match r.1 with
  | .noRoom => s.holdWait t f (.send ra rb nq)
  | _ => r.2.issueDone t

/-- SEND: registers past g31 make it an illegal instruction (R252). -/
def execSend (t : Nat) (ra rb : Reg) (nq : Fin 4) (s : State) : Result :=
  runCore s t (.send t ra rb nq) fun s f w =>
    if 31 < ra.val + nq.val then s.illegal t f w
    else s.trySend t f ra.val rb.val nq.val

/-- SENDN: rd = 1 sent, 0 not made, 2 refused at the source (R252). -/
def execSendn (t : Nat) (rd ra rb : Reg) (nq : Fin 4) (s : State) : Result :=
  runCore s t (.sendn t rd ra rb nq) fun s f w =>
    if 31 < ra.val + nq.val then s.illegal t f w
    else
      let r := s.sendTuple t f ra.val nq.val (s.reg t rb)
      r.2.retire t rd (match r.1 with | .sent => 1 | .noRoom => 0 | .refused => 2)

/-! ### Queue reads (R226, R228, R230) -/

/-- A word taken from the head of a queue, if it holds one. -/
def State.takeWord (s : State) (t q : Nat) : Option (W64 × State) :=
  match ((s.tile t).queue q).take with
  | none => none
  | some (w, q') => some (w, s.modTile t fun x => x.modQueue q fun _ => q')

/-- A waiting read (R230). -/
def State.tryRecv (s : State) (t : Nat) (f : Fin 8) (q rd : Nat) : State :=
  match s.takeWord t q with
  | none => s.holdWait t f (.recv q rd)
  | some (w, s) => (s.endWait t).modCore t fun c =>
      ((if rd = 0 then c else { c with g := c.g.setIfInBounds rd w }) : RegContext).advance

/-- RECV rd, q (R252). -/
def execRecv (t : Nat) (rd : Reg) (q : Fin 4) (s : State) : Result :=
  runCore s t (.recv t rd q) fun s f _ => s.tryRecv t f q.val rd.val

/-- RECVN rd, ra: the word to rd and 1 to ra, or 0 to ra; one register named twice is illegal (R248, R252). -/
def execRecvn (t : Nat) (rd ra : Reg) (q : Fin 4) (s : State) : Result :=
  runCore s t (.recvn t rd ra q) fun s f w =>
    if rd = ra then s.illegal t f w
    else match s.takeWord t q.val with
      | none => s.retire t ra 0
      | some (v, s) => (s.modCore t fun c => c.setReg rd v).retire t ra 1

/-! ### Traps, END -/

/-- TRAP: the software trap (R264–R266). -/
def execTrap (t : Nat) (ix : Fin 64) (s : State) : Result :=
  runCore s t (.trap t ix) fun s f w =>
    s.raiseTrap t f { cause := 7, detail := ix.val, pc := (s.tile t).core.pc, word := w
                      ix := ix.val }

/-- RTE: the flags of the save area, the handler flag cleared, on at the saved PC plus 4; illegal outside a
handler (R266). -/
def execRte (t : Nat) (s : State) : Result :=
  runCore s t (.rte t) fun s f w =>
    let x := s.tile t
    if x.core.handler then
      let a := x.saveArea x.active
      let pc := s.readScratch t (a + 0x08) 8
      match pc.2.1 with
      | some o => pc.2.2.coreTrap t f 3 o w
      | none =>
        let fl := pc.2.2.readScratch t (a + 0x20) 8
        match fl.2.1 with
        | some o => fl.2.2.coreTrap t f 3 o w
        | none => fl.2.2.modCore t fun c =>
            { c.goTo (BitVec.ofNat 64 (leNat pc.1.data) + 4) with flags := flagsOf (leNat fl.1.data), handler := false }
    else s.illegal t f w

/-- ILLEGAL_INSTRUCTION: the fetched word is one that R243 makes illegal (R264, cause 0x01). -/
def execIllegalInstruction (t : Nat) (word : W32) (s : State) : Result :=
  runFetched s t (fun w => w == word.toNat && (coreInstr t w).isNone) fun s f w => s.illegal t f w

/-- TRAP_ENTRY_COMPLETE: the entry of a trap ends (R265–R267). -/
def execTrapEntryComplete (t : Nat) (s : State) : Result :=
  if s.tileCount ≤ t then .fault .noSuchTile
  else match s.runningFrame t with
    | none => .next s
    | some f => .next (s.endEntry t f)

/-- What END waits for (R254): the engines idle, no table running, every staged read placed. -/
def Tile.endReady (x : Tile) : Bool :=
  x.fwd.idle && x.bwd.idle && x.row.idle && x.dma.idle && x.xch.running.isNone && x.edge.reads.isEmpty

/-- OD 0x2305.03 for an edge fault (R127, R128). -/
def State.edgeFaultWord (s : State) (t : Nat) (f : Fin 8) (overrun : Bool) : Nat :=
  t + b2n (s.tileRow t == 47) * 2 ^ 16 + b2n overrun * 2 ^ 17 + f.val * 2 ^ 18

/-- An edge queue fault (R127): counted, recorded, and the frame faults. The fault of an END under R128 counts in OD
0x2305.04 too (log entry 121). -/
def State.edgeFault (s : State) (t : Nat) (f : Fin 8) (overrun : Bool) : State :=
  let w := s.edgeFaultWord t f overrun
  ((s.odSet 0x2305 0x03 w).count32 0x2305 0x04).frameFault f 0x0005 t w

/-- Every tile of the frame has executed END (R254). -/
def State.allEnded (s : State) (f : Fin 8) : Bool := (s.frameTiles f).all fun t => (s.tile t).hasEnded

/-- The frame stops because every tile has executed END (R34, R254). -/
def State.stopIfEnded (s : State) (f : Fin 8) : State :=
  if s.allEnded f then
    s.modFrame f fun y => { y with
      st := .stopped, endedAll := true
      transition := if y.transition = some .stop then none else y.transition }
  else s

/-- END completes (R128, R137, R227, R254): a staged write whose last word is not pushed yet faults the frame. -/
def State.tryEnd (s : State) (t : Nat) (f : Fin 8) : State :=
  let x := s.tile t
  if !x.endReady then s.holdWait t f .ended
  else if 0 < x.edge.room then (s.endWait t).edgeFault t f false
  else
    let s := (s.endWait t).closeQueues t
    let s := s.modTile t fun x =>
      { x.modCtx x.active fun c => { c with ended := true } with xch := x.xch.counted.noNext }
    s.stopIfEnded f

/-- END (R254). -/
def execEndProgram (t : Nat) (s : State) : Result := runCore s t (.endProgram t) fun s f _ => s.tryEnd t f

end Sys2Proof.Machine
end

