-- ==== Sys2Proof/Machine/Wake.lean ====
section
/-! DEFINITION. Wake: a waiting instruction is tried again when an event may have ended its wait (R230, R249–R254),
and the timeouts of waits (R230, R255). -/

namespace Sys2Proof.Machine

/-- The waiting instruction of a tile is tried again. -/
def State.wake (s : State) (t : Nat) : State :=
  match s.runningFrame t with
  | none => s
  | some f =>
    if (s.tile t).trap.entry.isSome then s else
    match (s.tile t).wait with
    | .none => s
    | .waitk k n => s.tryWaitk t f k n
    | .issue e a w => s.tryIssue t f e a w
    | .send ra rb nq => s.trySend t f ra rb nq
    | .recv q rd => s.tryRecv t f q rd
    | .sync => s
    | .ended => s.tryEnd t f

/-- Every tile of a frame is tried. -/
def State.wakeFrame (s : State) (f : Fin 8) : State := (s.frameTiles f).foldl State.wake s

/-- A command that names a tile ID the grid does not have (R14). -/
def onTile (s : State) (t : Nat) (body : State) : Result :=
  if s.tileCount ≤ t then .fault .noSuchTile else .next body

/-- An event of a tile whose frame runs. In a STOPPED frame staged words, the drain of the outbound queue and staged
completions wait for START, which no rule says (log entry 119). -/
def onRunning (s : State) (t : Nat) (body : Fin 8 → State) : Result :=
  onTile s t (match s.runningFrame t with
    | none => s
    | some f => body f)

/-- The receive-wait timeout the frame latched (R239); 0 is off. -/
def Frame.receiveWait (y : Frame) : Nat := match y.latched with | some l => l.receiveWait | none => 0
def Frame.sendStall (y : Frame) : Nat := match y.latched with | some l => l.sendStall | none => 0

/-- COUNTER_WAIT_TIMEOUT: a WAITK or ISSUE reaches the receive-wait timeout and takes the wait-timeout trap
(R255, R264). -/
def execCounterWaitTimeout (t : Nat) (s : State) : Result :=
  onRunning s t fun f =>
    if (s.frame f).receiveWait = 0 then s else
    match (s.tile t).wait with
    | .waitk k n =>
      s.coreTrap t f 8 (1 + k * 2 ^ 3) (wordW ⟨k % 8, Nat.mod_lt _ (by decide)⟩ (BitVec.ofNat 16 n))
    | .issue e _ w => s.coreTrap t f 8 (2 + e * 2 ^ 3) w
    | _ => s

/-! ### Stall faults (R230, R239) -/

/-- The destination a waiting send names: tile ID, or 0xFFFF for an apron. -/
def State.stallDest (s : State) (t rb : Nat) : Nat :=
  (s.destTile (sendDest (if rb = 0 then 0 else (s.tile t).core.g.getD rb 0))).getD 0xFFFF

/-- The stall report record of a tile (OD 0x2705). -/
def State.stallRecord (s : State) (f : Fin 8) (t : Nat) : List Byte :=
  let x := s.tile t
  let tail := leBytes 4 (min ((s.frame f).cycles - x.waitFrom) 0xFFFFFFFF) ++
    ((List.range 4).map fun q => BitVec.ofNat 8 (x.queue q).held) ++ zeroBytes 4
  match x.wait with
  | .send _ rb _ =>
    let d := s.stallDest t rb
    leBytes 2 (1 + x.sendQueue rb * 2 ^ 2 + b2n (d == 0xFFFF) * 2 ^ 4) ++ leBytes 2 d ++ tail
  | .recv q _ => leBytes 2 (2 + q * 2 ^ 2) ++ leBytes 2 0xFFFF ++ tail
  | _ => zeroBytes 16

/-- The stall report is frozen: every tile of the frame that waits on a send or a read (R230). -/
def State.freezeStall (s : State) (f : Fin 8) : State :=
  { s with stall := (s.frameTiles f).foldl (fun m t =>
      match (s.tile t).wait with
      | .send _ _ _ => sput [] m t (s.stallRecord f t)
      | .recv _ _ => sput [] m t (s.stallRecord f t)
      | _ => m) [] }

/-- A stall fault (R230): OD 0x2703.04, the report and the frame fault. -/
def State.stallFault (s : State) (f : Fin 8) (t dest q : Nat) (receive : Bool) : State :=
  let w := t + dest * 2 ^ 16 + q * 2 ^ 32 + b2n receive * 2 ^ 34 + f.val * 2 ^ 35
  ((s.freezeStall f).odSet 0x2703 0x04 w).frameFault f 0x0008 t w

/-- SEND_STALL_TIMEOUT: a waiting send waits past the frame's timeout (R230). -/
def execSendStallTimeout (t : Nat) (s : State) : Result :=
  onRunning s t fun f =>
    if (s.frame f).sendStall = 0 then s else
    match (s.tile t).wait with
    | .send _ rb _ => s.stallFault f t (s.stallDest t rb) ((s.tile t).sendQueue rb) false
    | _ => s

/-- RECEIVE_WAIT_TIMEOUT: a waiting read waits past the frame's timeout (R230). -/
def execReceiveWaitTimeout (t : Nat) (s : State) : Result :=
  onRunning s t fun f =>
    if (s.frame f).receiveWait = 0 then s else
    match (s.tile t).wait with
    | .recv q _ => s.stallFault f t 0xFFFF q true
    | _ => s

/-! ### Engine events -/

/-- The engine of an array operation. -/
def arrayEngineCode (e : ArrayEngine) : Nat := match e with | .fwd => 1 | .bwd => 2 | .row => 3

/-- ENGINE_OPERATION_COMPLETE: the running operation of an array engine is done (R102, R167–R187, R177, R265). -/
def execEngineOperationComplete (t : Nat) (e : ArrayEngine) (use : PortUse) (s : State) : Result :=
  onRunning s t fun f =>
    match ((s.tile t).engine (arrayEngineCode e)).running with
    | none => s
    | some op =>
      let s := s.usePorts t use
      (match e with
        | .fwd => s.completeFwd t f op
        | .bwd => s.completeBwd t f op
        | .row => s.completeRow t f op).wake t

/-- DMA_COMPLETE: the running DMA operation has nothing outstanding, and completes (R257). -/
def execDmaComplete (t : Nat) (use : PortUse) (s : State) : Result :=
  onRunning s t fun f =>
    match (s.tile t).dma.running with
    | none => s
    | some op =>
      if dmaRemote op.desc && !(dmaRowsDone op) then s
      else (((s.usePorts t use).completeDma t f op).pumpDma t f).wake t

/-- STAGED_READ_WORD_ARRIVAL: the next word of a staged read enters the inbound queue (R126, R129, R294). -/
def execStagedReadWordArrival (t : Nat) (s : State) : Result :=
  onRunning s t fun f => (s.stagedWord t f).wake t

/-- OUTBOUND_QUEUE_DRAIN: a word leaves the outbound queue for its block (R128, R129). -/
def execOutboundQueueDrain (t : Nat) (s : State) : Result :=
  onRunning s t fun f => s.drainWord t f

/-- STAGED_WRITE_COMPLETE: the last word of the open staged write has been written (R128, R129). -/
def execStagedWriteComplete (t : Nat) (s : State) : Result :=
  onRunning s t fun f =>
    match (s.tile t).edge.writes with
    | [] => s
    | r :: rest =>
      if r.done < r.words then s else
      ((s.modTile t fun x => { x with edge := { x.edge with writes := rest } }).finishStaged t f r).wake t

end Sys2Proof.Machine
end

