-- ==== Sys2Proof/Machine/Packets.lean ====
section
/-! DEFINITION. Packets: the message mesh at work: hops, tuples, refusals, remote rows, the memory gateways and the
supervisor queues (R218–R235, R294, R406, R449). -/

namespace Sys2Proof.Machine

/-! ### Across the die (R219, R380) -/

/-- The edge tile at which a link's transactions cross: row 4k of its side's edge column. -/
def State.crossTile (s : State) (k : Fin 24) : Nat :=
  4 * (k.val % 12) * s.grid.width + (if k.val < 12 then 0 else s.grid.width - 1)

/-- A transaction as a class-3 packet to unit 3 of the apron on the other side (R219, R380). -/
def State.crossPacket (s : State) (k : Fin 24) (x : Txn) : Packet :=
  let words := leBytes 16 x.header.toNat ++ x.payload
  let data := (chunks 8 words.length words).map fun b => BitVec.ofNat 64 (leNat b)
  sentPacket (packHeader
    { kind := 3, row := 4 * (k.val % 12), col := if k.val < 12 then s.grid.width - 1 else 0, queue := 3, cls := 3,
      op := 6
      len := data.length, srow := 4 * (k.val % 12), scol := if k.val < 12 then 0 else s.grid.width - 1, apron := true
      frame := 0 }) data

/-- The transaction that such a packet carries. -/
def crossTxn (p : Packet) : Txn :=
  let bytes := p.data.flatMap fun w => leBytes 8 w.toNat
  ⟨BitVec.ofNat 128 (leNat (bytes.take 16)), bytes.drop 16⟩

/-- The packet enters the mesh at the edge tile of the arriving link. -/
def State.crossDie (s : State) (k : Fin 24) (x : Txn) : State :=
  (s.modNet (s.crossTile k) fun r => r.enter (if k.val < 12 then 3 else 1) (s.crossPacket k x)).count64 0x2B03 0x02

/-- A relayed transaction whole at the apron beyond port `o` of an edge tile leaves by the link its route names; one
that a router marked is discarded and counted (R225, R380). -/
def State.crossed (s : State) (t o : Nat) : State :=
  match (s.tile t).net.ejected (stageKey o 3) with
  | none => s
  | some p =>
    if pktKind p.header ≠ 3 ∨ pktQueue p.header ≠ 3 ∨ pktOp p.header ≠ 6 then s else
    let s := s.takeStage t o p
    if isPoisoned p then s.count32 0x2703 0x01
    else match s.egress (txnDst (crossTxn p).header) with
      | none => s.unroutable (crossTxn p).header
      | some q => s.sendTxn q (crossTxn p)

/-! ### Hops (R221, R225) -/

/-- The flit at the head of an input, as it has come over its link, has bad parity (R225). -/
def State.headBad (s : State) (t port cls : Nat) (fault : Bool) : Bool :=
  match (s.tile t).net.input port cls with
  | [] => false
  | f :: _ => (f.arrive fault).parityBad

/-- PACKET_HOP: the flit at the head of an input of a router is granted its output (R221, R225, R380); `fault` says that
its parity was inverted on the way in. -/
def execPacketHop (t : Nat) (port : Fin 5) (cls : Fin 4) (fault : Bool) (s : State) : Result :=
  onTile s t (match s.wants t port.val cls.val with
    | none => s
    | some o =>
      if s.grant t o ≠ some (port.val, cls.val) then s else
      let s := if s.headBad t port.val cls.val fault then (s.count32 0x2703 0x03).logEvent 0x0501 t else s
      let s := s.hop t port.val cls.val o fault
      (if o = 4 then s else s.crossed t o).wake t)

/-! ### Tuples (R226–R229) -/

/-- The packet is addressed to the tile. -/
def State.forTile (s : State) (t : Nat) (h : W64) : Bool :=
  pktKind h == 0 && pktRow h == s.tileRow t && pktCol h == s.tileCol t

/-- TUPLE_ARRIVAL: a tuple is whole at its tile (R225–R229). -/
def execTupleArrival (t : Nat) (p : Packet) (s : State) : Result :=
  onTile s t (if s.forTile t p.header && pktOp p.header == 0 then ((s.drainStage t).arriveTuple t p).wake t else s)

/-- TUPLE_ENTER_AFTER_WAIT: a tuple that waited in the ejection stage enters its queue (R228). -/
def execTupleEnterAfterWait (t : Nat) (q : Fin 4) (s : State) : Result :=
  let u := s.drainStage t
  onTile s t (match (u.tile t).net.ejected 0 with
    | none => u
    | some p =>
      let w := (u.tile t).queue q.val
      if pktQueue p.header = q.val ∧ pktOp p.header = 0 ∧ w.isOpen ∧ w.hasRoom p.data.length ∧
          isPoisoned p = false then
        ((u.takeEjected t p).enterQueue t p).wake t
      else u)

/-! ### Remote rows (R231–R233) -/

/-- The response or acknowledgement of a tile to a request. -/
def State.answer (s : State) (t : Nat) (h : W64) (op status : Nat) (data : List W64) : State :=
  s.inject t (sentPacket (packHeader
    { kind := if pktSrcApron h then (if pktSrcRow h = 0 then 1 else 2) else 0
      row := pktSrcRow h, col := pktSrcCol h, cls := 2, op := op, len := data.length, srow := s.tileRow t
      scol := s.tileCol t, frame := pktFrame h, status := status, tag := pktTag h }) data)

/-- The tile's frame is FAULTED: its memories keep their contents (R501). -/
def State.tileHalted (s : State) (t : Nat) : Bool :=
  match s.frameOf t with
  | some f => (s.frame f).st == .faulted
  | none => false

/-- The device address of a row request: bits [47:0] of its first data flit (R219). -/
def requestAddr (p : Packet) : Nat := (p.data.headD 0).toNat % 2 ^ 48

/-- The local row a request names in the tile, if it is a whole aligned row of it (R84, R233 code 0x5). -/
def requestRow (t : Nat) (p : Packet) : Option Nat :=
  match regionOf (requestAddr p) with
  | .main u o => if u = t ∧ o % 512 = 0 ∧ o / 512 < 896 then some (o / 512) else none
  | _ => none

/-- A row as data flits, and data flits as a row. -/
def rowFlits (row : List Byte) : List W64 := (chunks 8 row.length row).map fun b => BitVec.ofNat 64 (leNat b)
def flitsRow (d : List W64) : List Byte := d.flatMap fun w => leBytes 8 w.toNat

/-- ROW_READ_REQUEST: a tile serves a remote row read (R102, R225, R231, R233, R291). -/
def execRowReadRequest (t : Nat) (p : Packet) (use : PortUse) (s : State) : Result :=
  let h := p.header
  onTile s t (
    if !(s.forTile t h && pktOp h == 1) then s else
    let s := s.takeEjected t p
    if isPoisoned p then s.answer t h 4 6 []
    else if s.tileHalted t then s.answer t h 4 4 [] else
    match requestRow t p with
    | none => s.answer t h 4 5 []
    | some r =>
      let ctx := (s.tile t).active
      if p.data.length ≠ 1 then s.answer t h 4 5 []
      else if !((s.tile t).decl.allows ctx false 0 r) then (s.windowRefusal t ctx 0 r).answer t h 4 4 []
      else
        let q := (s.usePorts t use).readRow t r 5
        if q.1.bad then q.2.answer t h 4 6 [] else q.2.answer t h 4 0 (rowFlits q.1.data))

/-- ROW_WRITE: a tile serves a remote row write; a row that its sender poisoned is written poisoned, one that a router
marked is refused (R102, R225, R231, R233, R294; log entries 95 and 97). -/
def execRowWrite (t : Nat) (p : Packet) (use : PortUse) (s : State) : Result :=
  let h := p.header
  onTile s t (
    if !(s.forTile t h && pktOp h == 2) then s else
    let s := s.takeEjected t p
    if p.marked then s.answer t h 5 6 []
    else if s.tileHalted t then s.answer t h 5 4 [] else
    match requestRow t p with
    | none => s.answer t h 5 5 []
    | some r =>
      let ctx := (s.tile t).active
      if p.data.length ≠ 65 then s.answer t h 5 5 []
      else if !((s.tile t).decl.allows ctx true 0 r) then (s.windowRefusal t ctx 0 r).answer t h 5 4 []
      else ((s.usePorts t use).writeRow t r (flitsRow (p.data.drop 1)) (pktPoison h)).answer t h 3 0 [])

/-- A tag of the tile is free again (R231). -/
def State.freeRemote (s : State) (t tag : Nat) : State :=
  s.modTile t fun x => { x with tags := sput none x.tags tag none }

/-- A row of a remote read has come back, or has failed (R231, R233): the reserved row is written. -/
def State.landRow (s : State) (t : Nat) (f : Fin 8) (o : RemoteOp) (data : List Byte) (bad : Bool) : State :=
  match (s.tile t).dma.running with
  | none => s
  | some op =>
    let row := if bad then List.replicate 512 0xFF else data
    let s := s.rowDone t (if bad then some (busDevice o.addr) else none)
    let s := if dmaOp op.desc = 1 then
        let w := s.engineWrite t op.context (dmaDst op.desc + o.row) row bad
        w.2.modDma t fun q => { q with busError := firstBus q.busError w.1 }
      else s.modDma t fun q => { q with rows := sput ([], false) q.rows o.row (row, bad) }
    s.pumpDma t f

/-- READ_RESPONSE: a row, or a refusal of a row read, comes back to its requester (R225, R231, R233). An
abandoned operation's response is dropped (R501). -/
def execReadResponse (t : Nat) (p : Packet) (s : State) : Result :=
  let h := p.header
  onTile s t (
    if !(s.forTile t h && pktOp h == 4) then s else
    let s := s.takeEjected t p
    match sget none (s.tile t).tags (pktTag h), s.frameOf t with
    | some o, f =>
      if o.write then s
      else if o.gone then s.freeRemote t (pktTag h)
      else match f with
        | some f => (s.freeRemote t (pktTag h)).landRow t f o (flitsRow p.data)
            (isPoisoned p || pktStatus h != 0 || p.data.length != 64)
        | none => s
    | none, _ => s)

/-- A row of a remote write is acknowledged, or refused, or a row read is refused (R231, R233); of an abandoned
operation only the tag is freed (R501). -/
def State.ackRow (s : State) (t : Nat) (h : W64) (bad : Bool) : State :=
  match sget none (s.tile t).tags (pktTag h), s.frameOf t with
  | some o, some f =>
    if o.gone then s.freeRemote t (pktTag h)
    else if o.write then
      (((s.freeRemote t (pktTag h)).rowDone t (if bad then some (busDevice o.addr) else none)).pumpDma t f)
    else if bad then (s.freeRemote t (pktTag h)).landRow t f o [] true
    else s
  | some o, none => if o.gone then s.freeRemote t (pktTag h) else s
  | none, _ => s

/-- WRITE_ACKNOWLEDGEMENT: a row of a remote write has been written (R225, R231). -/
def execWriteAcknowledgement (t : Nat) (p : Packet) (s : State) : Result :=
  onTile s t (
    if s.forTile t p.header && pktOp p.header == 3 then
      (s.takeEjected t p).ackRow t p.header (isPoisoned p)
    else s)

/-- REFUSAL_ARRIVAL: a refusal comes back: of a tuple into the status word of the queue addressed, of a remote
row as a bus error (R229, R233, R234). One to the supervisor is counted in OD 0x2703.01 (R235). -/
def execRefusalArrival (t : Nat) (p : Packet) (s : State) : Result :=
  let h := p.header
  onTile s t (
    if pktKind h == 1 && pktQueue h == 0 && pktOp h == 5 then (s.takeApron p).count32 0x2703 0x01
    else if !(s.forTile t h && pktOp h == 5) then s else
    let s := s.takeEjected t p
    if 4 ≤ pktStatus h then s.ackRow t h true
    else s.modTile t fun x => x.modQueue (pktQueue h) fun q =>
      q.refusal (pktStatus h) (if pktSrcApron h then 0xFFF else s.pktSource h))

/-! ### Memory gateways (R231, R233, R284, R294, R448) -/

/-- The stack and staging addresses a gateway serves: north S0, S1 and staging memory, south S2 and S3 (R23). -/
def gatewayServes (south : Bool) (a : Nat) : Bool :=
  match regionOf a with
  | .stack n _ => (decide (2 ≤ n)) == south
  | .staging _ => !south
  | _ => false

/-- The answer of a gateway to a tile. -/
def State.gatewayAnswer (s : State) (south : Bool) (h : W64) (op status : Nat) (data : List W64) : State :=
  s.apronSend south (sentPacket (packHeader
    { row := pktSrcRow h, col := pktSrcCol h, cls := 2, op := op, len := data.length
      srow := if south then 47 else 0, scol := pktSrcCol h, apron := true, frame := pktFrame h
      status := status, tag := pktTag h }) data)

/-- The context of a tile's remote operation: a tile does not leave a context with one outstanding (R103, R397). -/
def State.sourceContext (s : State) (h : W64) : Nat := (s.tile (s.pktSource h)).active

/-- MEMORY_GATEWAY_REQUEST: a gateway serves a row read or a row write (R225, R233, R284, R294, R448). -/
def execMemoryGatewayRequest (south : Bool) (p : Packet) (s : State) : Result :=
  let h := p.header
  let a := requestAddr p
  let f := pktFrameIx h
  let ctx := s.sourceContext h
  if pktKind h ≠ (if south then 2 else 1) ∨ pktQueue h ≠ 2 then .next s else
  if (pktOp h = 1 ∨ pktOp h = 2) ∧ s.gatewayWaits f ctx a then .next (s.holdApron p) else
  let s := s.takeApron p
  if pktOp h = 1 then
    if isPoisoned p then .next (s.gatewayAnswer south h 4 6 [])
    else if !(gatewayServes south a) || p.data.length != 1 then .next (s.gatewayAnswer south h 4 5 [])
    else
      let r := s.gatewayRead f ctx a
      .next (r.2.2.gatewayAnswer south h 4 r.1 (if r.1 = 0 then rowFlits r.2.1 else []))
  else if pktOp h = 2 then
    if p.marked then .next (s.gatewayAnswer south h 5 6 [])
    else if !(gatewayServes south a) || p.data.length != 65 then .next (s.gatewayAnswer south h 5 5 [])
    else
      let r := s.gatewayWrite f ctx a (flitsRow (p.data.drop 1)) (pktPoison h)
      .next (if r.1 = 0 then r.2.gatewayAnswer south h 3 0 [] else r.2.gatewayAnswer south h 5 r.1 [])
  else .next s

/-! ### Supervisor queues (R235, R449) -/

/-- SUPERVISOR_QUEUE_ARRIVAL: a tuple of a tile reaches its frame's supervisor queue; one that finds it full waits at
the apron and holds up its class there (R225, R233, R235). -/
def execSupervisorQueueArrival (p : Packet) (s : State) : Result :=
  let h := p.header
  if pktKind h ≠ 1 ∨ pktQueue h ≠ 0 ∨ pktOp h ≠ 0 then .next s else
  let f := pktFrameIx h
  let y := s.frame f
  let tup := s.tupleOf p
  if isPoisoned p then .next ((s.takeApron p).count32 0x2703 0x01)
  else if !y.queueOpen then .next (((s.takeApron p).count32 0x2703 0x01).supervisorRefusal tup.source f.val)
  else if y.queueRoom p.data.length then
    .next ((s.takeApron p).setFrame f { y with queue := y.queue ++ [tup] })
  else if y.waiting.contains p then .next s
  else .next ((s.holdApron p).setFrame f { y with waiting := y.waiting ++ [p] })

/-- The payload of a tuple's result (R448). -/
def tuplePayload (p : Tuple) : List Byte :=
  leBytes 8 (p.source + p.words.length * 2 ^ 16) ++ p.words.flatMap fun w => leBytes 8 w.toNat

/-- The oldest waiting tuple leaves the apron for the queue once it has room (R235). -/
def State.letIn (s : State) (f : Fin 8) : State :=
  let y := s.frame f
  match y.waiting with
  | p :: rest =>
    if y.queueHeld + p.data.length ≤ 256 then
      (s.takeApron p).setFrame f { y with queue := y.queue ++ [s.tupleOf p], waiting := rest }
    else s
  | [] => s

/-- SUPERVISOR_TUPLE_SERVICE: the firmware places the oldest tuple in a result slot; with none free it stays
(R235, R448, R449). -/
def execSupervisorTupleService (f : Fin 8) (s : State) : Result :=
  match (s.frame f).queue, s.freeSlot with
  | p :: rest, some i =>
    let s := s.setFrame f { s.frame f with queue := rest }
    .next ((Nat.repeat (fun s => s.letIn f) (s.frame f).waiting.length s).publishAt i f.val (tuplePayload p))
  | _, _ => .next s

/-- A tuple of the supervisor to a tile queue, entering at row 0 of the destination column (R235). -/
def State.supervisorSend (s : State) (t q : Nat) (words : List W64) : State :=
  let f := match s.frameOf t with | some f => f.val | none => 0
  s.apronSend false (sentPacket (packHeader
    { row := s.tileRow t, col := s.tileCol t, queue := q, cls := 0, op := 0, len := words.length
      srow := 0, scol := s.tileCol t, apron := true, frame := f }) words)

/-- SUPERVISOR_TUPLE_SEND: 1 to 4 words (R226, R235). -/
def execSupervisorTupleSend (t : Nat) (q : Fin 4) (words : List W64) (s : State) : Result :=
  onTile s t (if words.isEmpty ∨ 4 < words.length then s else s.supervisorSend t q.val words)

end Sys2Proof.Machine
end

