-- ==== Sys2Proof/Machine/Access.lean ====
section
/-! DEFINITION. Access: writes and reads of device addresses on behalf of another device or of an engine: frame access
and device-level access (R84, R102, R279, R284, R294, R375, R378, R420, R427, R435). -/

namespace Sys2Proof.Machine

/-! ### Frame access (R378) -/

/-- The rows of a tile that a range of whole rows names: tile, first row, count. -/
def rowRange (a n : Nat) : Option (Nat × Nat × Nat) :=
  match regionOf a with
  | .main t o => if o % 512 = 0 ∧ n % 512 = 0 ∧ n ≠ 0 ∧ o / 512 + n / 512 ≤ 896 then some (t, o / 512, n / 512)
    else none
  | _ => none

/-- The status an access of `n` bytes at `a` meets before it touches anything (R84, R102, R279, R284, R375, R378):
`f` is the frame it is checked against, none for an engine of the device. A write over a link comes from a main or an
evaluation context (R397). -/
def State.accessCode (s : State) (f : Option (Fin 8)) (write : Bool) (a n : Nat) : Nat :=
  match regionOf a with
  | .stack _ _ =>
    if a % 64 ≠ 0 ∨ n % 64 ≠ 0 ∨ !(s.rangeBacked a n) then 5
    else match f with
      | none => 0
      | some f =>
        if (List.range (n / 64)).all fun i =>
            let p := s.stackPlace ((a + 64 * i) / stackSize) ((a + 64 * i) % stackSize)
            s.channelHeld f 0 p.stack p.channel then 0 else 7
  | .staging _ => if a + n ≤ stagingBase + 0x1000000 ∧ !(write && touchesResults a n) then 0 else 5
  | .main t _ =>
    if s.tileCount ≤ t then 5
    else match f with
      | some f =>
        if !(s.frameHas f t) then 4
        else match rowRange a n with
          | none => 5
          | some (t, r, k) =>
            if (List.range k).all fun i => (s.tile t).decl.allows (s.tile t).active write 0 (r + i) then 0 else 4
      | none => if (rowRange a n).isSome then 0 else 5
  | _ => 5

/-- The tile's count of a row refused by a window (R102). -/
def State.countRefusal (s : State) (write : Bool) (a n : Nat) : State :=
  match rowRange a n with
  | some (t, r, k) =>
    if s.tileCount ≤ t then s else
    let ctx := (s.tile t).active
    match (List.range k).find? fun i => !((s.tile t).decl.allows ctx write 0 (r + i)) with
    | some i => s.windowRefusal t ctx 0 (r + i)
    | none => s
  | none => s

/-- Bytes written where `accessCode` found nothing; the status of R375. -/
def State.storeAt (s : State) (a : Nat) (data : List Byte) (poison : Bool) : Nat × State :=
  match rowRange a data.length with
  | some (t, r, _) =>
    (0, ((chunks 512 data.length data).zipIdx).foldl (fun s p => s.writeRow t (r + p.2) p.1 poison) s)
  | none =>
    let w := s.writeDevice a data poison
    (if w.1 then 0 else 6, w.2)

/-- Bytes read where `accessCode` found nothing. -/
def State.loadAt (s : State) (a n : Nat) : ReadOut × State :=
  match rowRange a n with
  | some (t, r, k) =>
    (List.range k).foldl (fun (x : ReadOut × State) i =>
      let q := x.2.readRow t (r + i) 5
      (⟨x.1.data ++ q.1.data, x.1.bad || q.1.bad⟩, q.2)) (⟨[], false⟩, s)
  | none => s.readDevice a n

/-- A write checked and made; the status of R375. -/
def State.writeChecked (s : State) (f : Option (Fin 8)) (a : Nat) (data : List Byte) (poison : Bool) : Nat × State :=
  let c := s.accessCode f true a data.length
  if c = 4 ∧ f.isSome then (c, s.countRefusal true a data.length)
  else if c ≠ 0 then (c, s) else s.storeAt a data poison

/-- A read checked and made: status, data, next state; an uncorrectable block is delivered with status 0x6. -/
def State.readChecked (s : State) (f : Option (Fin 8)) (a n : Nat) : Nat × List Byte × State :=
  let c := s.accessCode f false a n
  if c = 4 ∧ f.isSome then (c, [], s.countRefusal false a n)
  else if c ≠ 0 then (c, [], s)
  else
    let r := s.loadAt a n
    (if r.1.bad then 6 else 0, r.1.data, r.2)

/-! ### Device-level access to a hosting slot (R378, R420, R427, R435) -/

/-- A slot of the hosting table (R435). -/
structure HostSlot where
  base : Nat
  source : Nat
  length : Nat
  lease : Nat
  reserved : Nat
  deriving DecidableEq, Repr

def parseSlot (t : List Byte) (i : Nat) : HostSlot :=
  let b := slice t (32 * i) 32
  ⟨sliceNat b 0 6, sliceNat b 6 2, sliceNat b 8 8, sliceNat b 16 4, sliceNat b 20 12⟩

/-- The hosting slot as it stands. -/
def State.hostSlot (s : State) (i : Nat) : HostSlot := parseSlot (s.tableBytes 0x2D30 0 256) i

/-- A slot that hosts a device. -/
def HostSlot.used (h : HostSlot) : Bool := h.source != 0xFFFF

/-- The slot that lets a device reach a range (R420). -/
def State.slotFor (s : State) (dev a n : Nat) : Option Nat :=
  (List.range 8).find? fun i =>
    let h := s.hostSlot i
    h.used && h.source == dev && decide (h.base ≤ a) && decide (a + n ≤ h.base + 2 * h.length)

/-- The header of a hosted generation: magic good, state, job, step. -/
def hostedHeader (b : List Byte) : Bool × Nat × Nat × Nat :=
  (sliceNat b 0 4 == 0x534E5053, sliceNat b 6 1, sliceNat b 7 1, sliceNat b 16 8)

/-- OD 0x2D31 of a slot as its headers stand (R435). -/
def State.refreshHosting (s : State) (i : Nat) : State :=
  let h := s.hostSlot i
  let look (g : Nat) : Bool × Nat × Nat × Nat :=
    if s.rangeBacked (h.base + g * h.length) 64 then hostedHeader (s.blockBytes (h.base + g * h.length))
      else (false, 0, 0, 0)
  let x := look 0
  let y := look 1
  let st (q : Bool × Nat × Nat × Nat) : Nat := if q.1 then q.2.1 % 4 else 0
  let step (q : Bool × Nat × Nat × Nat) : Nat := if q.1 && q.2.1 == 2 then q.2.2.2 % 2 ^ 24 else 0
  let job := if x.1 then x.2.2.1 % 16 else if y.1 then y.2.2.1 % 16 else 0
  s.odSet 0x2D31 (i + 1) (st x + st y * 4 + job * 2 ^ 4 + max (step x) (step y) * 2 ^ 8)

/-- A device-level write of a device (R378, R420): refused with 0x4 outside its slots. -/
def State.writeHosted (s : State) (dev a : Nat) (data : List Byte) (poison : Bool) : Nat × State :=
  match s.slotFor dev a data.length with
  | none => (4, s)
  | some i =>
    let r := s.writeChecked none a data poison
    (r.1, r.2.refreshHosting i)

/-- A device-level read of a device. -/
def State.readHosted (s : State) (dev a n : Nat) : Nat × List Byte × State :=
  match s.slotFor dev a n with
  | none => (4, [], s)
  | some _ => s.readChecked none a n

end Sys2Proof.Machine
end

