-- ==== Sys2Proof/Machine/JobTables.lean ====
section
/-! DEFINITION. JobTables: a job's table slots and the tables they name in this device's stacks (R307–R309, R312,
R314, R334, R341, R342, R352). -/

namespace Sys2Proof.Machine

/-! ### Slots (R334, R339, R361) -/

def jobIndex (j : Fin 16) : Nat := 0x2910 + j.val
def updateIndex (j : Fin 16) : Nat := 0x2A10 + j.val

/-- An entry of slot `i`: 0 epoch, 1 bucket table base, 2 bucket count, 3 group table base, 4 send-list base,
5 send-list length, 6 exponent table base. -/
def State.slotEntry (s : State) (j : Fin 16) (i e : Nat) : Nat :=
  s.odGet (jobIndex j) (3 + 7 * i + e) 0

def State.bucketCount (s : State) (j : Fin 16) (i : Nat) : Nat := s.slotEntry j i 2

/-- The slot that holds epoch `e` (R334). -/
def State.epochSlot (s : State) (j : Fin 16) (e : Nat) : Option Nat :=
  if s.slotEntry j (e % 2) 0 = e then some (e % 2) else none

/-- The send epoch of a job (OD 0x291j.01). -/
def State.sendEpoch (s : State) (j : Fin 16) : Nat := s.odGet (jobIndex j) 0x01 0

/-- Epoch `e` is older than fence `f` (R335). -/
def epochOlder (e f : Nat) : Bool :=
  let d := (f + 256 - e % 256) % 256
  decide (1 ≤ d) && decide (d ≤ 127)

/-- A job number as an index. -/
def jobIx (n : Nat) : Fin 16 := ⟨n % 16, Nat.mod_lt _ (by decide)⟩

/-! ### Landing records (R352) -/

/-- A landing record: extents of rows in the order the stream fills them, and the notice. -/
structure LandingRec where
  /-- First row address and row count of each element extent. -/
  extents : List (Nat × Nat)
  scale : Nat × Nat
  tile : Nat
  queue : Nat
  enable : Bool
  frame : Nat
  deriving DecidableEq, Repr

def landingRec (b : List Byte) : LandingRec :=
  let ext (i : Nat) : Nat × Nat := (sliceNat b (8 * i) 6, sliceNat b (8 * i + 6) 2)
  { extents := ((List.range 4).map ext).filter fun e => e.2 != 0
    scale := ext 4, tile := sliceNat b 40 2, queue := bits (sliceNat b 42 1) 0 2
    enable := bit (sliceNat b 42 1) 2, frame := bits (sliceNat b 42 1) 3 3 }

/-- The landing record of a bucket in slot `i`. -/
def State.landingAt (s : State) (j : Fin 16) (i bucket : Nat) : Option LandingRec × State :=
  let r := s.readTable (s.odGet (updateIndex j) (5 + i) 0 + 64 * bucket) 64
  (r.1.map landingRec, r.2)

/-- OD 0x2A03 of an engine: the head of its queue is the bucket it is at work on until its UPDATE_BUCKET (R340, R360;
log entry 55). -/
def State.engineState (s : State) (e : Nat) : Nat :=
  match s.buckets.filter fun b => b.area / stackSize == e with
  | [] => 0
  | b :: rest => 1 + rest.length * 2 ^ 8 + (b.job + b.epoch * 2 ^ 4 + b.bucket * 2 ^ 12) * 2 ^ 36

/-- A bucket has landed whole in a frame for a sealed step (R353). -/
def State.hasLanded (s : State) (j : Fin 16) (bucket step : Nat) (f : Fin 8) : Bool :=
  s.landings.any fun l => l.job == j.val && l.bucket == bucket && l.step == step && l.frame == f.val && l.notified

/-- Every bucket of the just-sealed step whose landing record names frame `f` has landed (R400). -/
def State.allLanded (s : State) (f : Fin 8) : Bool :=
  match s.jobOf f with
  | none => false
  | some n =>
    let j := jobIx n
    let step := ((s.frame f).step + 2 ^ 24 - 1) % 2 ^ 24
    let i := (sget {} s.rolls j.val).sealedEpoch % 2
    (sget {} s.rolls j.val).sealedSteps.contains step &&
      (List.range (s.bucketCount j i)).all fun b =>
        match (s.landingAt j i b).1 with
        | none => true
        | some r => r.extents.isEmpty || r.frame != f.val || s.hasLanded j b step f

/-- A due evaluation turn becomes pending once the step's buckets have landed (R400). -/
def State.checkEval (s : State) (f : Fin 8) : State :=
  if (s.frame f).evalDue && s.allLanded f then
    s.modFrame f fun y => { y with evalDue := false, evalPending := true }
  else s

end Sys2Proof.Machine
end

