-- ==== Sys2Proof/Machine/DictCheck.lean ====
section
/-! DEFINITION. DictCheck: the checks of a dictionary access in the order of R45, the rules of the owning chapters among
them, and what an access that has been served leaves behind (R40–R50, R79–R82, R499). -/

namespace Sys2Proof.Machine

/-! ### Lookup (R40, R42) -/

/-- The row of an index and subindex that the tables list. -/
def entryAt (i sub : Nat) : Option Entry := (rowsOf i).find? fun e => e.hasSub sub

/-- The highest subindex of an index (R42). -/
def highestSub (i : Nat) : Nat := (rowsOf i).foldl (fun m e => max m e.hi) 0

/-- The row of subindex 0x00 that R42 adds to an index with subindexes from 0x01 upward. -/
def countEntry (i : Nat) : Entry := ⟨i, 1, 1, 0, 0, .u8, .const, highestSub i, false, .any, 0⟩

/-- The entry an access names, or the abort code of steps 2 and 3 of R45. -/
def findEntry (i sub : Nat) : Except Nat Entry :=
  match rowsOf i with
  | [] => .error 0x06020000
  | _ :: _ =>
    match entryAt i sub with
    | some e => .ok e
    | none => if sub = 0 ∧ 0 < highestSub i then .ok (countEntry i) else .error 0x06090011

/-! ### Path rights (R45 step 5, R79–R81) -/

/-- The management path is closed to the access (R79, R80). -/
def State.pathClosed (s : State) (via : Path) (write : Bool) : Bool :=
  match via with
  | .pcie => false
  | .can => write && s.odGet 0x1E40 0x01 1 == 0
  | .uzon src =>
    (write && s.odGet 0x1E40 0x02 1 == 0) ||
      (s.odGet 0x1E40 0x03 0 == 1 && (List.range 8).all fun n => s.odGet 0x1E40 (4 + n) 0xFFFF != src)

/-- The entry's access code refuses the path (R13). -/
def hostOnly (e : Entry) (via : Path) : Bool := e.access == .rwHost && via != .pcie

/-! ### Length (R46) -/

/-- The abort code of step 6 of R45; 0 passes. -/
def lengthCode (e : Entry) (n : Nat) : Nat :=
  match e.type with
  | .str => if 64 < n then 0x06070012 else 0
  | .octet => if n = e.length then 0 else 0x06070010
  | .domain => if n = e.length then 0 else 0x06070010
  | t => if n < t.bytes then 0x06070013 else if t.bytes < n then 0x06070012 else 0

/-! ### State rules (R45 step 7) -/

/-- A tally context of the job and epoch is not FREE. -/
def State.contextOpen (s : State) (j : Nat) (p : Nat → Bool) : Bool :=
  s.contexts.any fun q => match q.2 with | some c => c.job == j && p c.epoch | none => false

/-- The job's updates are outstanding (R356): a bucket of the sealed step waits for an engine or has not landed
everywhere. -/
def State.updatesOutstanding (s : State) (j : Nat) : Bool :=
  (s.buckets.any fun b => b.job == j && b.push) || s.returns.any fun r => r.bucket.job == j && r.bucket.push

/-- A frame that occupies the deck counts as RUNNING: upper, or lower (R472). -/
def State.deckRunning (s : State) (lower : Bool) : Bool :=
  allFrames.any fun f => s.countsRunning f && (match (s.frame f).latched with
    | some l => l.shape == 0 || (l.shape == 2) == lower
    | none => false)

/-- The state of a monitor point. -/
def State.point (s : State) (i : Nat) : MonPoint := sget {} s.monitors i

/-- The frame that owns an RW-STOP entry (R47): those of the frame blocks and of OD 0x2C1f. -/
def stopOwner (i : Nat) : Fin 8 := if 0x2C10 ≤ i then frameIx (i - 0x2C10) else frameIx ((i - 0x2100) / 16)

/-- A state rule of the owning chapter refuses the write (R37, R106, R217, R283, R305, R334, R335, R339, R349,
R361, R388, R434–R436, R472, R473, R498 and R63). -/
def State.stateRefuses (s : State) (e : Entry) (i sub : Nat) (data : List Byte) : Bool :=
  if e.access = .rwStop ∧ s.countsRunning (stopOwner i) then true
  else if i = 0x1010 ∨ i = 0x1011 then s.storing.isSome
  else if i = 0x2020 ∨ i = 0x2601 ∨ i = 0x2810 ∨ i = 0x2811 then !s.allEmpty
  else if i = 0x2202 then s.grid.width == 0
  else if 0x2910 ≤ i ∧ i < 0x2920 then
    let j := i - 0x2910
    if sub = 2 then
      epochOlder (s.odGet i 2 0) (leNat data) && s.contextOpen j fun ep => epochOlder ep (leNat data)
    else if 3 ≤ sub ∧ sub ≤ 0x10 then
      let ep := s.slotEntry (jobIx j) ((sub - 3) / 7) 0
      s.contextOpen j fun q => q == ep
    else if 0x11 ≤ sub ∧ sub ≤ 0x14 then !(sget {} s.rolls j).isSealed
    else false
  else if i = 0x2A02 then (List.range 16).any s.updatesOutstanding
  else if 0x2A10 ≤ i ∧ i < 0x2A20 then s.updatesOutstanding (i - 0x2A10)
  else if i = 0x2B02 ∧ sub = 1 then
    (List.finRange 24).any fun k => !([LinkState.disabled, .down, .failed].contains (s.link k).st)
  else if 0x2B10 ≤ i ∧ i < 0x2BD0 ∧ sub = 3 then (s.link (linkIx ((i - 0x2B10) / 8))).st != .disabled
  else if 0x2D20 ≤ i ∧ i < 0x2D30 then decide (sub ≤ 7) && bits (s.odGet i 9 0) 0 3 != 0
  else if i = 0x2D30 then
    (List.range 8).any fun k => parseSlot data k != s.hostSlot k &&
      (bits (s.odGet 0x2D31 (k + 1) 0) 0 2 == 1 || bits (s.odGet 0x2D31 (k + 1) 0) 2 2 == 1)
  else if 0x2D40 ≤ i ∧ i < 0x2D50 then decide (sub ≤ 5) && (s.odGet i 7 0 == 1 || s.odGet i 7 0 == 2)
  else if i = 0x2F03 then (sub == 2 && !s.grid.split) || s.deckRunning (sub == 2)
  else if i = 0x3010 then
    (List.range 64).any fun k => (s.point k).state == 1 &&
      slice data (16 * k) 16 != s.tableBytes 0x3010 (16 * k) 16
  else if i = 0x3102 ∧ sub = 1 then decide (1 ≤ s.odGet i 4 0) && decide (s.odGet i 4 0 ≤ 4)
  else false

/-! ### Values (R45 step 8, R499) -/

/-- The code of a value outside `a` to `b` (R499). -/
def rangeCode (a b v : Nat) : Nat := if b < v then 0x06090031 else if v < a then 0x06090032 else 0

/-- A value among those allowed, or 0x0609_0030 (R499). -/
def allowCode (ok : Bool) : Nat := if ok then 0 else 0x06090030

/-- A record of the watch configuration table keeps the rules of R216. -/
def watchRecordOk (r : Nat) : Bool :=
  bits r 4 2 != 3 && decide (bits r 10 6 ≤ 32) && bits r 20 2 != 3 &&
    (decide (bits r 22 5 ≤ 16) || bits r 22 5 == 31) && bits r 56 8 == 0

/-- The 32 instructions of a microcode slot keep the rules of R349: no reserved op, no zero-bit set, and an END. -/
def microcodeOk (ws : List Nat) : Bool :=
  ws.any (fun w => bits w 0 6 == 0x3F) && ws.all fun w =>
    bits w 26 6 == 0 && (bits w 0 6 == 0x3F || (decide (1 ≤ bits w 0 6) && decide (bits w 0 6 ≤ 0x0C)))

/-- The highest selector of a monitor source; `none` for a reserved code (R474). -/
def monitorSelector : Nat → Option Nat
  | 0x00 => some 0xFFF
  | 0x01 => some 7
  | 0x02 => some 7
  | 0x03 => some 3
  | 0x04 => some 23
  | 0x05 => some 15
  | 0x10 => some 31
  | 0x11 => some 15
  | 0x12 => some 3
  | 0x13 => some 1
  | 0x14 => some 4095
  | 0x15 => some 0
  | _ => none

/-- The source is sampled by period (R474). -/
def sampledByPeriod (src : Nat) : Bool := [0x10, 0x11, 0x12, 0x13, 0x15].contains src

/-- A record of the monitor configuration keeps the rules of R473. -/
def monitorRecordOk (r : Nat) : Bool :=
  let src := bits r 0 8
  let period := bits r 32 32
  let log2 := bit r 8
  bits r 9 7 == 0 && bits r 28 4 == 0 &&
    (match monitorSelector src with | some m => decide (bits r 16 12 ≤ m) | none => false) &&
    (if sampledByPeriod src then decide (1 ≤ period) && decide (period ≤ 1000000) else period == 0) &&
    (src == 0 || (if log2 then bits r 70 26 == 0 && bits r 96 32 == 0 else decide (1 ≤ bits r 96 32)))

/-- The slots of a hosting table do not overlap and keep the field rules of R435. -/
def hostingOk (t : List Byte) : Bool :=
  let hs := (List.range 8).map (parseSlot t)
  hs.all (fun h => h.reserved == 0 && (!h.used ||
    (h.base % 65536 == 0 && decide (h.base + 2 * h.length ≤ 4 * stackSize) && decide (h.source < 4096)))) &&
  (List.range 8).all fun i => (List.range 8).all fun k =>
    let a := parseSlot t i
    let b := parseSlot t k
    i == k || !a.used || !b.used || decide (a.base + 2 * a.length ≤ b.base) || decide (b.base + 2 * b.length ≤ a.base)

/-- The leases of a hosting table: 0, or 1,000 to 60,000,000 µs (R435, R499). -/
def leaseCode (t : List Byte) : Nat :=
  let ls := ((List.range 8).map (parseSlot t)).filterMap fun h => if h.used then some h.lease else none
  if ls.any fun v => decide (60000000 < v) then 0x06090031
  else if ls.any fun v => v != 0 && decide (v < 1000) then 0x06090032 else 0

/-- The weights of OD 0x2B02.09: three bytes of 1 to 15 (R388). -/
def weightsCode (v : Nat) : Nat :=
  let ws := [bits v 0 8, bits v 8 8, bits v 16 8]
  if bits v 24 8 ≠ 0 then 0x06090030
  else if ws.any fun w => decide (15 < w) then 0x06090031
  else if ws.any fun w => w == 0 then 0x06090032 else 0

/-- A route table keeps the rules of R380 for device `dev`. -/
def routesOk (dev : Nat) (t : List Byte) : Bool :=
  (t.zipIdx).all fun p =>
    if p.2 = dev then p.1 == 0x1E else decide (p.1.toNat ≤ 0x17) || p.1 == 0x1F

/-- The abort code of step 8 of R45; 0 passes. -/
def State.valueCode (s : State) (e : Entry) (i : Nat) (data : List Byte) : Nat :=
  let v := leNat data
  if e.type = .boolean ∧ 1 < v then 0x06090030
  else match e.check with
  | .any => allowCode (e.type != .str || data.all fun b => decide (0x20 ≤ b.toNat) && decide (b.toNat ≤ 0x7E))
  | .oneOf vs => allowCode (vs.contains v)
  | .mask m => allowCode (v &&& m == v)
  | .range a b => rangeCode a b v
  | .mult n => allowCode (v % n == 0)
  | .heartbeat => if 1 ≤ v ∧ v ≤ 9 then 0x06090032 else 0
  | .device => allowCode (v == 0xFFFF || decide (v < 0x1000))
  | .peer => allowCode (v == 0xFFFF || decide (v < 0x8000))
  | .tile => if s.tileCount ≤ v then 0x06090031 else 0
  | .column =>
    if 49 < v then 0x06090031
    else allowCode ([ColStatus.enabled, .pending].contains (s.grid.columns.getD v .factoryBad))
  | .even => allowCode (v % 2 == 0)
  | .odd => allowCode (v % 2 == 1)
  | .stackBase => allowCode (v % 64 == 0 && decide (v < 4 * stackSize))
  | .watchBase => allowCode (v % 2097152 == 0 && decide (v < 2 * stackSize))
  | .watchTable => allowCode ((List.range 4096).all fun k => watchRecordOk (sliceNat data (16 * k) 16))
  | .retirePc => allowCode (bits v 8 8 == 0xC3)
  | .regionTable => allowCode (data.all fun b => decide (b.toNat ≤ 1))
  | .permit => allowCode (i != 0x2820 || v == 0)
  | .microcode => allowCode ((List.range 8).all fun k =>
      microcodeOk ((List.range 32).map fun n => sliceNat data (128 * k + 4 * n) 4))
  | .routeTable => allowCode (routesOk s.device data)
  | .weights => weightsCode v
  | .replicaTable => allowCode ((List.range 4096).all fun k =>
      sliceNat data (2 * k) 2 == 0xFFFF || decide (sliceNat data (2 * k) 2 < 0x1000))
  | .snapBase => allowCode (v % 65536 == 0 && decide (v < 4 * stackSize))
  | .genLength => if v % 1048576 ≠ 0 then 0x06090030 else if v < 2097152 then 0x06090032 else 0
  | .hosting => if hostingOk data then leaseCode data else 0x06090030
  | .target => allowCode (v == 0xFFFFFFFF || decide (v < 2 ^ 24))
  | .powerCap => rangeCode 300 s.grid.part.powerLimit v
  | .monitors => allowCode ((List.range 64).all fun k => monitorRecordOk (sliceNat data (16 * k) 16))
  | .image => allowCode ((v == 0 && s.flash.imageA.state == 1) || (v == 1 && s.flash.imageB.state == 1))

/-! ### The order of R45 -/

/-- Steps 2 to 5 of R45 for an access: 0 and the entry, or the abort code. -/
def State.checkEntry (s : State) (via : Path) (write : Bool) (i sub : Nat) : Except Nat Entry :=
  match findEntry i sub with
  | .error c => .error c
  | .ok e =>
    if write && (e.access == .const || e.access == .ro) then .error 0x06010002
    else if !write && e.access == .wo then .error 0x06010001
    else if s.pathClosed via write then .error 0x08000021
    else if write && hostOnly e via then .error 0x08000021
    else .ok e

/-- The management-path protection is what refuses the access (OD 0x1E40.0D). -/
def State.protected (s : State) (via : Path) (write : Bool) (i sub : Nat) : Bool :=
  match findEntry i sub with
  | .error _ => false
  | .ok e => !(write && (e.access == .const || e.access == .ro)) && !(!write && e.access == .wo) &&
      s.pathClosed via write

/-- Steps 2 to 8 of R45 for a write; 0 passes. -/
def State.writeCode (s : State) (via : Path) (i sub : Nat) (data : List Byte) : Nat :=
  match s.checkEntry via true i sub with
  | .error c => c
  | .ok e =>
    let n := lengthCode e data.length
    if n ≠ 0 then n
    else if s.stateRefuses e i sub data then 0x08000022
    else s.valueCode e i data

/-! ### What service leaves behind (R82) -/

/-- The code of a path in OD 0x1E42.07. -/
def pathCode : Path → Nat
  | .pcie => 0
  | .can => 1
  | .uzon _ => 2

/-- An abort is counted (OD 0x1E42.04 to .07). -/
def State.countAbort (s : State) (via : Path) (i sub code : Nat) : State :=
  (((s.count32 0x1E42 0x04).odSet 0x1E42 0x05 code).odSet 0x1E42 0x06 (odKey i sub)).odSet 0x1E42 0x07 (pathCode via)

/-- An access has been served with an abort code, 0 for none, and is answered. -/
def State.served (s : State) (via : Path) (i sub code : Nat) (out : List Byte) : State :=
  let s := s.count64 0x1E42 0x03
  (if code = 0 then s else s.countAbort via i sub code).emit (.value via (odKey i sub) code out)

/-- A write is served (R45): every check through step 8, then the owner's action, which answers an abort code
of step 9 or of a state rule of its own. While no dictionary is served nothing happens (R492, R494). -/
def State.serveWrite (s : State) (via : Path) (i sub : Nat) (data : List Byte) (body : State → Nat × State) :
    State :=
  if !s.sup.ready then s else
  let c := s.writeCode via i sub data
  if c ≠ 0 then
    (if s.protected via true i sub then s.count32 0x1E40 0x0D else s).served via i sub c []
  else
    let r := body s
    r.2.served via i sub r.1 []

/-- A command entry with a one-byte command. -/
def State.command (s : State) (via : Path) (i sub v : Nat) (body : State → Nat × State) : Result :=
  .next (s.serveWrite via i sub (leBytes (match entryAt i sub with | some e => e.type.bytes | none => 1) v) body)

/-- The abort of a command refused in the present state (R49). -/
def abortState : Nat := 0x08000022

end Sys2Proof.Machine
end

