-- ==== Sys2Proof/Machine/Tally.lean ====
section
/-! DEFINITION. Tally: the owner's side of the tally reduction: bucket and group tables, contexts, the checks and the
adding of segments, closes and notices (R307–R311, R317–R324, R334, R335). -/

namespace Sys2Proof.Machine

/-! ### The tally header (R317) -/

structure TallyHeader where
  job : Nat
  epoch : Nat
  bucket : Nat
  step : Nat
  revision : Nat
  op : Nat
  float : Bool
  last : Bool
  count : Nat
  first : Nat
  contributor : Nat
  m : Int
  e : Int
  deriving DecidableEq, Repr

def tallyHeader (h : BitVec 128) : TallyHeader :=
  let x := h.toNat
  { job := bits x 0 4, epoch := bits x 4 8, bucket := bits x 12 16, step := bits x 28 16, revision := bits x 44 4
    op := bits x 48 3, float := bit x 51, last := bit x 52, count := bits x 53 7, first := bits x 64 20
    contributor := bits x 84 15, m := signed 12 (bits x 100 12), e := signed 12 (bits x 112 12) }

def packTally (t : TallyHeader) : BitVec 128 :=
  BitVec.ofNat 128 (t.job + t.epoch * 2 ^ 4 + t.bucket * 2 ^ 12 + t.step * 2 ^ 28 + t.revision * 2 ^ 44 +
    t.op * 2 ^ 48 + b2n t.float * 2 ^ 51 + b2n t.last * 2 ^ 52 + t.count * 2 ^ 53 + t.first * 2 ^ 64 +
    t.contributor * 2 ^ 84 + unsigned 12 t.m * 2 ^ 100 + unsigned 12 t.e * 2 ^ 112)

/-- Bits [27:0]: the tag of a bucket (R307, R317). -/
def bucketTag (job epoch bucket : Nat) : Nat := job + epoch * 2 ^ 4 + bucket * 2 ^ 12

/-- The E that asks for a MAX segment. -/
def askMax : Int := -2048

/-! ### Bucket records (R308) -/

structure BucketRec where
  sum : Nat
  group : Nat
  elements : Nat
  mode : Nat
  margin : Nat
  /-- Filled close exponents, newest first. -/
  history : List Int
  /-- The reserved bits are zero. -/
  zeros : Bool
  deriving DecidableEq, Repr

def bucketRec (b : List Byte) : BucketRec :=
  let h := (List.range 8).map fun i => sliceNat b (16 + 2 * i) 2
  { sum := sliceNat b 0 6, group := sliceNat b 6 2, elements := sliceNat b 8 4, mode := sliceNat b 12 1 % 4
    margin := sliceNat b 13 1, history := (h.filter (· != 0x8000)).map (signed 16)
    zeros := decide (sliceNat b 12 1 < 4) && sliceNat b 14 2 == 0 }

/-- Bytes of one element of the sum area. -/
def BucketRec.width (r : BucketRec) : Nat := if r.mode = 2 then 4 else 8
def BucketRec.bytes (r : BucketRec) : Nat := r.width * r.elements

/-- The record keeps the rules of R308. -/
def State.bucketOk (s : State) (r : BucketRec) : Bool :=
  let last := r.sum + r.bytes - 1
  r.zeros && r.mode != 3 && decide (r.margin ≤ 7) && decide (1 ≤ r.elements) && decide (r.elements ≤ 1048576) &&
    r.sum % 64 == 0 && decide (last < 4 * stackSize) && r.sum / 2 ^ 30 == last / 2 ^ 30 &&
    !(s.interleaved (r.sum / stackSize) (r.sum % stackSize / 2 ^ 30))

/-- The address of a bucket's record in slot `i`. -/
def State.bucketAddr (s : State) (j : Fin 16) (i bucket : Nat) : Nat := s.slotEntry j i 1 + 32 * bucket

/-- The record of a bucket of slot `i`, if it is in the table. -/
def State.bucketAt (s : State) (j : Fin 16) (i bucket : Nat) : Option BucketRec × State :=
  if s.bucketCount j i ≤ bucket then (none, s) else
  let r := s.readTable (s.bucketAddr j i bucket) 32
  (r.1.map bucketRec, r.2)

/-! ### Group tables (R309) -/

/-- The contributor list of a group: device in [11:0], frame in [14:12]. -/
def State.groupList (s : State) (j : Fin 16) (i group : Nat) : List Nat × State :=
  let base := s.slotEntry j i 3
  let h := s.readTable (base + 8 * group) 8
  match h.1 with
  | none => ([], h.2)
  | some h8 =>
    let x := leNat h8
    let n := bits x 32 16
    let r := h.2.readTable (base + bits x 0 32) (2 * n)
    match r.1 with
    | none => ([], r.2)
    | some l => ((List.range n).map fun k => sliceNat l (2 * k) 2, r.2)

def contribDevice (c : Nat) : Nat := c % 2 ^ 12
def contribFrame (c : Nat) : Nat := bits c 12 3

/-- The devices of a group, each once. -/
def groupDevices (g : List Nat) : List Nat := (g.map contribDevice).eraseDups

/-- The expected count: contributors whose device is a member (R319). -/
def expectedCount (g members : List Nat) : Nat := g.countP fun c => members.contains (contribDevice c)

/-! ### Exponent tables (R314) -/

/-- The predicted exponent of a bucket in slot `i`; `none` for 0x8000. -/
def State.expAt (s : State) (j : Fin 16) (i bucket : Nat) : Option Int :=
  match (s.readTable (s.slotEntry j i 6 + 2 * bucket) 2).1 with
  | some b => if leNat b = 0x8000 then none else some (signed 16 (leNat b))
  | none => none

def State.setExp (s : State) (j : Fin 16) (i bucket : Nat) (e : Option Int) : State :=
  s.writeTable (s.slotEntry j i 6 + 2 * bucket) (leBytes 2 (match e with | some x => unsigned 16 x | none => 0x8000))

/-! ### Rolls and contexts -/

def State.roll (s : State) (j : Fin 16) : Roll := sget {} s.rolls j.val
def State.modRoll (s : State) (j : Fin 16) (f : Roll → Roll) : State := { s with rolls := smod {} s.rolls j.val f }

def State.ctxAt (s : State) (c : Nat) : Option TallyCtx := sget none s.contexts c
def State.setCtx (s : State) (c : Nat) (x : Option TallyCtx) : State := { s with contexts := sput none s.contexts c x }

/-- The context of a tag, with its number (R319). -/
def State.ctxOf (s : State) (job epoch bucket : Nat) : Option (Nat × TallyCtx) :=
  s.contexts.findSome? fun p => match p.2 with
    | some x => if x.job = job ∧ x.epoch = epoch ∧ x.bucket = bucket then some (p.1, x) else none
    | none => none

/-- The context a segment meets: the one of its tag and step, else one of its tag that is CLOSING or CLOSED (R318). -/
def State.ctxFor (s : State) (job epoch bucket step : Nat) : Option (Nat × TallyCtx) :=
  let find (p : TallyCtx → Bool) : Option (Nat × TallyCtx) := s.contexts.findSome? fun q => match q.2 with
    | some x => if x.job = job ∧ x.epoch = epoch ∧ x.bucket = bucket ∧ p x = true then some (q.1, x) else none
    | none => none
  match find fun x => x.step % 2 ^ 16 == step with
  | some p => some p
  | none => find fun x => x.st == .closing || x.st == .closed

/-- The channel of a stack address: 32 × stack + channel. -/
def State.channelOf (s : State) (a : Nat) : Nat :=
  let p := s.stackPlace (a / stackSize) (a % stackSize)
  32 * p.stack + p.channel

/-- A FREE context of a channel (R319: 128 each). -/
def State.freeCtx (s : State) (channel : Nat) : Option Nat :=
  ((List.range 128).map (128 * channel + ·)).find? fun c => (s.ctxAt c).isNone

/-! ### The tally buffer (R311) -/

/-- A block of a channel's buffer is touched: whether it was held, and the write-back of the least recently used
one where no block is free. -/
def State.touchBlock (s : State) (ch b : Nat) : Bool × State :=
  let l := sget [] s.tallyBlocks ch
  if l.contains b then (true, { s with tallyBlocks := sput [] s.tallyBlocks ch (b :: l.erase b) })
  else
    let s := if l.length < 1024 then s else s.count64 0x2901 0x0C
    (false, ({ s with tallyBlocks := sput [] s.tallyBlocks ch (b :: l.take 1023) }).count64 0x2901 0x0B)

/-- The blocks of a range leave the buffer; a write-back is counted for each. -/
def State.flushBlocks (s : State) (ch a n : Nat) (count : Bool) : State :=
  let l := sget [] s.tallyBlocks ch
  let mine := l.filter fun b => decide (a ≤ b) && decide (b < a + n)
  let s := { s with tallyBlocks := sput [] s.tallyBlocks ch (l.filter fun b => !(mine.contains b)) }
  if count then s.odAdd 64 0x2901 0x0C mine.length else s

/-- An element of a sum area changed by the adder (R285, R311, R320). A block that reads uncorrectable is held and
written back poisoned (log entry 25). -/
def State.adjust (s : State) (ch a w : Nat) (f : Nat → Nat) : State :=
  let b := a / 64 * 64
  let t := s.touchBlock ch b
  let flagged := (errsIn t.2.errs b 64).any fun p => p.2.poison
  let r : ReadOut × State := if t.1 then (⟨t.2.blockBytes b, flagged⟩, t.2) else t.2.readBlock b
  r.2.writeBlock b (splice r.1.data (a - b) (leBytes w (f (sliceNat r.1.data (a - b) w)))) r.1.bad

/-! ### Checks (R318) -/

/-- Step numbers of `w` bits: `a` is newer than `b`. -/
def newerStep (w a b : Nat) : Bool :=
  let d := (a + 2 ^ w - b % 2 ^ w) % 2 ^ w
  decide (1 ≤ d) && decide (d < 2 ^ (w - 1))

/-- How the header's step and revision stand to the owner's: 0 the same, 4 the owner is older, 5 the segment is. -/
def Roll.stepCode (r : Roll) (h : TallyHeader) : Nat :=
  if !r.held then 4
  else if h.step = r.step % 2 ^ 16 then
    (if r.revision < h.revision then 4 else if h.revision < r.revision then 5 else 0)
  else if newerStep 16 h.step r.step then 4 else 5

/-- A segment is a retraction. -/
def TallyHeader.retract (h : TallyHeader) : Bool := h.op == 3 || h.op == 4
def TallyHeader.sparse (h : TallyHeader) : Bool := h.op == 1 || h.op == 4

/-- The elements and values of a segment: pairs of index and value (R317). -/
def segmentPairs (h : TallyHeader) (data : List Byte) : List (Nat × Nat) :=
  let w := if h.float then 4 else 8
  if h.op = 2 then []
  else if h.sparse then
    (List.range (h.count + 1)).map fun i => (sliceNat data ((4 + w) * i) 4, sliceNat data ((4 + w) * i + 4) w)
  else (List.range (h.count + 1)).map fun i => (h.first + i, sliceNat data (w * i) w)

/-- What an owner looks up for a segment. -/
structure OwnerView where
  slot : Option Nat
  rec? : Option BucketRec
  recOk : Bool
  group : List Nat
  ctx : Option (Nat × TallyCtx)
  /-- The value last sent for the bucket in a notice of kind 0x00. -/
  last : Option Int
  deriving DecidableEq, Repr

def State.ownerView (s : State) (h : TallyHeader) : OwnerView × State :=
  let j := jobIx h.job
  let slot := s.epochSlot j h.epoch
  let r := match slot with | some i => s.bucketAt j i h.bucket | none => (none, s)
  let g := match slot, r.1 with
    | some i, some b => r.2.groupList j i b.group
    | _, _ => ([], r.2)
  (⟨slot, r.1, (match r.1 with | some b => s.bucketOk b | none => false), g.1,
    s.ctxFor h.job h.epoch h.bucket h.step, sget none s.sentExp (bucketTag h.job h.epoch h.bucket)⟩, g.2)

/-- The phase and the exponent in which a context opens, `last` the value last sent in a notice of kind 0x00: MAX phase,
E (R319). A predicted bucket for which this device has sent no notice yet takes the value that its record gives (log
entry 107). -/
def openPhase (b : BucketRec) (last : Option Int) : Bool × Int :=
  if b.mode = 2 then (false, 0)
  else if b.mode = 0 ∧ !b.history.isEmpty then
    (false, last.getD (b.history.foldl max (b.history.headD 0) + (b.margin : Int)))
  else (true, 0)

/-- The context as check 0x8 sees it, open or about to open: float, MAX phase, measured, M, E. -/
def OwnerView.phase (v : OwnerView) : Option (Bool × Bool × Bool × Int × Int) :=
  match v.ctx, v.rec? with
  | some (_, x), _ => some (x.float, x.maxPhase, x.measured, x.m, x.e)
  | none, some b =>
    if v.recOk then some (b.mode == 2, (openPhase b v.last).1, false, -149, (openPhase b v.last).2) else none
  | none, none => none

/-- Check 0x8 of R318, and the E its refusal carries. A retraction adds nothing in the MAX phase; in float mode m and E
are not used; a bucket that has no record in order fails check 0x9 instead. -/
def OwnerView.exponentBad (v : OwnerView) (h : TallyHeader) : Option Int :=
  match v.phase with
  | none => none
  | some (float, maxPhase, measured, m, e) =>
    if maxPhase then (if h.op = 2 ∨ h.retract then none else some askMax)
    else if h.op = 2 then some e
    else if float || h.float then none
    else if h.e ≠ e then some e
    else if measured && decide (m < h.m) then some e
    else none

/-- A job whose snapshot copies its state part refuses every segment (R423). -/
def State.statePart (s : State) (j : Fin 16) : Bool := bits (s.odGet (0x2D20 + j.val) 0x09 0) 0 3 == 1

/-- The status of the first check of R318 that fails, 0 for none, and the E of a refusal with 0x8. -/
def State.ownerCheck (s : State) (v : OwnerView) (src : TallySource) (h : TallyHeader) (pairs : List (Nat × Nat)) :
    Nat × Int :=
  let j := jobIx h.job
  let r := s.roll j
  let here : Bool := match v.ctx with | some (_, x) => x.step % 2 ^ 16 == h.step | none => false
  let full : Bool := match v.rec? with
    | some b => v.recOk && (s.freeCtx (s.channelOf b.sum)).isNone
    | none => false
  let shut : Bool := match v.ctx with | some (_, x) => x.st == .closing || x.st == .closed | none => false
  let entry := v.group[h.contributor]?
  let counted : Bool := match v.ctx with | some (_, x) => here && x.bits.contains h.contributor | none => false
  let step := r.stepCode h
  if s.statePart j || (!here && full) then (1, 0)
  else if shut then (2, 0)
  else if epochOlder h.epoch (s.odGet (jobIndex j) 0x02 0) || v.slot.isNone then (3, 0)
  else if step ≠ 0 then (step, 0)
  else if (!h.retract && !(r.members.contains src.device)) ||
      (match entry with | some c => c % 2 ^ 15 != src.device + src.frame * 2 ^ 12 | none => false) then (6, 0)
  else if h.retract != counted then (7, 0)
  else match v.exponentBad h with
    | some e => (8, e)
    | none =>
      match v.rec? with
      | none => (9, 0)
      | some b =>
        if !v.recOk || pairs.any fun p => decide (b.elements ≤ p.1) then (9, 0)
        else if h.float != (b.mode == 2) then (0xA, 0)
        else if entry.isNone then (0xB, 0) else (0, 0)

/-! ### Opening and adding (R319, R320) -/

/-- A context is opened for a segment that has passed every check. -/
def State.openCtx (s : State) (h : TallyHeader) (b : BucketRec) (g : List Nat) : Option (Nat × TallyCtx) × State :=
  let r := s.roll (jobIx h.job)
  match s.freeCtx (s.channelOf b.sum) with
  | none => (none, s)
  | some c =>
    let p := openPhase b (sget none s.sentExp (bucketTag h.job h.epoch h.bucket))
    let x : TallyCtx :=
      { st := .opened, maxPhase := p.1, measured := false, job := h.job, epoch := h.epoch, bucket := h.bucket
        step := r.step, revision := r.revision, nExp := expectedCount g r.members, e := p.2, float := b.mode == 2
        sum := b.sum, elements := b.elements, group := g, leaseFrom := s.supCycles }
    let s := if p.1 then s.count32 0x2901 0x07 else s
    (some (c, x), s.setCtx c (some x))

/-- The bytes of a context's sum area. -/
def TallyCtx.bytes (x : TallyCtx) : Nat := (if x.float then 4 else 8) * x.elements

/-- The pairs of a segment are added (R320). -/
def State.addPairs (s : State) (x : TallyCtx) (pairs : List (Nat × Nat)) : State :=
  let ch := s.channelOf x.sum
  pairs.foldl (fun s p =>
    if x.float then s.adjust ch (x.sum + 4 * p.1) 4 fun o =>
      (f32Add (BitVec.ofNat 32 o) (BitVec.ofNat 32 p.2)).toNat
    else s.adjust ch (x.sum + 8 * p.1) 8 fun o => (o + p.2) % 2 ^ 64) s

/-- The last segment of a contribution, or of a retraction (R320). -/
def TallyCtx.count (x : TallyCtx) (h : TallyHeader) : TallyCtx :=
  if h.retract then
    let left := x.excluded.erase h.contributor
    { x with
      bits := x.bits.erase h.contributor, n := x.n - 1, excluded := left
      st := if x.st = .retracting ∧ left.isEmpty then .opened else x.st }
  else { x with bits := h.contributor :: x.bits, n := x.n + 1, m := max x.m h.m }

/-- A context goes to CLOSING: in DATA its dirty blocks are written back (R321). -/
def State.toClosing (s : State) (c : Nat) (x : TallyCtx) : State :=
  let s := s.setCtx c (some { x with st := .closing })
  if x.maxPhase then s else s.flushBlocks (s.channelOf x.sum) x.sum x.bytes true

/-- A context that is OPEN and has counted every contributor it expects goes to CLOSING (R321; log entry 26). -/
def State.settleCtx (s : State) (c : Nat) : State :=
  match s.ctxAt c with
  | none => s
  | some x => if x.st ≠ .opened ∨ x.n ≠ x.nExp then s else s.toClosing c x

/-- An accepted segment acts (R320, R321). -/
def State.acceptSegment (s : State) (c : Nat) (x : TallyCtx) (h : TallyHeader) (pairs : List (Nat × Nat)) : State :=
  let s := if x.maxPhase then s else s.addPairs x pairs
  let x := { x with leaseFrom := s.supCycles, accepted := satAdd 32 x.accepted 1 }
  let x := if h.last then x.count h else x
  let s := (s.setCtx c (some x)).count64 0x2901 0x02
  let s := if h.last && h.retract then s.count32 0x2901 0x0A else s
  s.settleCtx c

/-! ### Answers (R318, R374) -/

/-- The TALLY transaction with a header slot at the head of a link's VC1 buffer. -/
def State.tallyHead (s : State) (k : Fin 24) : Option Txn :=
  match firstTxn (sget [] (s.link k).rx 1) with
  | some (x, _) => if txnKind x.header = 6 then some x else none
  | none => none

/-- The answer to a segment: an ACK over the route back, or inside the device (R318, R374). -/
def State.answerTally (s : State) (src : TallySource) (status : Nat) (e : Int) : State :=
  let e12 := if status = 8 then unsigned 12 e else 0
  match src.answer with
  | none => s.emit (.tallyStatus status e12)
  | some (k, tag) =>
    let s := match s.tallyHead k with
      | some x => if txnTag x.header = tag ∧ txnSrc x.header = src.device then s.takeTxn k x else s
      | none => s
    match s.egress src.device with
    | none => s
    | some k => s.sendTxn k ⟨packTxn
        { kind := 5, dst := src.device, src := s.device, dfr := src.frame, tag := tag, hops := s.hopLimit
          a := e12, b := status }, []⟩

/-- A refused segment changes nothing but its counts (R318, R338). -/
def State.refuseSegment (s : State) (v : OwnerView) (src : TallySource) (h : TallyHeader) (status : Nat) : State :=
  let s := (s.count64 0x2901 0x03).odSet 0x2901 0x04
    (bucketTag h.job h.epoch h.bucket + status * 2 ^ 28 + src.device % 2 ^ 12 * 2 ^ 32)
  match v.ctx with
  | some (c, x) => s.setCtx c (some { x with refused := satAdd 32 x.refused 1 })
  | none => s

/-- TALLY_SEGMENT_ARRIVAL: the owner checks a segment, adds it if it passes, and answers (R318–R321). A header with a
reserved op, or a notice, is no segment. -/
def execTallySegmentArrival (src : TallySource) (header : BitVec 128) (data : List Byte) (s : State) : Result :=
  let h := tallyHeader header
  if 5 ≤ h.op then .next s else
  let pairs := segmentPairs h data
  let v := s.ownerView h
  let c := v.2.ownerCheck v.1 src h pairs
  if c.1 ≠ 0 then .next ((v.2.refuseSegment v.1 src h c.1).answerTally src c.1 c.2)
  else
    let here : Option (Nat × TallyCtx) × State := match v.1.ctx, v.1.rec? with
      | some p, _ => (some p, v.2)
      | none, some b => v.2.openCtx h b v.1.group
      | none, none => (none, v.2)
    match here.1 with
    | none => .next here.2
    | some (n, x) => .next ((here.2.acceptSegment n x h pairs).answerTally src 0 0)

/-! ### Discards (R310, R321) -/

/-- A context is discarded: its sum area is zeroed before it is FREE. -/
def State.discardCtx (s : State) (c : Nat) : State :=
  match s.ctxAt c with
  | none => s
  | some x =>
    if x.discard then s
    else (s.setCtx c (some { x with st := .closed, discard := true })).count32 0x2901 0x08

/-- The contexts of a job that satisfy a condition. -/
def State.ctxsOf (s : State) (j : Fin 16) (p : TallyCtx → Bool) : List Nat :=
  s.contexts.filterMap fun q => match q.2 with
    | some x => if x.job = j.val ∧ p x then some q.1 else none
    | none => none

/-- Blocks of a sum area written as zero by tally writes (R310, R345). -/
def State.zeroSum (s : State) (a n : Nat) : State :=
  let s := s.flushBlocks (s.channelOf a) a n false
  (List.range (ceilDiv n 64)).foldl (fun s i => s.writeBlock (a + 64 * i) (zeroBytes 64) false) s

/-! ### Closing (R323) -/

/-- `n · 2^M < 2^(E + 15)` on exact integers. -/
def boundPasses (n : Nat) (m e : Int) : Bool :=
  decide (n * 2 ^ (m + 4096).toNat < 2 ^ (e + 15 + 4096).toNat)

/-- A notice of a kind to one device (R323). -/
def State.sendNotice (s : State) (h : BitVec 128) (dev : Nat) : State :=
  if dev = s.device then s.emit (.segment h.toNat [])
  else match s.egress dev with
    | none => s
    | some k => s.requestOrWait k .notice { kind := 6, dst := dev, src := 0 } (leBytes 16 h.toNat)

/-- A notice about a context to devices. -/
def State.notify (s : State) (x : TallyCtx) (kind : Nat) (e : Int) (devs : List Nat) : State :=
  let h := packTally
    { job := x.job, epoch := x.epoch, bucket := x.bucket, step := x.step % 2 ^ 16, revision := x.revision, op := 5
      float := x.float, last := true, count := kind, first := 0, contributor := 0, m := 0, e := e }
  devs.foldl (fun s d => s.sendNotice h d) s

/-- The members among a context's group. -/
def State.groupMembers (s : State) (x : TallyCtx) : List Nat :=
  (groupDevices x.group).filter fun d => (s.roll (jobIx x.job)).members.contains d

/-- A close exponent pushed into the history of a bucket's record; the new E (R308, R323). -/
def State.pushExponent (s : State) (x : TallyCtx) (m : Int) : Int × State :=
  let j := jobIx x.job
  match s.epochSlot j x.epoch with
  | none => (m, s)
  | some i =>
    match s.bucketAt j i x.bucket with
    | (none, s) => (m, s)
    | (some b, s) =>
      let hist := (m :: b.history).take 8
      let bytes := (hist.flatMap fun e => leBytes 2 (unsigned 16 e)) ++
        (List.replicate (8 - hist.length) (leBytes 2 0x8000)).flatten
      (hist.foldl max m + (b.margin : Int), s.writeTable (s.bucketAddr j i x.bucket + 16) bytes)

/-- The order number of a close (R328). -/
def State.closeSum (s : State) (c : Nat) (x : TallyCtx) : State :=
  ({ s with closes := s.closes + 1 }.setCtx c (some { x with st := .closed, order := s.closes })).count64 0x2901 0x05

/-- The value sent for a bucket in a notice of kind 0x00 (R319). -/
def State.noteExp (s : State) (x : TallyCtx) (e : Int) : State :=
  { s with sentExp := sput none s.sentExp (bucketTag x.job x.epoch x.bucket) (some e) }

/-- The reference of R323 on a CLOSING context; its lease goes on as it stood (R322). -/
def State.closeCtx (s : State) (c : Nat) (x : TallyCtx) : State :=
  if x.float then s.closeSum c x
  else if x.maxPhase then
    let y := { x with st := .opened, maxPhase := false, measured := true, n := 0, bits := [], e := x.m + 1 }
    ((s.setCtx c (some y)).notify y 2 y.e (s.groupMembers x)).settleCtx c
  else if boundPasses x.n x.m x.e then
    let p := s.pushExponent x (x.m + 1)
    ((p.2.closeSum c x).noteExp x p.1).notify x 0 p.1 (groupDevices x.group)
  else
    let s := ((s.zeroSum x.sum x.bytes).count32 0x2901 0x06).count32 0x2901 0x07
    let y := { x with st := .opened, maxPhase := true, n := 0, bits := [], m := -149 }
    (s.setCtx c (some y)).notify y 1 askMax (s.groupMembers x)

end Sys2Proof.Machine
end

