-- ==== Sys2Proof/Machine/Landing.lean ====
section
/-! DEFINITION. Landing: where a weight return lands, and the notify tuple of a bucket (R352–R354, R374, R400). -/

namespace Sys2Proof.Machine

/-- What a weight-return row carries (R374). -/
structure ReturnRow where
  job : Nat
  epoch : Nat
  bucket : Nat
  /-- The low 16 bits of the sealed step. -/
  step : Nat
  ordinal : Nat
  scale : Nat
  last : Bool
  /-- The bucket holds a block returned as NaN (R353). -/
  poison : Bool
  /-- The narrow format of the bucket. -/
  format : Nat
  data : List Byte
  bad : Bool := false
  deriving DecidableEq, Repr

/-- The sealed step of the job that this device holds with these low 16 bits (R374). -/
def State.sealedStep (s : State) (j : Fin 16) (low : Nat) : Option Nat :=
  (s.roll j).sealedSteps.find? fun q => q % 2 ^ 16 == low

/-- The row addresses a landing record names, in the order the stream fills them (R352). -/
def LandingRec.rows (r : LandingRec) : List Nat :=
  (r.extents ++ [r.scale]).flatMap fun e => (List.range e.2).map fun i => e.1 + 512 * i

/-- The extents fit a narrow format: whole groups of three rows before the last for codes 0x6 and 0x7, no scale rows for
codes 0x1 to 0x4 (R352). -/
def LandingRec.fits (r : LandingRec) (format : Nat) : Bool :=
  ((format != 6 && format != 7) || r.extents.dropLast.all fun e => e.2 % 3 == 0) &&
    (!(decide (1 ≤ format) && decide (format ≤ 4)) || r.scale.2 == 0)

/-- Every extent lies within one tile of the frame's band, in whole rows (R84, R352). -/
def State.extentsOk (s : State) (f : Fin 8) (r : LandingRec) : Bool :=
  (r.extents ++ [r.scale]).all fun e =>
    e.2 == 0 || (match regionOf e.1 with
      | .main t o => s.frameHas f t && o % 512 == 0 && decide (o / 512 + e.2 ≤ 896)
      | _ => false)

/-- A landing that is dropped (R352, R360). -/
def State.dropLanding (s : State) (src : Nat) (f : Fin 8) (x : ReturnRow) : State :=
  let s := (s.count32 0x2A01 0x09).odSet 0x2A01 0x0A
    (bucketTag x.job x.epoch x.bucket + src % 2 ^ 12 * 2 ^ 28 + f.val * 2 ^ 40)
  { s with landings := s.landings.map fun l =>
      if l.job = x.job ∧ l.bucket = x.bucket ∧ l.frame = f.val ∧ !l.notified then { l with dropped := true } else l }

/-- A landing belongs to this bucket, step and frame. -/
def Landing.of (l : Landing) (x : ReturnRow) (step : Nat) (f : Fin 8) : Bool :=
  l.job == x.job && l.epoch == x.epoch && l.bucket == x.bucket && l.step == step && l.frame == f.val

/-- The frame's active context is not main (R103, R354). -/
def State.turned (s : State) (f : Fin 8) : Bool :=
  (s.frame f).turn != 0 || (s.frameTiles f).any fun t => (s.tile t).active != 0

/-- The notify word of R353. -/
def notifyWord (x : ReturnRow) (step : Nat) (poison : Bool) : W64 :=
  BitVec.ofNat 64 (bucketTag x.job x.epoch x.bucket + step * 2 ^ 28 + x.scale * 2 ^ 52 + b2n poison * 2 ^ 60)

/-- A landing row at a device address of tile main memory: whether the windows of the main context refuse it, and the
state with the row written whole or the refusal counted (R101, R102). -/
def State.placeRow (s : State) (a : Nat) (data : List Byte) (poison : Bool) : Bool × State :=
  match regionOf a with
  | .main t o =>
    if (s.tile t).decl.allows 0 true 0 (o / 512) then (false, s.writeRow t (o / 512) data poison)
    else (true, s.windowRefusal t 0 0 (o / 512))
  | _ => (false, s)

/-- Every row of a bucket has landed: the rows beyond the stream read zero and the notify tuple is sent (R352,
R353). -/
def State.completeLanding (s : State) (f : Fin 8) (x : ReturnRow) (step : Nat) (l : Landing) (r : LandingRec)
    (n : Nat) : State :=
  let s := (r.rows.drop n).foldl (fun s a => (s.placeRow a (zeroBytes 512) false).2) s
  let s := if r.enable && !l.dropped && decide (r.tile < s.tileCount) then
      s.supervisorSend r.tile r.queue [notifyWord x step l.poison] else s
  let s := { s with landings := s.landings.map fun (y : Landing) =>
                      if y.of x step f then { l with notified := true } else y }
  s.checkEval f

/-- A row of a bucket lands in a frame (R352–R354): the status of R375 that answers it. The rows of one return come in
ascending order (R376), so a row not above those that have landed begins the return anew. -/
def State.landReturn (s : State) (src : Nat) (f : Fin 8) (x : ReturnRow) : Nat × State :=
  let j := jobIx x.job
  let st := (s.frame f).st
  match s.sealedStep j x.step, s.epochSlot j x.epoch with
  | some step, some i =>
    if st = .empty ∨ st = .faulted then (4, s.dropLanding src f x)
    else if s.turned f then (1, s)
    else match s.landingAt j i x.bucket with
      | (none, s) => (4, s.dropLanding src f x)
      | (some r, s) =>
        match r.rows[x.ordinal]? with
        | none => (4, s.dropLanding src f x)
        | some a =>
          if r.frame ≠ f.val ∨ s.extentsOk f r = false ∨ r.fits x.format = false then (4, s.dropLanding src f x) else
          let p := s.placeRow a x.data x.bad
          if p.1 then (4, p.2) else
          let s := p.2
          let old := s.landings.find? fun l => l.of x step f && !l.notified &&
            l.rows.all (fun k => decide (k < x.ordinal))
          let l := old.getD { job := x.job, epoch := x.epoch, bucket := x.bucket, step := step, frame := f.val,
                              rows := [] }
          let l := { l with
            rows := x.ordinal :: l.rows
            last := if x.last then some x.ordinal else l.last
            poison := l.poison || x.poison }
          let s := { s with
            landings := l :: s.landings.filter fun y =>
              !(y.job == x.job && y.bucket == x.bucket && y.frame == f.val) }
          match l.last with
          | some n => if l.rows.length = n + 1 then (0, s.completeLanding f x step l r (n + 1)) else (0, s)
          | none => (0, s)
  | _, _ => (4, s.dropLanding src f x)

/-- A WRET of R374 as a row. It carries no format: how the receiver knows the one its rules name is left open (log entry
109). -/
def returnRow (x : Txn) : ReturnRow :=
  let a := txnA x.header
  { job := bits a 0 4, epoch := bits a 4 8, bucket := bits a 12 16, step := txnB x.header, ordinal := bits a 28 12
    scale := bits a 40 8, last := txnFlag x.header 0, poison := txnFlag x.header 1
    format := Config.returnFormat (bits a 0 28), data := slice x.payload 0 512
    bad := txnPoison x.header }

/-- The link at whose VC2 head a transaction stands. -/
def State.linkOf (s : State) (x : Txn) : Option (Fin 24) :=
  (List.finRange 24).find? fun k => match firstTxn (sget [] (s.link k).rx (kindVc (txnKind x.header))) with
    | some (y, _) => y == x
    | none => false

/-- A WRET for this device is landed and answered (R352, R374). -/
def State.serveReturn (s : State) (src : Nat) (x : Txn) : State :=
  let s := match s.linkOf x with | some k => s.takeTxn k x | none => s
  let r := s.landReturn src (frameIx (txnDfr x.header)) (returnRow x)
  r.2.ackTxn x.header r.1

/-- WEIGHT_RETURN_RECEIVE: a WRET row lands, is held, or is dropped (R352–R354). -/
def execWeightReturnReceive (src : Nat) (x : Txn) (s : State) : Result :=
  if txnKind x.header ≠ 2 ∨ txnDst x.header ≠ s.device then .next s else .next (s.serveReturn src x)

end Sys2Proof.Machine
end

