-- ==== Sys2Proof/Machine/TallySend.lean ====
section
/-! DEFINITION. TallySend: the roll list and its messages, and the tally senders: records, contributions, segments and
the answers to them (R312–R318, R325, R327, R328, R330, R333, R401, R423). -/

namespace Sys2Proof.Machine

/-! ### The roll list and its messages (R325, R333, R374) -/

/-- Devices of the roll list, with their owner-only mark. -/
def State.rollList (s : State) (j : Fin 16) : List (Nat × Bool) :=
  let n := s.odGet (jobIndex j) 0x12 0
  match (s.readTable (s.odGet (jobIndex j) 0x11 0) (2 * n)).1 with
  | none => []
  | some b => (List.range n).map fun i => (sliceNat b (2 * i) 2 % 2 ^ 12, bit (sliceNat b (2 * i) 2) 12)

/-- The device this device holds as keeper (R327, R333), and the standby; 0xFFFF none. -/
def State.keeperOf (s : State) (j : Fin 16) : Nat :=
  if (s.roll j).formerStandby then (s.roll j).keeper else s.odGet (jobIndex j) 0x13 0xFFFF
def State.standbyOf (s : State) (j : Fin 16) : Nat :=
  let d := s.odGet (jobIndex j) 0x14 0xFFFF
  if (s.roll j).formerStandby && d == (s.roll j).keeper then 0xFFFF else d

/-- The services of MSG that this model gives the messages of this chapter, which the spec does not number within
0x00 to 0x0F (log entry 27). -/
def svcAnswer : Nat := 0
def svcMembership : Nat := 1
def svcReport : Nat := 2
def svcSeal : Nat := 3
def svcWithdraw : Nat := 4
def svcHeartbeat : Nat := 5
def svcTakeover : Nat := 6
def svcLoss : Nat := 7
def svcAck : Nat := 8
def svcLease : Nat := 9

/-- A message about a job's roll call to a device that exists. -/
def State.sendRoll (s : State) (j : Fin 16) (dev service : Nat) (payload : List Byte) : State :=
  if 2 ^ 12 ≤ dev then s else s.sendMsg dev service (leBytes 1 j.val ++ payload)

/-- To the keeper and the standby. -/
def State.sendKeepers (s : State) (j : Fin 16) (service : Nat) (payload : List Byte) : State :=
  let a := s.keeperOf j
  let b := s.standbyOf j
  let s := s.sendRoll j a service payload
  if b = a then s else s.sendRoll j b service payload

/-! ### Reports (R327, R328, R401, R423) -/

/-- Send-list records of a slot. -/
def State.sendCount (s : State) (j : Fin 16) (i : Nat) : Nat := s.slotEntry j i 5

/-- The slot the senders use for the step (R334). -/
def State.sendSlot (s : State) (j : Fin 16) : Nat := (s.roll j).sendEpoch % 2

def Roll.record (r : Roll) (n : Nat) : SendRec := sget {} r.records n

/-- A report SENT or CLOSED for the revision held goes to the keeper. -/
def State.sendReport (s : State) (j : Fin 16) (sent : Bool) : State :=
  let r := s.roll j
  s.sendRoll j (s.keeperOf j) svcReport (leBytes 3 r.step ++ leBytes 1 r.revision ++ leBytes 1 (b2n sent))

/-- A member whose every contribution has been accepted reports SENT (R327). -/
def State.checkSent (s : State) (j : Fin 16) : State :=
  let r := s.roll j
  if r.held && r.member && !r.isSealed && !r.sent && r.lateFault.isNone &&
      (List.range (s.sendCount j (s.sendSlot j))).all fun n => (r.record n).st == .accepted then
    (s.modRoll j fun r => { r with sent := true }).sendReport j true
  else s

/-- A bucket of the step is CLOSED with SUM, or has no member contributor (R328). -/
def State.bucketClosed (s : State) (j : Fin 16) (i bucket : Nat) : Bool :=
  let r := s.roll j
  match s.ctxOf j.val r.sendEpoch bucket with
  | some (_, x) => x.st == .closed && !x.discard && x.step == r.step
  | none =>
    match s.bucketAt j i bucket with
    | (none, _) => false
    | (some b, s) => expectedCount (s.groupList j i b.group).1 r.members == 0

/-- CLOSED reports of the job are held: update hold, or a snapshot copy (R401, R423). -/
def State.closedHeld (s : State) (j : Fin 16) : Bool :=
  s.odGet (0x2C20 + j.val) 0x01 0 == 1 || (sget {} s.snaps j.val).hold

/-- An owner whose buckets are all closed reports CLOSED (R328). -/
def State.checkClosed (s : State) (j : Fin 16) : State :=
  let r := s.roll j
  let i := s.sendSlot j
  if r.held && !r.isSealed && !r.closedSent && !(s.closedHeld j) &&
      (List.range (if (s.epochSlot j r.sendEpoch).isSome then s.bucketCount j i else 0)).all fun b =>
        s.bucketClosed j i b then
    (s.modRoll j fun r => { r with closedSent := true }).sendReport j false
  else s

/-! ### Send-list records (R312) -/

structure SendEntry where
  source : Nat
  bucket : Nat
  elements : Nat
  owner : Nat
  contributor : Nat
  sparse : Bool
  float : Bool
  k : Nat
  carry : Nat
  deriving DecidableEq, Repr

def sendEntry (b : List Byte) : SendEntry :=
  { source := sliceNat b 0 6, bucket := sliceNat b 6 2, elements := sliceNat b 8 4, owner := sliceNat b 12 2 % 2 ^ 12
    contributor := sliceNat b 14 2, sparse := bit (sliceNat b 16 1) 0, float := bit (sliceNat b 16 1) 1
    k := sliceNat b 20 4, carry := sliceNat b 24 6 }

/-- Record `n` of the job's send list. -/
def State.sendAt (s : State) (j : Fin 16) (n : Nat) : Option SendEntry × State :=
  let r := s.readTable (s.slotEntry j (s.sendSlot j) 4 + 32 * n) 32
  (r.1.map sendEntry, r.2)

/-! ### Contributions (R315, R316) -/

/-- The values of a contribution: what is sent, with its indexes in ascending order; m; every value; the kind of the
late fault met (0 non-finite, 1 uncorrectable). -/
structure Contribution where
  items : List (Nat × W32) := []
  m : Int := -149
  values : List W32 := []
  late : Option Nat := none
  deriving DecidableEq, Repr

def wordsOf (b : List Byte) : List W32 :=
  (chunks 4 b.length b).map fun w => BitVec.ofNat 32 (leNat w)

/-- The `k` indexes of largest magnitude, ties to the lower index, in ascending order (R316). -/
def topIndexes (y : List W32) (k : Nat) : List Nat :=
  let ys := y.zipIdx
  (ys.filter fun p => decide (ys.countP (fun q =>
    decide ((f32Abs p.1).toNat < (f32Abs q.1).toNat) ||
      (f32Abs p.1 == f32Abs q.1 && decide (q.2 < p.2))) < k)).map (·.2)

/-- The smallest m of at least −149 with every magnitude below 2^m (R315). -/
def exponentOf (vs : List W32) : Int :=
  vs.foldl (fun m v => if f32Abs v = 0 then m else max m (f32Exponent v + 1)) (-149)

/-- The source of a record, with the carry added where it is sparse. -/
def State.contribution (s : State) (x : SendEntry) : Contribution × State :=
  let a := s.readTable x.source (4 * x.elements)
  let c := if x.sparse then a.2.readTable x.carry (4 * x.elements) else (some [], a.2)
  match a.1, c.1 with
  | some src, some carry =>
    let y := if x.sparse then (wordsOf src).zipWith f32Add (wordsOf carry) else wordsOf src
    if y.any fun v => !(f32IsFinite v) then ({ late := some 0 }, c.2)
    else
      let items := if x.sparse then (topIndexes y x.k).map fun i => (i, y.getD i 0)
        else y.zipIdx.map fun p => (p.2, p.1)
      ({ items := items, m := exponentOf (items.map (·.2)), values := y }, c.2)
  | _, _ => ({ late := some 1 }, c.2)

/-- `clamp(rne_int(v · 2^(48 − E)))` of R315. -/
def quantise (e : Int) (v : W32) : Int :=
  match f32Num v with
  | .fin neg m x =>
    let q := min (roundUnits .nearestEven m 1 (x + 48 - e) 0) (2 ^ 63 - 1)
    if neg then -(q : Int) else (q : Int)
  | _ => 0

/-- The new carry of R316 for a value that was sent. -/
def carryLeft (float : Bool) (e : Int) (y : W32) : W32 :=
  if float then 0 else
  match f32Num y with
  | .fin neg m x => f32OfDyad false ((dyadOf neg m x).add ⟨-(quantise e y), e - 48⟩)
  | _ => 0

/-! ### Segments (R317) -/

/-- Elements or pairs that a segment carries at most. -/
def segmentSize (sparse float : Bool) : Nat :=
  if sparse then (if float then 64 else 32) else (if float then 128 else 64)

/-- One value as a segment carries it; a retraction negates it. -/
def itemBytes (x : SendEntry) (e : Int) (negate : Bool) (p : Nat × W32) : List Byte :=
  let v := if x.float then leBytes 4 (if negate then f32Neg p.2 else p.2).toNat
    else leBytes 8 (unsigned 64 (if negate then -(quantise e p.2) else quantise e p.2))
  if x.sparse then leBytes 4 p.1 ++ v else v

/-- The segments of a contribution, in ascending order: header and data. -/
def segmentsOf (base : TallyHeader) (x : SendEntry) (c : Contribution) (e : Int) (negate : Bool) :
    List (BitVec 128 × List Byte) :=
  let size := segmentSize x.sparse x.float
  let cs := chunks size c.items.length c.items
  cs.zipIdx.map fun p =>
    (packTally { base with
      op := (if x.sparse then 1 else 0) + (if negate then 3 else 0), count := p.1.length - 1
      first := size * p.2, last := p.2 + 1 == cs.length },
      p.1.flatMap (itemBytes x e negate))

/-- What a record sends: a MAX segment, or its data (R315, R317). A retraction of a MAX segment repeats its header and
carries no value. -/
def recordSegments (base : TallyHeader) (x : SendEntry) (c : Contribution) (max negate : Bool) (e : Int) :
    List (BitVec 128 × List Byte) :=
  if max then [(packTally { base with op := if negate then (if x.sparse then 4 else 3) else 2, last := true }, [])]
  else segmentsOf base x c e negate

/-- The frame a contribution is sent for: as the contributor entry names it, else the lowest frame of the job (R318). -/
def State.sendFrame (s : State) (j : Fin 16) (x : SendEntry) : Nat :=
  let i := s.sendSlot j
  let g := match s.bucketAt j i x.bucket with
    | (some b, s) => (s.groupList j i b.group).1
    | (none, _) => []
  match g[x.contributor]? with
  | some c => if contribDevice c = s.device then contribFrame c else ((s.framesOfJob j).headD 0).val
  | none => ((s.framesOfJob j).headD 0).val

def State.modRec (s : State) (j : Fin 16) (n : Nat) (f : SendRec → SendRec) : State :=
  s.modRoll j fun r => { r with records := smod {} r.records n f }

/-- A late fault of a record (R330); one from a lost or unroutable link cannot be retracted (R379). -/
def State.lateFault (s : State) (j : Fin 16) (n kind : Nat) (hard : Bool) : State :=
  let s := (s.modRec j n fun q => { q with st := .late }).count32 0x2901 0x0D
  s.modRoll j fun r => { r with
    lateFault := some (r.lateFault.getD kind), lateHard := r.lateHard || hard }

/-- One segment leaves for the owner (R312, R374, R377); where there is no way it ends with status 0x2 (R379). -/
def State.sendSegment (s : State) (j : Fin 16) (n : Nat) (x : SendEntry) (sfr : Nat) (p : BitVec 128 × List Byte) :
    State :=
  let s := s.count64 0x2901 0x0E
  let data := p.2 ++ zeroBytes (16 * ceilDiv p.2.length 16 - p.2.length)
  let out := s.modRec j n fun q => { q with outstanding := q.outstanding + 1 }
  if x.owner = s.device then out.emit (.segment p.1.toNat p.2)
  else match s.egress x.owner with
    | none => s.lateFault j n 2 true
    | some k => out.requestOrWait k (.tally j.val n (bits p.1.toNat 28 16)
      (bits p.1.toNat 44 4)) { kind := 6, dst := x.owner, src := 0, sfr := sfr }
        (leBytes 16 p.1.toNat ++ data)

/-- What the record sends next: a MAX segment, or data with E (R315). -/
def State.nextSend (s : State) (j : Fin 16) (x : SendEntry) (q : SendRec) : Option Int :=
  if x.float then some 0
  else match q.next with
    | some y => y
    | none => s.expAt j (s.sendSlot j) x.bucket

/-- A record is sent, from the first segment not yet accepted; a retraction repeats what was accepted (R315, R331). -/
def State.sendRecord (s : State) (j : Fin 16) (n : Nat) : State :=
  let q := (s.roll j).record n
  let retract := q.st == .retracting
  match s.sendAt j n with
  | (none, s) => s.lateFault j n 1 false
  | (some x, s) =>
    let c := s.contribution x
    match c.1.late with
    | some kind => c.2.lateFault j n kind false
    | none =>
      let r := c.2.roll j
      let next := if retract then (if q.max then none else some q.e) else c.2.nextSend j x q
      let base : TallyHeader :=
        { job := j.val, epoch := r.sendEpoch, bucket := x.bucket, step := r.step % 2 ^ 16, revision := r.revision,
          op := 0
          float := x.float, last := false, count := 0, first := 0, contributor := x.contributor
          m := if x.float then 0 else c.1.m, e := next.getD 0 }
      let segs := (recordSegments base x c.1 next.isNone retract (next.getD 0)).drop q.accepted
      let sfr := c.2.sendFrame j x
      let s := c.2.modRec j n fun q => { q with
        st := if retract then .retracting else .inFlight, max := next.isNone, e := next.getD 0, refused := false
        next := if next.isNone then some none else q.next }
      segs.foldl (fun s p => s.sendSegment j n x sfr p) s

/-- The job's senders may send: a member of an unsealed step with no late fault that no refusal has told to stop (R312,
R318, R330). -/
def Roll.sends (r : Roll) : Bool := r.held && r.member && !r.isSealed && r.lateFault.isNone && !r.stopped

/-- A segment of this step and revision was sent for the records as they are now worked on (R327, R329). -/
def Roll.sentNow (r : Roll) (step revision : Nat) : Bool :=
  step == r.step % 2 ^ 16 && decide (r.sendFrom ≤ revision) && decide (revision ≤ r.revision)

/-- Every earlier record whose source lies in the same stack has been taken up (R312). -/
def State.inOrder (s : State) (j : Fin 16) (n : Nat) : Bool :=
  let stackOf (i : Nat) : Option Nat := (s.sendAt j i).1.map fun x => x.source / stackSize
  (List.range n).all fun i => ((s.roll j).record i).st != .ready || stackOf i != stackOf n

/-- TALLY_SEND_RECORD: the sender takes up a record of the send list (R312, R315–R317, R331). -/
def execTallySendRecord (j : Fin 16) (r : Nat) (s : State) : Result :=
  let q := (s.roll j).record r
  if s.sendCount j (s.sendSlot j) ≤ r ∨ q.outstanding ≠ 0 then .next s
  else if q.st = .retracting ∧ (s.roll j).stopped = false then .next (s.sendRecord j r)
  else if (s.roll j).sends ∧ q.st = .ready ∧ s.inOrder j r then .next (s.sendRecord j r)
  else .next s

/-- TALLY_RETRY: a record set aside is retried (R318). -/
def execTallyRetry (j : Fin 16) (r : Nat) (s : State) : Result :=
  let q := (s.roll j).record r
  if q.outstanding ≠ 0 then .next s
  else if (q.st = .setAside ∧ (s.roll j).sends) ∨ (q.st = .retracting ∧ q.refused ∧ (s.roll j).stopped = false) then
    .next (s.sendRecord j r)
  else .next s

/-! ### Answers (R318) -/

/-- A status that R318 marks as a late fault. -/
def lateStatus (st : Nat) : Bool := [3, 6, 7, 9, 0xA, 0xB].contains st

/-- A record once an accepted or refused segment is counted: where every segment has been answered, what it has come
to (R315, R323, R331). -/
def SendRec.settle (q : SendRec) (member : Bool) : SendRec :=
  if q.outstanding ≠ 0 then q
  else if q.st = .retracting then (if q.refused then q else { q with st := .retracted })
  else if q.st ≠ .inFlight then q
  else if q.max then
    (match q.next with
      | some (some _) => { q with st := .ready, accepted := 0 }
      | _ => { q with st := .awaitData, accepted := 0 })
  else if q.next = some none then { q with st := .ready, accepted := 0 }
  else if member then { q with st := .accepted }
  else { q with st := .retracting, accepted := 0 }

/-- A refused segment of a record (R318); a late fault is taken elsewhere. -/
def SendRec.refuse (q : SendRec) (status : Nat) (e : Int) : SendRec :=
  let q := { q with refused := true }
  if q.st = .retracting ∧ lateStatus status then { q with st := .retracted }
  else if q.st ≠ .inFlight then q
  else if status = 5 then { q with st := .stopped }
  else if status = 8 then
    { q with st := .ready, accepted := 0, next := if e = askMax then some none else none }
  else { q with st := .setAside }

/-- The answer to one segment of a record, of the step and revision in its header (R318); one to a segment of records
since given up is dropped (R329). -/
def State.tallyStatus (s : State) (j : Fin 16) (n step revision status : Nat) (e : Int) : State :=
  let q := (s.roll j).record n
  if q.outstanding = 0 || !((s.roll j).sentNow step revision) then s else
  let s := s.modRec j n fun q => { q with outstanding := q.outstanding - 1 }
  let s :=
    if status = 0 then s.modRec j n fun q => { q with
      accepted := if q.st = .inFlight ∨ q.st = .retracting then q.accepted + 1 else q.accepted }
    else
      let s := (s.count64 0x2901 0x0F).modRec j n fun q => q.refuse status e
      let s := if lateStatus status && q.st != .retracting then s.lateFault j n 2 false else s
      let s := if status = 5 then s.modRoll j fun r => { r with stopped := true } else s
      match status == 8 && e != askMax, (s.sendAt j n).1 with
      | true, some x => s.setExp j (s.sendSlot j) x.bucket (some e)
      | _, _ => s
  let member := (s.roll j).member
  (s.modRec j n fun q => q.settle member).checkSent j

/-- A segment whose link was lost or whose route failed (R379): a late fault that cannot be retracted. -/
def State.tallyLost (s : State) (j : Fin 16) (n step revision : Nat) : State :=
  if ((s.roll j).record n).outstanding = 0 || !((s.roll j).sentNow step revision) then s
  else (s.modRec j n fun q => { q with outstanding := q.outstanding - 1 }).lateFault j n 2 true

/-- TALLY_ACK_RECEIVE: the answer to a segment reaches its sender (R318). -/
def execTallyAckReceive (j : Fin 16) (r step : Nat) (revision status : Fin 16) (e : BitVec 12) (s : State) : Result :=
  .next (s.tallyStatus j r step revision.val status.val (signed 12 e.toNat))

/-! ### Notices (R314, R323) -/

/-- The records of the send list for a bucket. -/
def State.recordsOf (s : State) (j : Fin 16) (bucket : Nat) : List Nat :=
  (List.range (s.sendCount j (s.sendSlot j))).filter fun n => match (s.sendAt j n).1 with
    | some x => x.bucket == bucket
    | none => false

/-- A record is to send again: a MAX segment or data. -/
def SendRec.again (q : SendRec) (what : Option Int) : SendRec :=
  { q with
    next := some what
    st := if q.outstanding = 0 ∧ [SendState.accepted, .awaitData].contains q.st then .ready else q.st
    accepted := if q.outstanding = 0 then 0 else q.accepted }

/-- The effect of a notice (R323). -/
def State.applyNotice (s : State) (h : TallyHeader) : State :=
  let j := jobIx h.job
  match s.epochSlot j h.epoch with
  | none => s
  | some i =>
    let resend (s : State) (what : Option Int) : State :=
      if (s.roll j).member && !(s.roll j).isSealed then
        (s.recordsOf j h.bucket).foldl (fun s n => s.modRec j n fun q => q.again what) s
      else s
    match h.count with
    | 0 => s.setExp j i h.bucket (some h.e)
    | 1 => resend (s.setExp j i h.bucket none) none
    | 2 => resend s (some h.e)
    | _ => s

/-- The link whose VC1 buffer has the notice at its head. -/
def State.noticeLink (s : State) (header : BitVec 128) : Option (Fin 24 × Txn) :=
  (List.finRange 24).findSome? fun k => match s.tallyHead k with
    | some x => if leNat (x.payload.take 16) = header.toNat then some (k, x) else none
    | none => none

/-- TALLY_NOTICE_RECEIVE: a notice is accepted without status checks, and acknowledged (R323, R374). -/
def execTallyNoticeReceive (header : BitVec 128) (s : State) : Result :=
  let h := tallyHeader header
  if h.op ≠ 5 then .next s else
  let s := match s.noticeLink header with
    | some (k, x) => (s.takeTxn k x).ackTxn x.header 0
    | none => s
  .next (s.applyNotice h)

/-! ### Context events (R321–R323) -/

/-- TALLY_CONTEXT_CLOSE: a CLOSING context is closed, goes to DATA or is measured again (R323, R328). -/
def execTallyContextClose (c : Fin 16384) (s : State) : Result :=
  match s.ctxAt c.val with
  | some x => if x.st = .closing then .next ((s.closeCtx c.val x).checkClosed (jobIx x.job)) else .next s
  | none => .next s

/-- Contributors a context still waits for: members whose bits are clear, or those not yet retracted (R322). -/
def State.missing (s : State) (x : TallyCtx) : List Nat :=
  let ix := if x.st = .retracting then x.excluded
    else (List.range x.group.length).filter fun i =>
      !(x.bits.contains i) && (s.roll (jobIx x.job)).members.contains (contribDevice (x.group.getD i 0))
  (ix.map fun i => contribDevice (x.group.getD i 0)).eraseDups

/-- The leases of a job's contexts run (R401: not while updates are held and the context is CLOSED). -/
def TallyCtx.leased (x : TallyCtx) : Bool := x.st == .opened || x.st == .retracting

/-- TALLY_LEASE_EXPIRY: the context is discarded, and the members it lacks are reported to the keeper, 45 to a message
(R322, R374, R432). -/
def execTallyLeaseExpiry (c : Fin 16384) (s : State) : Result :=
  match s.ctxAt c.val with
  | some x =>
    if !x.leased then .next s else
    let j := jobIx x.job
    let devs := s.missing x
    let s := ((s.discardCtx c.val).count32 0x2901 0x09).logEvent 0x0704 (x.job + x.bucket * 2 ^ 4)
    .next ((chunks 45 devs.length devs).foldl (fun s ds => s.sendRoll j (s.keeperOf j) svcLease
      (leBytes 3 x.step ++ leBytes 2 ds.length ++ ds.flatMap fun d => leBytes 2 d)) s)
  | none => .next s

/-- TALLY_DISCARD_COMPLETE: the sum area is zero and the context is FREE (R310, R321). -/
def execTallyDiscardComplete (c : Fin 16384) (s : State) : Result :=
  match s.ctxAt c.val with
  | some x =>
    if x.discard then .next (((s.zeroSum x.sum x.bytes).setCtx c.val none).checkClosed (jobIx x.job)) else .next s
  | none => .next s

end Sys2Proof.Machine
end

