-- ==== Sys2Proof/Machine/Watch.lean ====
section
/-! DEFINITION. Watch: the watch collector and the watch units: line copies, records, closes, scales, alarms and the
shadow check (R197–R215). -/

namespace Sys2Proof.Machine

/-! ### Lines (R198, R201) -/

/-- A slot's registers in its watch line: bytes 2, 4–23 and 28–31; the image's bytes stay (R201). -/
def WatchSlot.lineBytes (w : WatchSlot) (old : List Byte) : List Byte :=
  slice old 0 2 ++ leBytes 1 w.flags ++ slice old 3 1 ++ leBytes 4 w.amax.toNat ++ leBytes 4 w.sat ++
    leBytes 4 w.flush ++ leBytes 4 w.nonfinite ++ leBytes 4 w.sampling ++ slice old 24 4 ++
    leBytes 4 w.shadow.toNat ++ slice old 32 32

/-- The frame holds the tile and has not faulted (R501: then nothing of it moves). -/
def State.tileLives (s : State) (t : Nat) : Bool :=
  match s.frameOf t with
  | some f => (s.frame f).st != .faulted
  | none => false

/-- WATCH_LINE_COPY: the unit copies a changed slot into its line; a line that reads uncorrectable keeps the copy
waiting (R100, R201). -/
def execWatchLineCopy (t : Nat) (slot : Fin 16) (s : State) : Result :=
  onTile s t (
    let x := s.tile t
    let w := x.watchSlot slot.val
    if !(s.tileLives t) || decide (x.decl.watchLines ≤ slot.val) || !w.dirty then s else
    let line := x.decl.watchFirst + slot.val
    let r := s.readLine t line
    if r.1.bad then r.2 else
    (r.2.writeLine t line (w.lineBytes r.1.data)).modTile t fun x =>
      { x with watch := { x.watch with slots := smod {} x.watch.slots slot.val fun w => { w with dirty := false } } })

/-! ### Alarms (R207, R208, R211, R215) -/

/-- An alarm: kind 1 saturation, 2 flush, 3 silent layer, 4 shadow (R215, R448). -/
def State.alarm (s : State) (tid kind step : Nat) : State :=
  let d := tid + kind * 2 ^ 16
  let w := d + step % 2 ^ 24 * 2 ^ 24
  let s := ((s.count32 0x2604 0x01).odSet 0x2604 0x02 w).logEvent 0x0600 d
  if s.odGet 0x2E01 0x01 1 = 1 then s.publish 0x10 (leBytes 8 w ++ leBytes 8 s.supCycles) else s

/-! ### Scales (R204) -/

/-- The history length of a record: 0 selects 16 (R216). -/
def watchLength (r : Nat) : Nat := if bits r 10 6 = 0 then 16 else bits r 10 6
/-- The lag of a record: 0 selects 2. -/
def watchLag (r : Nat) : Nat := if bits r 20 2 = 1 then 1 else 2
/-- The zero-run threshold of a record: 0 selects 64; none where it is off. -/
def watchThreshold (r : Nat) : Option Nat :=
  match bits r 40 16 with
  | 0 => some 64
  | 0xFFFF => none
  | n => some n
/-- A scale is kept for the format (R204). -/
def watchScaled (r : Nat) : Bool := bits r 6 4 == 3 || bits r 6 4 == 4

/-- The exponent of R204, biased. -/
def scaleFor (fmt : Nat) (margin : Int) (h : W32) : Nat :=
  (clampInt (-127) 127 (f32Exponent h + margin - (if fmt = 3 then 8 else 15)) + 127).toNat

/-- `next_scale` of R204: the new scale and whether it was kept because no range is known. -/
def nextScale (fmt : Nat) (margin : Int) (scale : Nat) (hist : List W32) : Nat × Bool :=
  let h := hist.foldl f32Max 0
  if h = 0 then (scale, true) else (scaleFor fmt margin h, false)

/-! ### The close of a step (R202, R203, R207, R208) -/

/-- The step of a post, its marker count, and its record for a tensor. -/
def postStep : WatchPost → Nat
  | .record _ _ _ step _ _ _ _ _ => step
  | .marker _ _ step _ => step
def isMarkerOf (f step t : Nat) : WatchPost → Option Nat
  | .marker g u q n => if g = f ∧ q = step ∧ u = t then some n else none
  | .record _ _ _ _ _ _ _ _ _ => none
def isRecordFrom (f step t : Nat) : WatchPost → Bool
  | .record g u _ q _ _ _ _ _ => g == f && q == step && u == t
  | .marker _ _ _ _ => false

/-- The tiles of a frame that have a watch area. -/
def State.watchTiles (s : State) (f : Fin 8) : List Nat :=
  (s.frameTiles f).filter fun t => decide (0 < (s.tile t).decl.watchLines)

/-- The collector holds the marker of every tile with a watch area, and every record they count (R202). -/
def State.stepWhole (s : State) (f : Fin 8) (step : Nat) : Bool :=
  (s.watchTiles f).all fun t =>
    match s.posts.findSome? (isMarkerOf f.val step t) with
    | some n => s.posts.countP (isRecordFrom f.val step t) == n
    | none => false

/-- The oldest open step of a frame. -/
def State.openStep (s : State) (f : Fin 8) : Option Nat :=
  (s.posts.filter fun p => postFrame p == f.val).foldl (fun m p =>
    match m with
    | none => some (postStep p)
    | some q => some (min q (postStep p))) none

/-- The combination of a tensor's records (R203): amax, if any record captured one, and the sums. -/
structure StepSum where
  amax : Option W32 := none
  sat : Nat := 0
  flush : Nat := 0
  nonfinite : Nat := 0
  deriving DecidableEq, Repr

def StepSum.add (a : StepSum) (f tid step : Nat) : WatchPost → StepSum
  | .record g _ i q flags amax sat flush nonfinite =>
    if g = f ∧ i = tid ∧ q = step then
      { amax := if bit flags 2 then some (match a.amax with | some m => f32Max m amax | none => amax) else a.amax
        sat := a.sat + sat, flush := a.flush + flush, nonfinite := a.nonfinite + nonfinite }
    else a
  | .marker _ _ _ _ => a

/-- The zero-run count and its alarm flag after a close (R208): new entry, and whether an alarm is raised. -/
def WatchEntry.zeroStep (e : WatchEntry) (r : Nat) (amax : Option W32) (scanBad : Bool) : WatchEntry × Bool :=
  if bits r 4 2 ≠ 1 ∨ scanBad then (e, false) else
  match amax with
  | none => (e, false)
  | some a =>
    if a ≠ 0 then ({ e with zeroRun := 0, alarmed := false }, false) else
    let n := satAdd 16 e.zeroRun 1
    let due := match watchThreshold r with | some k => decide (k ≤ n) && !e.alarmed | none => false
    ({ e with zeroRun := n, alarmed := e.alarmed || due }, due)

/-- A tensor's entry after the close of a step: history, scale and totals (R203, R204, R207). -/
def WatchEntry.close (e : WatchEntry) (r step : Nat) (x : StepSum) : WatchEntry :=
  let hist := match x.amax with | some a => (a :: e.history).take (watchLength r) | none => e.history
  let sc := if watchScaled r then nextScale (bits r 6 4) (signed 4 (bits r 16 4)) e.scale hist else (e.scale, e.kept)
  { e with
    step := step, history := hist, scale := sc.1, kept := sc.2
    sat := satAdd 64 e.sat x.sat, flush := satAdd 64 e.flush x.flush
    nonfinite := satAdd 64 e.nonfinite x.nonfinite
    lastAmax := x.amax.getD e.lastAmax }

/-- One tracked tensor of the frame is closed (R203, R204, R207, R208). -/
def State.closeTensor (s : State) (f : Fin 8) (step tid r : Nat) (scanBad : Bool) : State :=
  let x := s.posts.foldl (fun a p => a.add f.val tid step p) ({} : StepSum)
  let z := ((s.watchEntry tid).close r step x).zeroStep r x.amax scanBad
  let s := s.setWatch tid z.1
  let s := if bits r 64 32 ≠ 0 ∧ bits r 64 32 < x.sat then s.alarm tid 1 step else s
  let s := if bits r 96 32 ≠ 0 ∧ bits r 96 32 < x.flush then s.alarm tid 2 step else s
  if z.2 then s.alarm tid 3 step else s

/-- The scale of a slot's tensor into the tile's scale page: byte `i` of half `h` (R205). -/
def State.writeScale (s : State) (t i h scale : Nat) : State :=
  s.writeScratch t ((s.tile t).decl.scalePage + 16 * h + i) [BitVec.ofNat 8 scale]

/-- The scales computed at the close of a step reach a tile, and its scale counter rises (R205). -/
def State.deliverScales (s : State) (f : Fin 8) (step t : Nat) : State :=
  let s := ((List.range (s.tile t).decl.watchLines).map fun i => (i, s.slotTid t i)).foldl (fun (s : State) p =>
    match s.watchRecord f p.2 with
    | none => s
    | some r => s.writeScale t p.1 ((step + watchLag r) % 2) (s.watchEntry p.2).scale) s
  (s.signal t 0 (s.tile t).decl.scaleCounter).wake t

/-- The collector defers its closes of a job whose snapshot copies its state part (R423). -/
def State.closesDeferred (s : State) (f : Fin 8) : Bool :=
  match s.jobOf f with
  | some j => bits (s.odGet (0x2D20 + j) 0x09 0) 0 3 == 1
  | none => false

/-- A step of a frame is closed (R203, R205). -/
def State.closeStep (s : State) (f : Fin 8) (step : Nat) : State :=
  match (s.frame f).latched with
  | none => s
  | some l =>
    let bad := (s.frame f).scanBad.contains step
    let s := l.watch.foldl (fun (s : State) p => s.closeTensor f step p.1 p.2 bad) s
    let s := (s.watchTiles f).foldl (fun s t => s.deliverScales f step t) s
    let s := { s with posts := s.posts.filter fun p => !(postFrame p == f.val && postStep p == step) }
    s.modFrame f fun y => { y with scanBad := y.scanBad.filter fun q => decide (step < q) }

/-- WATCH_STEP_CLOSE: the collector closes the oldest open step of a frame once it holds all of it (R202–R208). -/
def execWatchStepClose (f : Fin 8) (s : State) : Result :=
  match s.openStep f with
  | none => .next s
  | some step => if s.stepWhole f step && !(s.closesDeferred f) then .next (s.closeStep f step) else .next s

/-- The frame's posts are kept (R214). -/
def Frame.watched (y : Frame) : Bool := y.st == .running || y.st == .stopped

/-- WATCH_RECORD_ARRIVAL: a record or a marker reaches the collector; one that a router has poisoned is discarded and
counted as a refused arrival (R202, R225). -/
def execWatchRecordArrival (r : WatchPost) (poisoned : Bool) (s : State) : Result :=
  if poisoned then .next ({ s with posting := s.posting.erase r }.count32 0x2703 0x01)
  else if (s.frame (frameIx (postFrame r))).watched then
    .next { s with posting := s.posting.erase r, posts := s.posts ++ [r] }
  else .next s

/-! ### The shadow check (R209–R211) -/

/-- The largest magnitude; NaN where one is a NaN (R211). -/
def maxMagnitude (xs : List W32) : W32 := xs.foldl (fun a v => f32Max a (f32Abs v)) 0

/-- The divergence `e` of R211 of results `as` from retained accumulators `an`. -/
def divergence (an as : List W32) : W32 :=
  let d := maxMagnitude (an.zipWith f32Sub as)
  let m := maxMagnitude as
  if f32IsNaN d || f32IsNaN m || an.any f32IsNaN then f32NaN
  else if m = 0 then (if an.all fun a => f32Abs a == 0 then 0 else f32Inf false)
  else f32Div d m

/-- The bin of a divergence (R211). -/
def shadowBin (e : W32) : Nat :=
  if !(f32IsFinite e) || !(f32Lt e f32One) then 0
  else if f32Abs e = 0 then 31
  else min 31 (-(f32Exponent e)).toNat

/-- The shadow job's results on the BF16 copies; `none` where a row could not be read (R210). -/
def State.shadowResult (s : State) (t : Nat) (j : ShadowJob) : Option (List W32) × State :=
  let sh := fwdShape j.desc
  let rows := s.shadowRows t j.slot
  let x := shadowOperand rows.1 sh.m sh.k
  let w := shadowOperand rows.2 sh.n sh.k
  let a := s.engineReads t 0 2 (x.rows ++ w.rows)
  (if a.bus.isSome then none else some (matResult (loadOperand a.cache x) (loadOperand a.cache w) []).flatten, a.s)

/-- A shadow sample enters the tensor's histogram, with its alarm (R211, R215). -/
def State.shadowSample (s : State) (f : Fin 8) (tid : Nat) (e : W32) : State :=
  let b := shadowBin e
  let w := s.watchEntry tid
  let s := (s.setWatch tid { w with
    samples := satAdd 32 w.samples 1, maxShadow := f32Max w.maxShadow e
    bins := smod 0 w.bins b fun n => satAdd 32 n 1 }).count32 0x2604 0x05
  match s.watchRecord f tid with
  | none => s
  | some r => if bits r 27 5 ≠ 31 ∧ b ≤ bits r 27 5 then s.alarm tid 4 (s.frame f).step else s

/-- SHADOW_JOB_COMPLETE: the shadow job ends, compares and posts its outcome (R201, R210, R211). -/
def execShadowJobComplete (t : Nat) (s : State) : Result :=
  onRunning s t fun f =>
    match (s.tile t).watch.job with
    | none => s
    | some j =>
      let r := s.shadowResult t j
      let e := match r.1 with | some as => divergence j.retained as | none => f32NaN
      let s := r.2.modTile t fun x => { x with watch := { x.watch with job := none } }
      let s := s.modSlot t j.slot fun w => { w with flags := putBit w.flags 1 false, shadow := e }
      s.shadowSample f j.tid e

end Sys2Proof.Machine
end

