-- ==== Sys2Proof/Machine/Update.lean ====
section
/-! DEFINITION. Update: the update engines: update records, group records, moments, routines, narrow weights and their
return (R340–R357, R361, R417). -/

namespace Sys2Proof.Machine

/-! ### Update records (R341) -/

structure UpdateRec where
  master : Nat
  group : Nat
  moments : Nat
  format : Nat
  options : Nat
  first : Nat
  length : Nat
  margin : Int
  initial : Nat
  scale : Nat
  /-- Filled entries, and their amax values, newest first. -/
  filled : Nat
  history : List W32
  /-- The bytes that the table gives as zero are zero. -/
  zeros : Bool
  deriving DecidableEq, Repr

def updateRec (b : List Byte) : UpdateRec :=
  let n := sliceNat b 25 1
  { master := sliceNat b 0 6, group := sliceNat b 6 2, moments := sliceNat b 8 6, format := sliceNat b 14 1
    options := sliceNat b 15 1, first := sliceNat b 16 5, length := sliceNat b 21 1,
      margin := signed 8 (sliceNat b 22 1)
    initial := sliceNat b 23 1, scale := sliceNat b 24 1, filled := n
    zeros := sliceNat b 26 2 == 0 && sliceNat b 32 32 == 0
    history := (List.range (min n 32)).map fun i => BitVec.ofNat 32 (sliceNat b (64 + 4 * i) 4) }

/-- The history length: 0 selects 16. -/
def UpdateRec.entries (r : UpdateRec) : Nat := if r.length = 0 then 16 else r.length

/-- The record keeps the rules of R341 for a bucket of `n` elements whose sum area lies at `area`. -/
def UpdateRec.ok (r : UpdateRec) (area n : Nat) : Bool :=
  let inStack (a len : Nat) : Bool :=
    a % 64 == 0 && a / stackSize == area / stackSize && (a + len - 1) / stackSize == area / stackSize
  inStack r.master (4 * n) && inStack r.moments (2112 * ceilDiv n 1024) && decide (r.group ≤ 255) &&
    decide (1 ≤ r.format) && decide (r.format ≤ 0xA) && decide (r.options < 8) && decide (r.length ≤ 32) &&
    decide (-8 ≤ r.margin) && decide (r.margin ≤ 7) && decide (r.filled ≤ 32) && r.zeros

def State.updateAddr (s : State) (j : Fin 16) (i bucket : Nat) : Nat := s.odGet (updateIndex j) (3 + i) 0 + 192 * bucket

/-! ### Group records (R342, R344) -/

def groupWord (g : List Byte) (off : Nat) : W32 := BitVec.ofNat 32 (sliceNat g off 4)
def groupRoutine (g : List Byte) : Nat := sliceNat g 0 1
def groupFrozen (g : List Byte) : Bool := bit (sliceNat g 1 1) 0

/-- The group runs a routine: it is neither disabled nor reserved (R342). -/
def groupRuns (g : List Byte) : Bool :=
  let r := groupRoutine g
  (decide (1 ≤ r) && decide (r ≤ 3)) || (decide (0x10 ≤ r) && decide (r ≤ 0x17))

/-- The step scalars of R344: the record with its bytes 64–103 rewritten. -/
def stepScalars (g : List Byte) (step : Nat) : List Byte :=
  let t0 := sliceNat g 64 8
  let p (off pow : Nat) : W32 := f32Mul (if t0 = 0 then f32One else groupWord g pow) (groupWord g off)
  let p1 := p 8 72
  let p2 := p 12 76
  let less (x : W32) : W32 := f32Sub f32One x
  let words := [p1, p2, less (groupWord g 8), less (groupWord g 12), f32Recip (less p1), f32Recip (less p2),
    less (f32Mul (groupWord g 4) (groupWord g 20))]
  splice g 64 (leBytes 8 (t0 + 1) ++ (words.flatMap fun w => leBytes 4 w.toNat) ++ leBytes 4 (step % 2 ^ 24))

def State.groupAddr (s : State) (j : Fin 16) (g : Nat) : Nat := s.odGet (updateIndex j) 0x01 0 + 128 * g

/-- A group record; one beyond the group count, or that cannot be read, is as a disabled one. -/
def State.groupRecord (s : State) (j : Fin 16) (g : Nat) : List Byte × State :=
  if s.odGet (updateIndex j) 0x02 0 ≤ g then (zeroBytes 128, s) else
  let r := s.readTable (s.groupAddr j g) 128
  (r.1.getD (zeroBytes 128), r.2)

/-- Engine 0 computes the scalars of every group that is enabled and not frozen, at a seal with a member (R344). -/
def State.sealGroups (s : State) (j : Fin 16) (step : Nat) : State :=
  (List.range (s.odGet (updateIndex j) 0x02 0)).foldl (fun s g =>
    let r := s.groupRecord j g
    if groupRuns r.1 && !(groupFrozen r.1) then
      r.2.writeTable (s.groupAddr j g + 64) (slice (stepScalars r.1 step) 64 40)
    else r.2) s

/-! ### Block reads with their bad blocks (R294) -/

/-- Blocks read by an engine: bytes, and the addresses of those that cannot be used. -/
structure Marked where
  bytes : List Byte := []
  bad : List Nat := []
  s : State

def State.readMarked (s : State) (a n : Nat) : Marked :=
  (List.range (ceilDiv n 64)).foldl (fun m i =>
    let b := a + 64 * i
    if m.s.stackBacked b then
      let r := m.s.readBlock b
      { bytes := m.bytes ++ r.1.data, bad := if r.1.bad then b :: m.bad else m.bad, s := r.2 }
    else { m with bytes := m.bytes ++ List.replicate 64 0xFF, bad := b :: m.bad }) { s := s }

/-- A bad block lies in `[a, a + n)`. -/
def Marked.badIn (m : Marked) (a n : Nat) : Bool := m.bad.any fun b => decide (a < b + 64) && decide (b < a + n)

/-- Blocks written by an engine, those of `skip` left alone. -/
def State.writeMarked (s : State) (a : Nat) (data : List Byte) (skip : Nat → Bool) : State :=
  ((chunks 64 data.length data).zipIdx).foldl (fun s p =>
    let b := a + 64 * p.2
    if skip b || !(s.stackBacked b) then s else s.writeBlock b p.1 false) s

/-! ### Routines (R347, R349) -/

/-- One element: gradient, master, moments. -/
structure Element where
  g : W32
  w : W32
  m : W32
  v : W32
  deriving DecidableEq, Repr

/-- AdamW (R347). -/
def stepAdamW (q : List Byte) (x : Element) : Element :=
  let m1 := f32Fma (groupWord q 8) x.m (f32Mul (groupWord q 80) x.g)
  let v1 := f32Fma (groupWord q 12) x.v (f32Mul (groupWord q 84) (f32Mul x.g x.g))
  let d := f32Add (f32Sqrt (f32Mul v1 (groupWord q 92))) (groupWord q 16)
  let u := f32Div (f32Mul m1 (groupWord q 88)) d
  { x with w := f32Fma (f32Neg (groupWord q 4)) u (f32Mul x.w (groupWord q 96)), m := m1, v := v1 }

/-- Momentum and Nesterov momentum (R347). -/
def stepMomentum (nesterov : Bool) (q : List Byte) (x : Element) : Element :=
  let mu := groupWord q 8
  let m1 := f32Fma mu x.m x.g
  let u := if nesterov then f32Fma mu m1 x.g else m1
  { x with w := f32Fma (f32Neg (groupWord q 4)) u (f32Mul x.w (groupWord q 96)), m := m1 }

/-- The registers a microcode routine starts with (R349). -/
def microRegs (q : List Byte) (x : Element) : List W32 :=
  [x.g, x.w, x.m, x.v] ++ ((List.range 8).map fun i => groupWord q (24 + 4 * i)) ++
    [groupWord q 4, groupWord q 8, groupWord q 12, groupWord q 16, groupWord q 20, f32OfNat (sliceNat q 64 8),
      groupWord q 88, groupWord q 92, groupWord q 96] ++ List.replicate 11 0

/-- One microcode operation (R349). -/
def microOp (op : Nat) (a b c : W32) : W32 :=
  match op with
  | 0x01 => f32Add a b
  | 0x02 => f32Sub a b
  | 0x03 => f32Mul a b
  | 0x04 => f32Fma a b c
  | 0x05 => f32Div a b
  | 0x06 => f32Sqrt a
  | 0x07 => f32Recip a
  | 0x08 => f32Max a b
  | 0x09 => f32Min a b
  | 0x0A => f32Abs a
  | 0x0B => f32Neg a
  | _ => if f32Lt 0 a then b else c

/-- The instructions of a slot up to END. -/
def microRun : List Nat → List W32 → List W32
  | [], r => r
  | w :: ws, r =>
    if bits w 0 6 = 0x3F then r
    else microRun ws (r.set (bits w 6 5)
      (microOp (bits w 0 6) (r.getD (bits w 11 5) 0) (r.getD (bits w 16 5) 0) (r.getD (bits w 21 5) 0)))

def stepMicro (code : List Byte) (q : List Byte) (x : Element) : Element :=
  let r := microRun ((List.range 32).map fun i => sliceNat code (4 * i) 4) (microRegs q x)
  { x with w := r.getD 1 0, m := r.getD 2 0, v := r.getD 3 0 }

/-- The routine of a group; `code` is its microcode slot. -/
def stepElement (code q : List Byte) (x : Element) : Element :=
  match groupRoutine q with
  | 0x01 => stepAdamW q x
  | 0x02 => stepMomentum false q x
  | 0x03 => stepMomentum true q x
  | _ => stepMicro code q x

/-- The momentum routines leave the second-moment half alone (R347). -/
def usesSecond (q : List Byte) : Bool := groupRoutine q != 2 && groupRoutine q != 3

/-- The averaged gradient of R346. -/
def averaged (float : Bool) (e : Int) (n x : Nat) : W32 :=
  if float then f32Div (BitVec.ofNat 32 x) (f32OfNat n)
  else
    let v := signed 64 x
    if v = 0 then 0 else f32Round (decide (v < 0)) v.natAbs n (e - 48)

/-! ### Moments (R343) -/

/-- How element `i` rounds under an option bit, on a stream (R351). -/
def roundingOf (on : Bool) (seed stream step i : Nat) : Rounding :=
  if on then .stochastic (randomWord seed stream step i) else .nearestEven

/-- The second moments of a block: its scale and its elements. -/
def encodeSecond (rs : List W32) (modes : List Rounding) : Nat × List Nat :=
  let top := rs.foldl f32Max 0
  if f32Abs top = 0 then (0, rs.map fun _ => 0)
  else
    let x := clampInt (-127) 127 (f32Exponent top)
    ((x + 127).toNat, (rs.zip modes).map fun p => match f32Num p.1 with
      | .fin _ m e => min 255 (roundUnits p.2 m 1 e (x - 7))
      | _ => 0)

/-- The moments of element `l` of block `j` of a page. -/
def pageMoments (page : List Byte) (j l : Nat) : W32 × W32 :=
  let m := scaleNum (sliceNat page (2048 + j) 1) (elemNum 9 (sliceNat page (32 * j + l) 1))
  let r := scaleNum (sliceNat page (2080 + j) 1) (.fin false (sliceNat page (1024 + 32 * j + l) 1) (-7))
  (f32OfNum m, f32OfNum (mulNum r r))

/-- A page with the moments of one block replaced; values beyond the bucket are 0 (R343). -/
def encodeBlock (page : List Byte) (j : Nat) (xs : List Element) (second : Bool) (m1 m2 : Nat → Rounding) : List Byte :=
  let pad := List.replicate (32 - xs.length) (0 : W32)
  let ms := xs.map (·.m) ++ pad
  let sc := deriveScale 9 ms
  let cs := convertBlock 9 true sc ms ((List.range 32).map m1)
  let p := splice (splice page (32 * j) (cs.map fun c => BitVec.ofNat 8 c.bits)) (2048 + j) [BitVec.ofNat 8 sc]
  if !second then p else
  let r := encodeSecond (xs.map (fun x => f32Sqrt x.v) ++ pad) ((List.range 32).map m2)
  splice (splice p (1024 + 32 * j) (r.2.map fun u => BitVec.ofNat 8 u)) (2080 + j) [BitVec.ofNat 8 r.1]

/-! ### One chunk (R345–R348) -/

/-- What an engine works with on a bucket. -/
structure UpdateJob where
  b : BucketJob
  r : UpdateRec
  code : List Byte
  seed : Nat
  deriving DecidableEq, Repr

/-- A moment page; a routine that does not use the second moments does not read their half (R343, R347). -/
def State.readPage (s : State) (a : Nat) (second : Bool) : Marked :=
  if second then s.readMarked a 2112
  else
    let m := s.readMarked a 1024
    let x := m.s.readMarked (a + 2048) 64
    { bytes := m.bytes ++ zeroBytes 1024 ++ x.bytes, bad := m.bad ++ x.bad, s := x.s }

/-- The masters of the bucket so far, each with its poison mark, and the next state. -/
structure UpdateRun where
  ws : List (W32 × Bool) := []
  s : State

/-- One block of 32 elements: its elements after the routine, or what it keeps. -/
inductive BlockEnd where
  | updated (xs : List Element)
  | kept
  | poisoned
  deriving DecidableEq, Repr

/-- The rule of R348 on the results of a block. -/
def blockEnd (q code : List Byte) (xs : List Element) (bad : Bool) : BlockEnd :=
  if bad then .poisoned else
  let ys := xs.map (stepElement code q)
  if ys.any fun y => !(f32IsFinite y.g && f32IsFinite y.m && f32IsFinite y.v && f32IsFinite y.w) ||
    f32Lt y.v 0 then .kept
  else .updated ys

/-- One chunk of a bucket that is updated: page `p` (R345 steps 1 to 6). Elements of the last page beyond the bucket are
encoded as 0 (R343); of a poisoned block nothing is written (R348). -/
def UpdateRun.chunk (a : UpdateRun) (u : UpdateJob) (e : Int) (n p : Nat) : UpdateRun :=
  let q := u.b.group
  let count := min 1024 (u.b.elements - 1024 * p)
  let w := if u.b.float then 4 else 8
  let sa := u.b.area + 1024 * w * p
  let ma := u.r.master + 4096 * p
  let pa := u.r.moments + 2112 * p
  let sums := a.s.readMarked sa (w * count)
  let masters := sums.s.readMarked ma (4 * count)
  let page := masters.s.readPage pa (usesSecond q)
  let elem (i : Nat) : Element :=
    let mv := pageMoments page.bytes (i / 32) (i % 32)
    { g := averaged u.b.float e n (sliceNat sums.bytes (w * i) w)
      w := BitVec.ofNat 32 (sliceNat masters.bytes (4 * i) 4), m := mv.1, v := if usesSecond q then mv.2 else 0 }
  let blocks := List.range (ceilDiv count 32)
  let bad (j : Nat) : Bool :=
    sums.badIn (sa + 32 * w * j) (32 * w) || masters.badIn (ma + 128 * j) 128 || page.badIn (pa + 32 * j) 32 ||
      page.badIn (pa + 2048) 64 || (usesSecond q && page.badIn (pa + 1024 + 32 * j) 32)
  let ends := blocks.map fun j => (j, blockEnd q u.code
    ((List.range (min 32 (count - 32 * j))).map fun l => elem (32 * j + l)) (bad j))
  let pos (j l : Nat) : Nat := u.r.first + 1024 * p + 32 * j + l
  let newPage := ends.foldl (fun pg x => match x.2 with
    | .updated ys => encodeBlock pg x.1 ys (usesSecond q)
        (fun l => roundingOf (bit u.r.options 1) u.seed 0x21000000 u.b.step (pos x.1 l))
        (fun l => roundingOf (bit u.r.options 1) u.seed 0x22000000 u.b.step (pos x.1 l))
    | _ => pg) page.bytes
  let newPage := ((List.range 32).drop blocks.length).foldl (fun pg j =>
    encodeBlock pg j [] (usesSecond q) (fun _ => .nearestEven) (fun _ => .nearestEven)) newPage
  let old (j : Nat) : List W32 := (List.range (min 32 (count - 32 * j))).map fun l => (elem (32 * j + l)).w
  let ws := ends.flatMap fun x => match x.2 with
    | .updated ys => ys.map fun y => (y.w, false)
    | .kept => (old x.1).map fun v => (v, false)
    | .poisoned => (old x.1).map fun v => (v, true)
  let changed := ends.filter fun x => match x.2 with | .updated _ => true | _ => false
  let s := changed.foldl (fun s x => s.writeMarked (ma + 128 * x.1)
    (splice (slice masters.bytes (128 * x.1) 128) 0
      ((slice ws (32 * x.1) 32).flatMap fun v => leBytes 4 v.1.toNat)) fun b => masters.bad.contains b) page.s
  let s := if newPage = page.bytes then s else s.writeMarked pa newPage fun b =>
    page.bad.contains b || (!(usesSecond q) && decide (pa + 1024 ≤ b) && decide (b < pa + 2048))
  let s := ends.foldl (fun s x => match x.2 with
    | .poisoned => s
    | _ => s.zeroSum (sa + 32 * w * x.1) (w * min 32 (count - 32 * x.1))) s
  let s := s.odAdd 32 0x2A01 0x04 (ends.countP fun x => x.2 == .kept)
  let s := s.odAdd 32 0x2A01 0x07 (ends.countP fun x => x.2 == .poisoned)
  let n := ends.foldl (fun n x => match x.2 with | .updated ys => n + ys.length | _ => n) 0
  { ws := a.ws ++ ws, s := s.odAdd 64 0x2A01 0x01 n }
where
  slice {α : Type} (xs : List α) (o k : Nat) : List α := (xs.drop o).take k

/-- The masters of a bucket as they stand (R355, R357). -/
def State.readMasters (s : State) (u : UpdateJob) : UpdateRun :=
  let m := s.readMarked u.r.master (4 * u.b.elements)
  let ws := (List.range u.b.elements).map fun i =>
    (BitVec.ofNat 32 (sliceNat m.bytes (4 * i) 4), m.badIn (u.r.master + 128 * (i / 32)) 128)
  let n := (List.range (ceilDiv u.b.elements 32)).countP fun j => m.badIn (u.r.master + 128 * j) 128
  { ws := ws, s := m.s.odAdd 32 0x2A01 0x07 n }

/-! ### Narrow weights (R350, R351) -/

/-- The tensor scale of a conversion: that of this update, or the one in use (R350, R354; log entry 28). -/
def UpdateRec.scaleFor (r : UpdateRec) (push : Bool) : Nat :=
  if r.history.isEmpty then r.initial
  else if push then (nextScale r.format r.margin r.scale (r.history.take r.entries)).1 else r.scale

/-- The rows of a bucket's stream: element rows, then scale rows (R140, R350). -/
def narrowRows (u : UpdateJob) (scale : Nat) (ws : List (W32 × Bool)) : List (List Byte) :=
  let es := (ws.zipIdx).map fun p =>
    ({ value := if p.1.2 then f32NaN else p.1.1
       mode := roundingOf (bit u.r.options 0) u.seed 0x20000000 u.b.step (u.r.first + p.2) } : OutElem)
  let v := convertVec ⟨0, 0, 0, 0, scale, u.r.format, 0⟩ (bit u.r.options 2) es
  let rows (bs : List Byte) : List (List Byte) :=
    (chunks 512 bs.length bs).map fun c => c ++ zeroBytes (512 - c.length)
  rows v.bytes ++ rows v.scales

/-- The bucket's amax is pushed into its history; the entries not filled are zero (R341, R345, R350). -/
def State.pushAmax (s : State) (a : Nat) (r : UpdateRec) (scale : Nat) (ws : List (W32 × Bool)) : State :=
  let s := if fmtHasTensorScale r.format then s.writeTable (a + 24) [BitVec.ofNat 8 scale] else s
  let amax := ws.foldl (fun x w => if !w.2 && f32IsFinite w.1 then f32Max x (f32Abs w.1) else x) 0
  if amax = 0 then s else
  let h := (amax :: r.history).take r.entries
  let s := s.writeTable (a + 25) [BitVec.ofNat 8 h.length]
  let s := s.writeTable (a + 28) (leBytes 4 amax.toNat)
  s.writeTable (a + 64) ((h.flatMap fun w => leBytes 4 w.toNat) ++ zeroBytes (4 * (32 - h.length)))

/-! ### The return (R352, R354) -/

/-- The rows of a bucket as they are sent. -/
def returnRows (u : UpdateJob) (scale : Nat) (ws : List (W32 × Bool)) : List ReturnRow :=
  let rows := narrowRows u scale ws
  let poison := ws.any (·.2)
  rows.zipIdx.map fun p =>
    { job := u.b.job, epoch := u.b.epoch, bucket := u.b.bucket, step := u.b.step % 2 ^ 16, ordinal := p.2
      scale := if fmtHasTensorScale u.r.format then scale else 0
      last := p.2 + 1 == rows.length, poison := poison, format := u.r.format, data := p.1 }

/-- One row as a WRET over a link (R374). -/
def State.sendReturnRow (s : State) (k : Fin 24) (who : Requester) (dev frame : Nat) (x : ReturnRow) : State :=
  s.requestOrWait k who
    { kind := 2, dst := dev, src := 0, dfr := frame, flags := b2n x.last + 2 * b2n x.poison
      a := bucketTag x.job x.epoch x.bucket + x.ordinal * 2 ^ 28 + x.scale * 2 ^ 40, b := x.step } x.data

/-- The rows of a bucket go to one destination (R352, R354, R379). -/
def State.sendReturn (s : State) (b : BucketJob) (rows : List ReturnRow) (dest : Nat) : State :=
  let dev := contribDevice dest
  let frame := contribFrame dest
  let s := s.count64 0x2A01 0x03
  if dev = s.device then
    let r := rows.foldl (fun (a : Bool × State) x =>
      let q := a.2.landReturn s.device (frameIx frame) x
      (a.1 || q.1 == 1, q.2)) (false, s)
    if r.1 then { r.2.count32 0x2A01 0x08 with returns := r.2.returns ++ [⟨b, dev, frame, 0, true⟩] } else r.2
  else match s.egress dev with
    | none => { s with returns := s.returns ++ [⟨b, dev, frame, 0, true⟩] }
    | some k =>
      let s := { s with returns := s.returns ++ [⟨b, dev, frame, rows.length, false⟩] }
      rows.foldl (fun s x => s.sendReturnRow k (.weightReturn b.job b.bucket dev frame) dev frame x) s

/-- The destinations of a bucket: its contributor group, the owner's own frames included (R352, R417). -/
def State.returnDests (s : State) (b : BucketJob) : List Nat :=
  let j := jobIx b.job
  match s.epochSlot j b.epoch with
  | none => []
  | some i => match s.bucketAt j i b.bucket with
    | (none, _) => []
    | (some r, s) => ((s.groupList j i r.group).1.map (· % 2 ^ 15)).filter fun c => match b.only with
      | some d => contribDevice c == d
      | none => true

/-! ### One bucket (R341, R345, R355) -/

/-- The context of the bucket becomes FREE (R321). -/
def State.freeSum (s : State) (b : BucketJob) : State :=
  match b.sum with
  | some (c, _, _) => s.setCtx c none
  | none => s

/-- A broken record: the sum is zeroed and nothing is returned (R341, R342). -/
def State.brokenBucket (s : State) (b : BucketJob) : State :=
  let s := if b.sum.isSome then s.zeroSum b.area ((if b.float then 4 else 8) * b.elements) else s
  (s.count32 0x2A01 0x06).freeSum b

/-- The masters of a bucket after its update, or as they stand: a sum without a contribution updates nothing (R328). -/
def State.runBucket (s : State) (u : UpdateJob) : UpdateRun :=
  match u.b.sum with
  | none => s.readMasters u
  | some (_, e, n) =>
    if n = 0 then (s.zeroSum u.b.area ((if u.b.float then 4 else 8) * u.b.elements)).readMasters u
    else if groupFrozen u.b.group then
      (s.zeroSum u.b.area ((if u.b.float then 4 else 8) * u.b.elements)).count32 0x2A01 0x05 |>.readMasters u
    else
      let a := (List.range (ceilDiv u.b.elements 1024)).foldl (fun a p => a.chunk u e n p) ({ s := s } : UpdateRun)
      { a with s := a.s.count64 0x2A01 0x02 }

/-- What the engine reads for a bucket, if its record and its group hold (R341, R342). -/
def State.updateJob (s : State) (b : BucketJob) : Option (UpdateJob × Nat) × State :=
  let j := jobIx b.job
  match s.epochSlot j b.epoch with
  | none => (none, s)
  | some i =>
    let a := s.updateAddr j i b.bucket
    let r := s.readTable a 192
    match r.1 with
    | none => (none, r.2)
    | some bytes =>
      let u := updateRec bytes
      let b := if b.group.isEmpty then { b with group := (r.2.groupRecord j u.group).1 } else b
      if u.ok b.area b.elements && groupRuns b.group then
        (some (⟨b, u, s.tableBytes 0x2A02 (128 * (groupRoutine b.group - 0x10)) 128, s.odGet (updateIndex j) 0x07 0⟩,
          a),
          r.2)
      else (none, r.2)

/-- The sends of a weight resend that waited for the end of the updates (R417): buckets to convert without a push. -/
def State.resendTo (s : State) (j : Fin 16) (dev : Nat) : State :=
  let r := s.roll j
  match s.epochSlot j r.sealedEpoch, r.sealedSteps.head? with
  | some i, some step =>
    (List.range (s.bucketCount j i)).foldl (fun s b =>
      match s.bucketAt j i b with
      | (none, s) => s
      | (some rec, s) =>
        if s.bucketOk rec && (groupDevices (s.groupList j i rec.group).1).contains dev then
          { s with buckets := s.buckets ++ [{ job := j.val, epoch := r.sealedEpoch, bucket := b, step := step
                                              area := rec.sum, elements := rec.elements, float := rec.mode == 2
                                              push := false, only := some dev }] }
        else s) s
  | _, _ => s

/-- Resends that waited are taken up once the job's updates have ended (R417). -/
def State.checkResends (s : State) (j : Fin 16) : State :=
  if s.updatesOutstanding j.val then s
  else
    let ds := (s.roll j).resends
    ds.foldl (fun s d => s.resendTo j d) (s.modRoll j fun r => { r with resends := [] })

/-- An engine takes a bucket through (R345, R350, R352, R355). -/
def State.updateBucket (s : State) (b : BucketJob) : State :=
  match s.updateJob b with
  | (none, s) => if b.push then s.brokenBucket b else s.count32 0x2A01 0x06
  | (some (u, a), s) =>
    let x := s.runBucket u
    let scale := u.r.scaleFor b.push
    let rows := returnRows u scale x.ws
    let dests := x.s.returnDests b
    let s := dests.foldl (fun s d => s.sendReturn b rows d) x.s
    (if b.push then s.pushAmax a u.r scale x.ws else s).freeSum b

/-- UPDATE_BUCKET: an engine takes the next bucket of its stack (R340, R345). -/
def execUpdateBucket (e : Fin 4) (s : State) : Result :=
  match s.buckets.find? fun b => b.area / stackSize == e.val with
  | none => .next s
  | some b =>
    .next (({ s with buckets := s.buckets.erase b }.updateBucket b).checkResends (jobIx b.job))

/-- A held bucket is converted again and sent to the destination that held it (R354). -/
def State.sendAgain (s : State) (r : ReturnOut) : State :=
  match s.updateJob { r.bucket with sum := none } with
  | (none, s) => s
  | (some (u, _), s) =>
    let x := s.readMasters u
    x.s.sendReturn r.bucket (returnRows u (u.r.scaleFor false) x.ws) (r.device + r.frame * 2 ^ 12)

/-- WEIGHT_RETURN_RESEND: a bucket set aside is sent again once the retry interval has passed (R354, R379). -/
def execWeightReturnResend (e : Fin 4) (s : State) : Result :=
  match s.returns.find? fun r => r.held && r.left == 0 && r.bucket.area / stackSize == e.val with
  | none => .next s
  | some r => .next (({ s with returns := s.returns.erase r }.sendAgain r).checkResends (jobIx r.bucket.job))

/-- The answer to a weight-return row (R354, R375, R379). -/
def State.returnAnswered (s : State) (job bucket dev frame status : Nat) : State :=
  match s.returns.find? fun r => r.bucket.job == job && r.bucket.bucket == bucket && r.device == dev &&
      r.frame == frame && r.left != 0 with
  | none => s
  | some r =>
    let again := [1, 2, 9].contains status
    let s := if status == 1 && !r.held then s.count32 0x2A01 0x08 else s
    let r' := { r with left := r.left - 1, held := r.held || again }
    let done := r'.left == 0 && !r'.held
    let s := { s with returns := s.returns.flatMap fun q => if q = r then (if done then [] else [r']) else [q] }
    if done then s.checkResends (jobIx job) else s

/-- REGENERATE_BUCKET: the host has one bucket converted and returned without a push (R357, R361). -/
def execRegenerateBucket (via : Path) (j : Fin 16) (bucket : W16) (s : State) : Result :=
  s.command via (updateIndex j) 0x08 bucket.toNat fun s =>
    if s.updatesOutstanding j.val then (abortState, s) else
    let s := s.odSet (updateIndex j) 0x08 bucket.toNat
    let r := s.roll j
    match s.epochSlot j r.sealedEpoch with
    | none => (0, s)
    | some i => match s.bucketAt j i bucket.toNat with
      | (none, s) => (0, s)
      | (some rec, s) => (0, { s with buckets := s.buckets ++
          [{ job := j.val, epoch := r.sealedEpoch, bucket := bucket.toNat, step := r.sealedSteps.headD 0
             area := rec.sum, elements := rec.elements, float := rec.mode == 2, push := false }] })

end Sys2Proof.Machine
end

