-- ==== Sys2Proof/Machine/Moves.lean ====
section
/-! DEFINITION. Moves: the move lists of a re-shard (R402, R404). -/

namespace Sys2Proof.Machine

/-- The index of a job's training entries (R404). -/
def moveIndex (j : Fin 16) : Nat := 0x2C20 + j.val

/-- A record of a move list (R402). -/
structure MoveRec where
  source : Nat
  device : Nat
  frame : Nat
  zero : Bool
  length : Nat
  dest : Nat
  deriving DecidableEq, Repr

def moveRec (b : List Byte) : MoveRec :=
  { source := sliceNat b 0 6, device := sliceNat b 6 2 % 2 ^ 12, frame := sliceNat b 8 1 % 8,
    zero := bit (sliceNat b 9 1) 0
    length := sliceNat b 12 4, dest := sliceNat b 16 6 }

/-- The engine that carries a record out: that of the source's stack; engine 0 for a zero fill. -/
def MoveRec.engine (m : MoveRec) : Nat := if m.zero ∨ 4 * stackSize ≤ m.source then 0 else m.source / stackSize

def State.moveCount (s : State) (j : Fin 16) : Nat := s.odGet (moveIndex j) 0x04 0
def State.moveState (s : State) (j : Fin 16) : Nat := s.odGet (moveIndex j) 0x06 0

/-- Record `i` of the list; none where it cannot be read. -/
def State.moveAt (s : State) (j : Fin 16) (i : Nat) : Option MoveRec × State :=
  let r := s.readTable (s.odGet (moveIndex j) 0x03 0 + 32 * i) 32
  (r.1.map moveRec, r.2)

/-- The engine of record `i`: engine 0 takes one that cannot be read. -/
def State.engineOf (s : State) (j : Fin 16) (i : Nat) : Nat :=
  match (s.moveAt j i).1 with
  | some m => m.engine
  | none => 0

def State.moveEngine (s : State) (j : Fin 16) (e : Nat) : MoveEngine := sget {} s.moves (4 * j.val + e)
def State.modMove (s : State) (j : Fin 16) (e : Nat) (f : MoveEngine → MoveEngine) : State :=
  { s with moves := smod {} s.moves (4 * j.val + e) f }

/-- The engine's first record from `next` on. -/
def State.nextMove (s : State) (j : Fin 16) (e : Nat) : Option Nat :=
  ((List.range (s.moveCount j)).drop (s.moveEngine j e).next).find? fun i => s.engineOf j i == e

/-- A record has failed with a status of R375: its engine stops (R402). -/
def State.moveFailed (s : State) (j : Fin 16) (e i status : Nat) : State :=
  (s.modMove j e fun m => { m with failed := true }).odSet (moveIndex j) 0x08 (i + status * 2 ^ 32)

/-- A record is complete. -/
def State.moveDone (s : State) (j : Fin 16) : State := s.count32 (moveIndex j) 0x07

/-- The pieces of a range at the destination's 4 KiB boundaries: offset and length. -/
def pieces4k (dest n : Nat) : (fuel : Nat) → (off : Nat) → List (Nat × Nat)
  | 0, _ => []
  | fuel + 1, off =>
    if n ≤ off then [] else
    let k := min (n - off) (4096 - (dest + off) % 4096)
    (off, k) :: pieces4k dest n fuel (off + k)

/-- The record keeps the rules of R402: aligned addresses, a source in this device's stacks, a length in its range. -/
def MoveRec.ok (m : MoveRec) : Bool :=
  (m.zero || (m.source % 64 == 0 && decide (m.source + m.length ≤ 4 * stackSize))) && m.dest % 64 == 0 &&
    m.length % 64 == 0 && decide (64 ≤ m.length) && decide (m.length ≤ 16777216)

/-- The bytes a record moves: the status of their read, 0x5 for a record that breaks a rule, and the bytes. -/
def State.moveSource (s : State) (m : MoveRec) : Nat × List Byte × State :=
  if !m.ok then (5, [], s) else if m.zero then (0, zeroBytes m.length, s) else s.readChecked none m.source m.length

/-- An engine carries out record `i` (R402). -/
def State.runMove (s : State) (j : Fin 16) (e i : Nat) : State :=
  let s := s.modMove j e fun m => { m with next := i + 1 }
  match s.moveAt j i with
  | (none, s) => s.moveFailed j e i 6
  | (some m, s) =>
    let r := s.moveSource m
    if r.1 ≠ 0 then r.2.2.moveFailed j e i r.1
    else if m.device = s.device then
      let w := r.2.2.writeChecked none m.dest r.2.1 false
      if w.1 = 0 then w.2.moveDone j else w.2.moveFailed j e i w.1
    else match r.2.2.egress m.device with
      | none => r.2.2.moveFailed j e i 2
      | some k =>
        let ps := pieces4k m.dest m.length (m.length / 64 + 1) 0
        let s := r.2.2.modMove j e fun x => { x with acks := ps.length }
        ps.foldl (fun s p => s.requestOrWait k (.move j.val e i)
          { kind := 1, dst := m.device, src := 0, dfr := m.frame, a := m.dest + p.1 } (slice r.2.1 p.1 p.2)) s

/-- An engine goes on with its records while none of its writes is outstanding; `fuel` bounds their number. -/
def State.pumpMoves (s : State) (j : Fin 16) (e : Nat) : (fuel : Nat) → State
  | 0 => s
  | fuel + 1 =>
    let m := s.moveEngine j e
    if s.moveState j ≠ 1 ∨ m.failed ∨ m.acks ≠ 0 then s else
    match s.nextMove j e with
    | none => s
    | some i => (s.runMove j e i).pumpMoves j e fuel

/-- The answer to one write of a remote record (R375, R402). -/
def State.moveAnswered (s : State) (j : Fin 16) (e i status : Nat) : State :=
  let m := s.moveEngine j e
  if m.acks = 0 then s else
  let s := s.modMove j e fun m => { m with acks := m.acks - 1 }
  let s := if status ≠ 0 && !m.failed then s.moveFailed j e i status else s
  if m.acks ≠ 1 then s
  else if (s.moveEngine j e).failed then s
  else (s.moveDone j).pumpMoves j e (s.moveCount j)

/-- An engine has nothing more to do. -/
def State.moveEnded (s : State) (j : Fin 16) (e : Nat) : Bool :=
  let m := s.moveEngine j e
  m.acks == 0 && (m.failed || (s.nextMove j e).isNone)

/-- A request of a job's moves. -/
def Requester.isMove (j : Nat) : Requester → Bool
  | .move i _ _ => i == j
  | _ => false

/-- MOVE_START: the job's move list starts, unless the job's updates are not held or are outstanding, or a list runs
(R402, R404). -/
def execMoveStart (via : Path) (j : Fin 16) (s : State) : Result :=
  s.command via (moveIndex j) 0x05 1 fun s =>
    if s.moveState j = 1 then (abortState, s)
    else if s.odGet (moveIndex j) 0x01 0 ≠ 1 ∨ s.updatesOutstanding j.val then
      (abortState, s.odSet (moveIndex j) 0x06 5)
    else
      let s := ((s.odSet (moveIndex j) 0x06 1).odSet (moveIndex j) 0x07 0).odSet (moveIndex j) 0x08 (2 ^ 64 - 1)
      let s := (List.range 4).foldl (fun s e => s.modMove j e fun _ => {}) s
      (0, (List.range 4).foldl (fun s e => s.pumpMoves j e (s.moveCount j)) s)

/-- MOVE_ABORT (R404). -/
def execMoveAbort (via : Path) (j : Fin 16) (s : State) : Result :=
  s.command via (moveIndex j) 0x05 2 fun s =>
    if s.moveState j ≠ 1 then (0, s)
    else (0, (List.range 4).foldl (fun s e => s.modMove j e fun m => { m with acks := 0 })
      ((s.abandon (Requester.isMove j.val)).odSet (moveIndex j) 0x06 4))

/-- MOVE_LIST_DONE: every engine has finished its records (R402). -/
def execMoveListDone (j : Fin 16) (s : State) : Result :=
  if s.moveState j ≠ 1 || (List.range 4).any fun e => !(s.moveEnded j e) then .next s
  else .next (s.odSet (moveIndex j) 0x06 (if (List.range 4).any fun e => (s.moveEngine j e).failed then 3 else 2))

end Sys2Proof.Machine
end

