-- ==== Sys2Proof/Machine/Roll.lean ====
section
/-! DEFINITION. Roll: the roll call: answers, memberships, reports, seals, late withdrawal, keeper and standby
(R325–R334, R394, R395, R416, R417, R421). -/

namespace Sys2Proof.Machine

/-! ### Answers (R213, R325, R416) -/

/-- The device is on the roll list and not marked owner-only. -/
def State.answers (s : State) (j : Fin 16) : Bool := (s.rollList j).contains (s.device, false)

/-- A frame once its device has answered for a step of a job: nothing is held of it or of an older one. -/
def Frame.answered (y : Frame) (j step : Nat) : Frame :=
  let answered (q : Nat) : Bool := !(newerStep 24 q step)
  { y with
    scans := if y.latched.any (fun l => l.job == j) then y.scans.filter fun p => !(answered p.1) else y.scans
    downs := y.downs.filter fun p => p.2 != j || !(answered p.1) }

/-- An answer for a step goes to the keeper and the standby (R325). -/
def State.sendAnswer (s : State) (j : Fin 16) (step : Nat) (ready : Bool) : State :=
  let s := (s.modRoll j fun r => { r with answered := some step }).odSet (jobIndex j) 0x19 0
  let s := allFrames.foldl (fun s f => s.modFrame f fun y => y.answered j.val step) s
  s.sendKeepers j svcAnswer (leBytes 3 step ++ leBytes 1 (b2n ready))

/-- The frame has released a scan-close of the step or has gone down in it (R325). -/
def Frame.cameTo (y : Frame) (j step : Nat) : Bool := y.scans.any (fun p => p.1 == step) || y.downs.contains (step, j)

/-- The device may answer for the step: every frame of the job has come to it (R325). -/
def State.mayAnswer (s : State) (j : Fin 16) (step : Nat) : Bool :=
  s.answers j && (s.roll j).answered != some (step % 2 ^ 24) && !((s.roll j).sealedSteps.contains (step % 2 ^ 24)) &&
    (s.framesOfJob j).all fun f => (s.frame f).cameTo j.val step

/-- The steps to which frames of the job have come. -/
def State.rollSteps (s : State) (j : Fin 16) : List Nat :=
  allFrames.flatMap fun f =>
    (if (s.framesOfJob j).contains f then (s.frame f).scans.map (·.1) else []) ++
      (s.frame f).downs.filterMap fun p => if p.2 = j.val then some p.1 else none

/-- The step the device answers for: the oldest it may answer for. -/
def State.rollStep (s : State) (j : Fin 16) : Option Nat :=
  ((s.rollSteps j).filter (s.mayAnswer j ·)).min?

/-- The answer is WITHDRAW: the OR of the scan results of the job's frames shows a non-finite gradient, a frame of the
job went down in the step, or the host has asked for it (R213, R325, R416). -/
def State.withdraws (s : State) (j : Fin 16) (step : Nat) : Bool :=
  s.odGet (jobIndex j) 0x19 0 == 1 || (s.framesOfJob j).any (fun f => (s.frame f).scans.contains (step, true)) ||
    allFrames.any fun f => (s.frame f).downs.contains (step, j.val)

/-- ROLL_CALL_ANSWER: the device answers once every frame of the job has come to the step (R325, R416). -/
def execRollCallAnswer (j : Fin 16) (s : State) : Result :=
  match s.rollStep j with
  | none => .next s
  | some step => .next (s.sendAnswer j (step % 2 ^ 24) !(s.withdraws j step))

/-! ### Decisions (R326, R329, R332, R333, R394) -/

/-- The bitmap of a membership over 4,096 device numbers (R326). -/
def memberBitmap (ms : List Nat) : List Byte :=
  leBytes 512 (ms.foldl (fun x d => if bit x d then x else x + 2 ^ d) 0)

/-- A decision to one device. -/
def State.sendDecision (s : State) (j : Fin 16) (d : Decision) (dev : Nat) : State :=
  match d with
  | .membership step rev replay ms => s.sendRoll j dev svcMembership
      (leBytes 3 step ++ leBytes 1 rev ++ leBytes 1 (b2n replay) ++ leBytes 2 ms.length ++ memberBitmap ms)
  | .seal step => s.sendRoll j dev svcSeal (leBytes 3 step)

/-- A decision to every device of the list (R326, R328). -/
def State.broadcast (s : State) (j : Fin 16) (d : Decision) : State :=
  (s.rollList j).foldl (fun s p => s.sendDecision j d p.1) s

/-- A decision of the keeper: to the standby first, and broadcast after its acknowledgement; at once where there is no
standby or its lease has expired (R333). -/
def State.propose (s : State) (j : Fin 16) (d : Decision) : State :=
  let b := s.standbyOf j
  if b = 0xFFFF ∨ b = s.device ∨ (s.roll j).standbyLost then s.broadcast j d
  else
    let first := (s.roll j).kPending.isEmpty
    let s := s.modRoll j fun r => { r with kPending := r.kPending ++ [d] }
    if first then s.sendDecision j d b else s

/-- The standby has acknowledged the first pending decision (R333). -/
def State.decisionAcked (s : State) (j : Fin 16) : State :=
  match (s.roll j).kPending with
  | [] => s
  | d :: rest =>
    let s := (s.modRoll j fun r => { r with kPending := rest }).broadcast j d
    match rest with
    | [] => s
    | e :: _ => s.sendDecision j e (s.standbyOf j)

/-- The replica of a device in the table of OD 0x2C3j. -/
def State.replicaOf (s : State) (j : Fin 16) (d : Nat) : Nat := leNat (s.tableBytes (0x2C30 + j.val) (2 * d) 2)

/-- Replica coupling: a device leaves whose replica holds a device, not owner-only, that is no member (R394). -/
def State.couple (s : State) (j : Fin 16) (ms : List Nat) : List Nat :=
  if s.odGet (0x2C20 + j.val) 0x02 0 = 0 then ms else
  let lost := ((s.rollList j).filter fun p => !p.2 && !(ms.contains p.1)).map fun p => s.replicaOf j p.1
  ms.filter fun d => s.replicaOf j d == 0xFFFF || !(lost.contains (s.replicaOf j d))

/-- The keeper issues a revision of its step (R326, R329, R331, R332). -/
def State.issueRevision (s : State) (j : Fin 16) (step rev : Nat) (replay : Bool) (ms : List Nat) : State :=
  let late := decide (15 ≤ rev)
  let rev := min rev 15
  let ms := if late then [] else s.couple j ms
  let replay := replay || late
  let s := s.modRoll j fun r => { r with
    kStep := step, kFixed := true, kRevision := rev, kMembers := ms, kSent := [], kClosed := [], kSealed := false }
  (s.logEvent 0x0701 (j.val + rev * 2 ^ 4 + b2n replay * 2 ^ 8)).propose j (.membership step rev replay ms)

/-- The device is the keeper it holds. -/
def State.isKeeper (s : State) (j : Fin 16) : Bool := s.keeperOf j == s.device
def State.isStandby (s : State) (j : Fin 16) : Bool := s.standbyOf j == s.device

/-- No step is open at the keeper: the next one's revision 0 may be sent (log entry 106). -/
def Roll.mayIssue (r : Roll) : Bool := !r.kFixed || r.kSealed

/-- The answers held for a step. -/
def Roll.answersFor (r : Roll) (step : Nat) : List (Nat × Nat × Bool) := r.answers.filter fun a => a.2.1 == step

/-- The oldest revision 0 that is fixed is sent once the former step is sealed (log entry 106). -/
def State.issueFixed (s : State) (j : Fin 16) : State :=
  match (s.roll j).fixed with
  | [] => s
  | (step, ms) :: rest =>
    if (s.roll j).mayIssue then (s.modRoll j fun r => { r with fixed := rest }).issueRevision j step 0 false ms else s

/-- Revision 0 of a step is fixed with the devices that answered READY (R326). -/
def State.fixRoll (s : State) (j : Fin 16) (step : Nat) : State :=
  let ms := ((s.roll j).answersFor step).filterMap fun a => if a.2.2 then some a.1 else none
  (s.modRoll j fun r => { r with
    answers := r.answers.filter fun a => a.2.1 != step, fixed := r.fixed ++ [(step, ms)] }).issueFixed j

/-- Revision 0 is fixed once every device not owner-only has answered (R326). -/
def State.tryFix (s : State) (j : Fin 16) (step : Nat) : State :=
  let r := s.roll j
  let devs := ((s.rollList j).filter fun p => !p.2).map (·.1)
  if s.isKeeper j && !(r.answersFor step).isEmpty &&
      devs.all fun d => (r.answersFor step).any fun a => a.1 == d then s.fixRoll j step
  else s

/-- A late answer: for a step whose revision 0 is fixed, or one older than the last sent (R326). -/
def Roll.lateAnswer (r : Roll) (step : Nat) : Bool :=
  (r.kFixed && !(newerStep 24 step r.kStep)) || r.fixed.any fun p => p.1 == step

/-- ROLL_ANSWER_RECEIVE (R326). -/
def execRollAnswerReceive (j : Fin 16) (dev step : Nat) (ready : Bool) (s : State) : Result :=
  let r := s.roll j
  if !(s.isKeeper j || s.isStandby j) || !((s.rollList j).contains (dev, false)) then .next s
  else if s.isKeeper j && r.lateAnswer step then .next (s.count32 0x2901 0x10)
  else if (r.answersFor step).any fun a => a.1 == dev then .next s
  else .next ((s.modRoll j fun r => { r with answers := r.answers ++ [(dev, step, ready)] }).tryFix j step)

/-- ROLL_DEADLINE_EXPIRY: the deadline counted from a step's first answer has passed (R326). -/
def execRollDeadlineExpiry (j : Fin 16) (s : State) : Result :=
  match (s.roll j).answers with
  | [] => .next s
  | a :: _ => if s.isKeeper j then .next (s.fixRoll j a.2.1) else .next s

/-! ### Memberships (R327, R329, R331, R334) -/

/-- A membership is of a higher revision than the one held (R327). -/
def Roll.higher (r : Roll) (m : Membership) : Bool :=
  !r.held || (if m.step = r.step then !r.isSealed && decide (r.revision < m.revision)
    else r.isSealed || newerStep 24 m.step r.step)

/-- n_exp of an OPEN or RETRACTING context under a revision without replay: RETRACTING where it excludes counted
contributors in integer mode, else unchanged and CLOSING where n has come to n_exp (R321, R327). -/
def State.recount (s : State) (c : Nat) (ms : List Nat) : State :=
  match s.ctxAt c with
  | none => s
  | some x =>
    if x.st ≠ .opened ∧ x.st ≠ .retracting then s else
    let out := x.bits.filter fun i =>
      !(ms.contains (contribDevice (x.group.getD i 0))) && !(x.excluded.contains i)
    let y := { x with nExp := expectedCount x.group ms }
    if !out.isEmpty && !x.float then
      s.setCtx c (some { y with st := .retracting, excluded := x.excluded ++ out })
    else if decide (y.nExp < x.nExp) && y.n == y.nExp then (s.setCtx c (some y)).toClosing c y
    else (s.setCtx c (some y)).settleCtx c

/-- A member's records under a revision without replay: it goes on, or retracts what was accepted (R331, R395). -/
def SendRec.revise (q : SendRec) (member : Bool) : SendRec :=
  if member then (if q.st = .stopped then { q with st := .setAside } else q)
  else if [SendState.accepted, .awaitData].contains q.st
    then { q with st := .retracting, accepted := 0, refused := false }
  else q

/-- A device accepts a membership (R327). -/
def State.acceptMembership (s : State) (j : Fin 16) (m : Membership) : State :=
  let r := s.roll j
  let fresh := !r.held || m.step != r.step
  let member := m.members.contains s.device
  let wasMember := r.member
  let s := s.modRoll j fun r => { r with
    step := m.step, revision := m.revision, held := true, replay := m.replay, members := m.members, member := member
    isSealed := false, sent := false, closedSent := false, stopped := false
    sendFrom := if fresh || m.replay then m.revision else r.sendFrom
    sendEpoch := if fresh then s.sendEpoch j else r.sendEpoch }
  let s := if fresh || m.replay then
      s.modRoll j fun r => { r with records := [], lateFault := none, lateHard := false, withdrawn := false }
    else if wasMember then
      s.modRoll j fun r => { r with records := r.records.map fun p => (p.1, p.2.revise member) }
    else s
  let mine := s.ctxsOf j fun x => x.step == m.step
  let s := if m.replay then mine.foldl State.discardCtx s
    else mine.foldl (fun s c =>
      (match s.ctxAt c with
        | some x => s.setCtx c (some { x with revision := m.revision })
        | none => s).recount c m.members) s
  (s.checkSent j).checkClosed j

/-- The standby records a decision and acknowledges it (R333). -/
def State.recordDecision (s : State) (j : Fin 16) (d : Decision) : State :=
  if !(s.isStandby j) then s else
  let s := s.modRoll j fun r => match d with
    | .membership step rev _ ms => { r with
        kStep := step, kFixed := true, kRevision := rev, kMembers := ms, kSent := [], kClosed := [], kSealed := false
        answers := r.answers.filter fun a => a.2.1 != step }
    | .seal step => if r.kStep = step then { r with kSealed := true } else r
  s.sendRoll j (s.keeperOf j) svcAck []

/-- A decision from a device not held as keeper is refused (R327, R333). -/
def State.refuseDecision (s : State) : State := s.count32 0x2901 0x11

/-- MEMBERSHIP_RECEIVE (R327, R331). -/
def execMembershipReceive (j : Fin 16) (m : Membership) (s : State) : Result :=
  if m.sender ≠ s.keeperOf j then .next s.refuseDecision
  else if !((s.roll j).higher m) then .next s
  else .next ((s.acceptMembership j m).recordDecision j (.membership m.step m.revision m.replay m.members))

/-! ### Reports and seals (R328) -/

/-- The keeper holds what the seal needs: SENT from every member, CLOSED from every device of the list (R328, R332). -/
def State.mayDecideSeal (s : State) (j : Fin 16) : Bool :=
  let r := s.roll j
  r.kFixed && !r.kSealed && r.kMembers.all (r.kSent.contains ·) && (s.rollList j).all fun p => r.kClosed.contains p.1

/-- The keeper seals the step, and fixes the next where its answers are in. -/
def State.trySeal (s : State) (j : Fin 16) : State :=
  if !(s.mayDecideSeal j) then s else
  ((s.modRoll j fun r => { r with kSealed := true }).propose j (.seal (s.roll j).kStep)).issueFixed j

/-- REPORT_RECEIVE: SENT or CLOSED of the keeper's present revision (R327, R328). -/
def execReportReceive (j : Fin 16) (dev step rev : Nat) (sent : Bool) (s : State) : Result :=
  let r := s.roll j
  if !(s.isKeeper j) || !r.kFixed || r.kSealed || step != r.kStep || rev != r.kRevision then .next s
  else .next ((s.modRoll j fun r =>
    if sent then { r with kSent := dev :: r.kSent.erase dev }
      else { r with kClosed := dev :: r.kClosed.erase dev }).trySeal j)

/-- The closed contexts of the step in the order of their closes (R328). -/
def insertClosed (p : Nat × TallyCtx) : List (Nat × TallyCtx) → List (Nat × TallyCtx)
  | [] => [p]
  | q :: qs => if p.2.order ≤ q.2.order then p :: q :: qs else q :: insertClosed p qs

def State.closedCtxs (s : State) (j : Fin 16) : List (Nat × TallyCtx) :=
  let r := s.roll j
  (s.contexts.filterMap fun q => match q.2 with
    | some x => if x.job = j.val ∧ x.st = .closed ∧ x.discard = false ∧ x.step = r.step then some (q.1, x) else none
    | none => none).foldr insertClosed []

/-- The group record a bucket's update takes, as read at the seal (R342). -/
def State.groupFor (s : State) (j : Fin 16) (epoch bucket : Nat) : List Byte :=
  match s.epochSlot j epoch with
  | none => zeroBytes 128
  | some i => match (s.readTable (s.updateAddr j i bucket) 192).1 with
    | some b => (s.groupRecord j (updateRec b).group).1
    | none => zeroBytes 128

/-- The buckets of the step that had no member contributor (R328, R355). -/
def State.idleBuckets (s : State) (j : Fin 16) : List BucketJob :=
  let r := s.roll j
  match s.epochSlot j r.sendEpoch with
  | none => []
  | some i => (List.range (s.bucketCount j i)).filterMap fun b =>
    match s.ctxOf j.val r.sendEpoch b, s.bucketAt j i b with
    | none, (some rec, s) =>
      if s.bucketOk rec && expectedCount (s.groupList j i rec.group).1 r.members == 0 then
        some { job := j.val, epoch := r.sendEpoch, bucket := b, step := r.step, area := rec.sum,
               elements := rec.elements
               float := rec.mode == 2, group := s.groupFor j r.sendEpoch b }
      else none
    | _, _ => none

/-- A sparse record writes its new carry (R316, R328). -/
def State.writeCarry (s : State) (j : Fin 16) (n : Nat) : State :=
  let q := (s.roll j).record n
  match s.sendAt j n with
  | (some x, s) =>
    if !x.sparse || q.st != .accepted then s else
    let c := s.contribution x
    if c.1.late.isSome then c.2 else
    let sent := c.1.items.map (·.1)
    c.2.writeTable x.carry ((c.1.values.zipIdx).flatMap fun p =>
      leBytes 4 (if sent.contains p.2 then carryLeft x.float q.e p.1 else p.1).toNat)
  | (none, s) => s

/-- No frame of the job runs on the device (R416). -/
def State.noneRunning (s : State) (j : Fin 16) : Bool := !((s.framesOfJob j).any fun f => (s.frame f).st == .running)

/-- A snapshot that has failed or is skipped, with its reason (R421, R427, R434). -/
def State.snapFailed (s : State) (j : Fin 16) (reason : Nat) : State :=
  let i := 0x2D20 + j.val
  let x := putBits (putBit (s.odGet i 0x09 0) 5 true) 8 4 reason
  ((s.odSet i 0x09 x).count32 i 0x0C).logEvent 0x0801 (j.val + reason * 2 ^ 4)

/-- The whole step number whose low 24 bits are `q`, at most the job's current step (R163, R422). -/
def State.wholeStep (s : State) (j : Fin 16) (q : Nat) : Nat :=
  match s.framesOfJob j with
  | [] => q
  | f :: _ => (s.frame f).step - ((s.frame f).step + 2 ^ 24 - q % 2 ^ 24) % 2 ^ 24

/-- A snapshot falls due with the seal of a step: by its interval, or by the take command; it is skipped where the
previous one has not ended (R421). -/
def State.snapshotDue (s : State) (j : Fin 16) (step : Nat) : State :=
  let n := s.odGet (0x2D20 + j.val) 0x01 0
  let p := sget {} s.snaps j.val
  let whole := s.wholeStep j step
  if p.take || (n != 0 && whole != 0 && whole % n == 0) then
    let s := { s with snaps := sput {} s.snaps j.val { p with take := false } }
    if p.due.isSome || p.hold then s.snapFailed j 6
    else { s with snaps := smod {} s.snaps j.val fun p => { p with due := some step } }
  else s

/-- A device accepts the seal of its step (R316, R328, R342, R344, R416, R421). -/
def State.acceptSeal (s : State) (j : Fin 16) : State :=
  let r := s.roll j
  let s := if r.member then (List.range (s.sendCount j (s.sendSlot j))).foldl (fun s n => s.writeCarry j n) s else s
  let s := if r.members.isEmpty then s else s.sealGroups j r.step
  let closed := (s.closedCtxs j).map fun p =>
    ({ job := j.val, epoch := p.2.epoch, bucket := p.2.bucket, step := r.step, area := p.2.sum, elements := p.2.elements
       sum := some (p.1, p.2.e, p.2.n), float := p.2.float, group := s.groupFor j p.2.epoch p.2.bucket } : BucketJob)
  let s := { s with buckets := s.buckets ++ closed ++ s.idleBuckets j }
  let s := s.modRoll j fun r => { r with
    isSealed := true, records := [], sealedEpoch := r.sendEpoch
    sealedSteps := (r.step :: r.sealedSteps).take 65536 }
  let s := s.snapshotDue j r.step
  let s := (s.framesOfJob j).foldl (fun s f => s.checkEval f) s
  if s.answers j && s.noneRunning j then s.sendAnswer j ((r.step + 1) % 2 ^ 24) false else s

/-- SEAL_RECEIVE (R328). -/
def execSealReceive (j : Fin 16) (dev step : Nat) (s : State) : Result :=
  let r := s.roll j
  if dev ≠ s.keeperOf j then .next s.refuseDecision
  else if !r.held || r.isSealed || step != r.step then .next s
  else .next ((s.acceptSeal j).recordDecision j (.seal step))

/-! ### Late withdrawal (R330, R331, R395) -/

/-- A record's accepted contribution is in float mode. -/
def State.floatAccepted (s : State) (j : Fin 16) : Bool :=
  (s.roll j).records.any fun p => p.2.st == .accepted &&
    (match (s.sendAt j p.1).1 with | some x => x.float | none => false)

/-- WITHDRAW_LATE: every segment in flight has been answered; the member withdraws (R330, R432). -/
def execWithdrawLate (j : Fin 16) (s : State) : Result :=
  let r := s.roll j
  match r.lateFault with
  | none => .next s
  | some kind =>
    if r.withdrawn || r.isSealed || r.records.any fun p => p.2.outstanding != 0 then .next s else
    let retractable := !r.lateHard && !(s.floatAccepted j)
    let s := (s.modRoll j fun r => { r with withdrawn := true }).logEvent 0x0700 (j.val + kind * 2 ^ 4)
    .next (s.sendKeepers j svcWithdraw (leBytes 3 r.step ++ leBytes 1 (b2n retractable)))

/-- WITHDRAW_LATE_RECEIVE: the keeper issues a revision that excludes the member, and the members coupled to it: with
replay where the withdrawal cannot be retracted, or a device that coupling excludes has a contribution of the step in
float mode, which `floats` names (R331, R332, R394, R395; log entry 29). -/
def execWithdrawLateReceive (j : Fin 16) (dev step : Nat) (retractable : Bool) (floats : List Nat) (s : State) :
    Result :=
  let r := s.roll j
  if !(s.isKeeper j) then .next s
  else if !r.kFixed || r.kSealed || step != r.kStep then .next (s.count32 0x2901 0x10)
  else if !(r.kMembers.contains dev) then .next s
  else
    let left := r.kMembers.erase dev
    let kept := s.couple j left
    let out := r.kMembers.filter fun d => !(kept.contains d)
    let replay := !retractable || (decide (kept.length < left.length) && out.any (floats.contains ·))
    .next (s.issueRevision j step (r.kRevision + 1) replay left)

/-- An expired lease that names members (R322, R329): the keeper issues a replay without them. -/
def State.leaseReport (s : State) (j : Fin 16) (step : Nat) (devs : List Nat) : State :=
  let r := s.roll j
  if !(s.isKeeper j) || !r.kFixed || r.kSealed || step != r.kStep then s else
  let left := r.kMembers.filter fun d => !(devs.contains d)
  if left.length = r.kMembers.length then s else s.issueRevision j step (r.kRevision + 1) true left

/-- A device of the roll list is an owner: its entry marks it owner-only, or the keeper's own send list names it as one
(R312, R325; log entry 108). -/
def State.isOwner (s : State) (j : Fin 16) (d : Nat) : Bool :=
  (s.rollList j).contains (d, true) ||
    (List.range (s.sendCount j (s.sendSlot j))).any fun n => match (s.sendAt j n).1 with
      | some x => x.owner == d
      | none => false

/-- The loss of devices (R329): the keeper reports those that are owners, and issues a replay without those that are
members. -/
def State.lossReport (s : State) (j : Fin 16) (step : Nat) (devs : List Nat) : State :=
  let r := s.roll j
  if !(s.isKeeper j) || !r.kFixed || r.kSealed || step != r.kStep then s else
  let s := (devs.filter (s.isOwner j ·)).foldl (fun s d => s.logEvent 0x0703 (j.val + d * 2 ^ 4)) s
  s.leaseReport j step devs

/-! ### Keeper and standby (R333) -/

/-- KEEPER_HEARTBEAT: the keeper or the standby sends its heartbeat, or takes the other's, which renews its lease. -/
def execKeeperHeartbeat (j : Fin 16) (dev : Nat) (s : State) : Result :=
  if dev = s.device then
    .next (if s.isKeeper j then s.sendRoll j (s.standbyOf j) svcHeartbeat []
      else if s.isStandby j then s.sendRoll j (s.keeperOf j) svcHeartbeat [] else s)
  else if (s.isKeeper j && dev == s.standbyOf j) || (s.isStandby j && dev == s.keeperOf j) then
    .next (s.modRoll j fun r => { r with peerAlive := s.supCycles, standbyLost := false })
  else .next s

/-- The device is held as keeper from now on (R333). -/
def State.holdKeeper (s : State) (j : Fin 16) (dev : Nat) : State :=
  s.modRoll j fun r => { r with formerStandby := true, keeper := dev }

/-- KEEPER_LEASE_EXPIRY: the standby takes over; a step that is not sealed is replayed (R333, R432). -/
def execKeeperLeaseExpiry (j : Fin 16) (s : State) : Result :=
  if !(s.isStandby j) || s.isKeeper j then .next s else
  let former := s.keeperOf j
  let s := (s.holdKeeper j s.device).logEvent 0x0702 (j.val + former % 2 ^ 12 * 2 ^ 4)
  let s := (s.rollList j).foldl (fun s p => s.sendRoll j p.1 svcTakeover []) s
  let r := s.roll j
  if r.kFixed && !r.kSealed then .next (s.issueRevision j r.kStep (r.kRevision + 1) true r.kMembers)
  else .next ((r.answers.map (·.2.1)).eraseDups.foldl (fun s q => s.tryFix j q) s)

/-- TAKEOVER_RECEIVE: the device holds the standby as keeper (R333). -/
def execTakeoverReceive (j : Fin 16) (dev : Nat) (s : State) : Result :=
  .next (if dev == s.standbyOf j then s.holdKeeper j dev else s)

/-- STANDBY_LEASE_EXPIRY: the keeper no longer waits for the standby (R333). -/
def execStandbyLeaseExpiry (j : Fin 16) (s : State) : Result :=
  if !(s.isKeeper j) then .next s else
  let ds := (s.roll j).kPending
  let s := s.modRoll j fun r => { r with standbyLost := true, kPending := [] }
  .next (ds.foldl (fun s d => s.broadcast j d) s)

/-- OD 0x291j.1A (R339). -/
def State.stepState (s : State) (j : Fin 16) : Nat :=
  let r := s.roll j
  if !r.held then b2n r.formerStandby * 2 ^ 44
  else r.step % 2 ^ 24 + r.revision * 2 ^ 24 + b2n r.member * 2 ^ 28 + b2n r.sent * 2 ^ 29 + b2n r.isSealed * 2 ^ 30 +
    b2n r.replay * 2 ^ 31 + r.members.length * 2 ^ 32 + b2n r.formerStandby * 2 ^ 44

end Sys2Proof.Machine
end

