-- ==== Sys2Proof/Machine/Snapshot.lean ====
section
/-! DEFINITION. Snapshot: the snapshots of a job's owner state, the generations they are written in and the hosting of
other devices' generations (R420–R427, R434, R435). -/

namespace Sys2Proof.Machine

def snapIndex (j : Fin 16) : Nat := 0x2D20 + j.val
def State.snap (s : State) (j : Fin 16) : Snap := sget {} s.snaps j.val
def State.modSnap (s : State) (j : Fin 16) (f : Snap → Snap) : State := { s with snaps := smod {} s.snaps j.val f }

/-- OD 0x2D2j.09 [2:0]. -/
def State.snapState (s : State) (j : Fin 16) : Nat := bits (s.odGet (snapIndex j) 0x09 0) 0 3
def State.setSnapState (s : State) (j : Fin 16) (x : Nat) : State :=
  s.odSet (snapIndex j) 0x09 (putBits (s.odGet (snapIndex j) 0x09 0) 0 3 x)
/-- The partner-lost flag. -/
def State.partnerLost (s : State) (j : Fin 16) : Bool := bit (s.odGet (snapIndex j) 0x09 0) 4

/-! ### The state record (R422) -/

/-- The TIDs whose owning frame's latched job is `j`. -/
def State.jobTids (s : State) (j : Fin 16) : List Nat :=
  (s.framesOfJob j).flatMap fun f => match (s.frame f).latched with
    | some l => l.watch.map (·.1)
    | none => []

/-- The state record of R422. -/
def State.stateRecord (s : State) (j : Fin 16) (step : Nat) : List Byte :=
  let fs := s.framesOfJob j
  let seed := match fs with
    | f :: _ => (match (s.frame f).latched with | some l => l.seed | none => 0)
    | [] => s.odGet 0x2401 1 0
  let mask := fs.foldl (fun m f => m + 2 ^ f.val) 0
  leBytes 8 (s.wholeStep j step) ++ leBytes 1 (s.sendEpoch j) ++ leBytes 1 (s.odGet (jobIndex j) 0x02 0) ++
    leBytes 1 (s.slotEntry j 0 0) ++ leBytes 1 (s.slotEntry j 1 0) ++ leBytes 1 mask ++ zeroBytes 3 ++ leBytes 8 seed ++
    leBytes 8 (s.odGet (updateIndex j) 0x07 0) ++ zeroBytes 224

/-! ### Extents and layout (R422, R424, R425) -/

def segmentBytes : Nat := 0x100000
def dataBase : Nat := 0x100000

def Extent.segments (x : Extent) : Nat := ceilDiv x.length segmentBytes

/-- Offsets, each at a multiple of 4 KiB, and first segments, in order. -/
def placeExtents : List Extent → (offset seg : Nat) → List Extent
  | [], _, _ => []
  | x :: xs, o, g =>
    { x with offset := o, first := g } :: placeExtents xs (o + ceilDiv x.length 4096 * 4096) (g + x.segments)

/-- The end of the data of placed extents. -/
def extentsEnd (xs : List Extent) : Nat := xs.foldl (fun m x => max m (x.offset + x.length)) dataBase
def extentsSegments (xs : List Extent) : Nat := xs.foldl (fun n x => n + x.segments) 0

/-- The extents of a snapshot of the job, or none where the list cannot be read. -/
def State.snapExtents (s : State) (j : Fin 16) : Option (List Extent) × State :=
  let n := s.odGet (snapIndex j) 0x07 0
  let r := s.readTable (s.odGet (snapIndex j) 0x06 0) (16 * n)
  match r.1 with
  | none => (none, r.2)
  | some b =>
    let own : List Extent := [⟨0, 0, 256, 0, 0⟩, ⟨0, 1, 512 * (s.jobTids j).length, 0, 0⟩]
    let listed := (List.range n).map fun i =>
      (⟨sliceNat b (16 * i) 6, sliceNat b (16 * i + 6) 1, sliceNat b (16 * i + 8) 8, 0, 0⟩ : Extent)
    (some (placeExtents (own ++ listed) dataBase 0), r.2)

def Extent.bytes (x : Extent) : List Byte :=
  leBytes 6 x.source ++ leBytes 1 x.kind ++ leBytes 1 0 ++ leBytes 8 x.length ++ leBytes 8 x.offset ++
    leBytes 4 x.first ++ leBytes 4 0

/-- CRC-64/ECMA-182 (R425). -/
def crc64 (c : Nat) (bs : List Byte) : Nat := bs.foldl (crcMsbByte 64 0x42F0E1EBA9EA3693) c

/-- The digests of an extent's segments. -/
def digestsOf (data : List Byte) : List Nat := (chunks segmentBytes data.length data).map (crc64 0)

/-- The first 64 bytes of a generation's header (R424). -/
def snapHeader (state job device extents step sequence segments size root : Nat) : List Byte :=
  leBytes 4 0x534E5053 ++ leBytes 2 1 ++ leBytes 1 state ++ leBytes 1 job ++ leBytes 2 device ++ zeroBytes 2 ++
    leBytes 4 extents ++ leBytes 8 step ++ leBytes 8 sequence ++ leBytes 4 segments ++ zeroBytes 4 ++ leBytes 8 size ++
    leBytes 8 root ++ zeroBytes 8

/-- The root digest over header bytes 0 to 127 with bytes 6 and 48 to 55 as zero, and the two tables (R425). -/
def rootDigest (header extents digests : List Byte) : Nat :=
  crc64 (crc64 (crc64 0 (splice (splice (slice header 0 128) 6 [0]) 48 (zeroBytes 8))) extents) digests

/-- `b` filled up to a multiple of 64 bytes. -/
def pad64 (b : List Byte) : List Byte := b ++ zeroBytes (64 * ceilDiv b.length 64 - b.length)

/-! ### The two areas (R423, R426, R427) -/

/-- Bytes written into the partner's generation as device-level WRITEs (R374, R423). -/
def State.writePartner (s : State) (j : Fin 16) (off : Nat) (data : List Byte) : State :=
  match (s.snap j).partner with
  | none => s
  | some g =>
    let dev := s.odGet (snapIndex j) 0x02 0xFFFF
    let at_ := s.odGet (snapIndex j) 0x03 0 + g * s.odGet (snapIndex j) 0x05 0 + off
    match s.egress dev with
    | none => s.modSnap j fun p => { p with partnerStatus := if p.partnerStatus = 0 then 2 else p.partnerStatus }
    | some k =>
      let ps := pieces4k at_ data.length (data.length / 64 + 1) 0
      ps.foldl (fun s p =>
        s.requestOrWait k (.snapshot j.val) { kind := 1, dst := dev, src := 0, flags := 1, a := at_ + p.1 }
          (slice data p.1 p.2)) (s.modSnap j fun p => { p with unanswered := p.unanswered + ps.length })

/-- Bytes written into the local generation. -/
def State.writeLocal (s : State) (j : Fin 16) (off : Nat) (data : List Byte) : State :=
  match (s.snap j).localArea with
  | none => s
  | some g =>
    let at_ := s.odGet (snapIndex j) 0x04 0 + g * s.odGet (snapIndex j) 0x05 0 + off
    let w := s.writeChecked none at_ data false
    if w.1 = 0 then w.2 else w.2.modSnap j fun p => { p with localBad := true }

/-- Bytes written into both. -/
def State.writeAreas (s : State) (j : Fin 16) (off : Nat) (data : List Byte) : State :=
  (s.writePartner j off data).writeLocal j off data

/-- The step of a committed snapshot of the job whose header these bytes begin. -/
def committedStep (job : Nat) (b : List Byte) : Option Nat :=
  let h := hostedHeader b
  if h.1 && h.2.1 == 2 && h.2.2.1 == job then some h.2.2.2 else none

/-- The generation that does not hold the newest committed snapshot, by the steps that both hold (R426). -/
def olderGeneration : Option Nat → Option Nat → Nat
  | some a, some b => if a < b then 0 else 1
  | some _, none => 1
  | none, _ => 0

/-- The generation of the local area that is written next. -/
def State.localTarget (s : State) (j : Fin 16) : Nat :=
  let look (a : Nat) : Option Nat := if s.rangeBacked a 64 then committedStep j.val (s.blockBytes a) else none
  let base := s.odGet (snapIndex j) 0x04 0
  olderGeneration (look base) (look (base + s.odGet (snapIndex j) 0x05 0))

/-- The generation of the partner area that is written next: by the last copy, or by the headers read there. -/
def State.partnerTarget (s : State) (j : Fin 16) : Nat :=
  let look (g : Nat) : Option Nat := committedStep j.val ((sget none (s.snap j).heads g).getD [])
  match (s.snap j).partnerNewest with
  | some g => 1 - g
  | none => olderGeneration (look 0) (look 1)

/-- The header of a generation of the partner area has been read, or its READ has failed. -/
def State.snapHeadRead (s : State) (j : Fin 16) (g status : Nat) (data : List Byte) : State :=
  if (s.snap j).headsDue.contains g then
    s.modSnap j fun p => { p with
      headsDue := p.headsDue.erase g, heads := sput none p.heads g (some (if status = 0 then data else [])) }
  else s

/-- The device does not know which generation of its partner's area is the newest. -/
def State.partnerUnknown (s : State) (j : Fin 16) : Bool :=
  let p := s.snap j
  s.odGet (snapIndex j) 0x02 0xFFFF != 0xFFFF && !(s.partnerLost j) && p.partnerNewest.isNone &&
    ((sget none p.heads 0).isNone || (sget none p.heads 1).isNone)

/-- The headers of the partner area are read, 64 bytes each (R374, R378, R426). -/
def State.readHeads (s : State) (j : Fin 16) : State :=
  let i := snapIndex j
  let dev := s.odGet i 0x02 0xFFFF
  let s := s.modSnap j fun p => { p with headsDue := [0, 1], heads := [] }
  match s.egress dev with
  | none => (s.snapHeadRead j 0 2 []).snapHeadRead j 1 2 []
  | some k => [0, 1].foldl (fun s g => s.requestOrWait k (.snapHead j.val g)
      { kind := 3, dst := dev, src := 0, flags := 1, a := s.odGet i 0x03 0 + g * s.odGet i 0x05 0, b := 0 } []) s

/-! ### The copy (R421, R423, R426) -/

/-- The collector has closed step `q` of a frame: a later step of it runs and nothing of `q` or before is open
(R421). -/
def State.closedThrough (s : State) (f : Fin 8) (q : Nat) : Bool :=
  !(s.frame f).watched || (s.watchTiles f).isEmpty ||
    (newerStep 24 ((s.frame f).step % 2 ^ 24) q &&
      (s.posts ++ s.posting).all fun p => postFrame p != f.val || newerStep 24 (postStep p % 2 ^ 24) q)

/-- The hold ends, and CLOSED is reported if it is due (R401, R426). -/
def State.endHold (s : State) (j : Fin 16) : State :=
  let s := s.abandon fun w => match w with | .snapshot i => i == j.val | _ => false
  ((s.setSnapState j 0).modSnap j fun p =>
    { p with
      due := none, hold := false, partner := none, localArea := none, header := [], extents := [], digests := []
      unanswered := 0 }).checkClosed j

/-- The bytes of an extent; none where the device cannot read its own state (R427). -/
def State.extentData (s : State) (j : Fin 16) (x : Extent) : Option (List Byte) × State :=
  match x.kind with
  | 0 => (some (s.stateRecord j (s.snap j).step), s)
  | 1 => (some ((s.jobTids j).flatMap s.watchBytes), s)
  | _ =>
    if x.length = 0 then (some [], s) else
    let r := s.readChecked none x.source x.length
    (if r.1 = 0 then some r.2.1 else none, r.2.2)

/-- The extents of the copy that satisfy a condition are read and written into both areas, in list order, and the
digests of their segments held. -/
def State.copyExtents (s : State) (j : Fin 16) (want : Extent → Bool) : State :=
  ((s.snap j).extents.zipIdx).foldl (fun s p =>
    if !(want p.1) then s else
    match s.extentData j p.1 with
    | (some data, s) =>
      (s.writeAreas j p.1.offset data).modSnap j fun q => { q with digests := sput [] q.digests p.2 (digestsOf data) }
    | (none, s) => s.modSnap j fun q => { q with ownBad := true }) s

/-- The state part: kinds 0 to 3 (R423). -/
def Extent.statePart (x : Extent) : Bool := decide (x.kind ≤ 3)

/-- The copy begins: headers of state 1 are written and the state part is copied (R423, R426); what does not fit its
generation fails with reason 4 (R424). -/
def State.startSnap (s : State) (j : Fin 16) (step : Nat) : State :=
  let i := snapIndex j
  let dev := s.odGet i 0x02 0xFFFF
  let partner := if dev = 0xFFFF ∨ s.partnerLost j then none else some (s.partnerTarget j)
  let localArea := if s.odGet i 0x04 0 = 0 then none else some (s.localTarget j)
  if partner.isNone ∧ localArea.isNone then s.modSnap j fun p => { p with due := none } else
  match s.snapExtents j with
  | (none, s) => (s.modSnap j fun p => { p with due := none }).snapFailed j 3
  | (some xs, s) =>
    let segs := extentsSegments xs
    if s.odGet i 0x05 0 < extentsEnd xs ∨ 1024 < xs.length ∨ 65536 < segs then
      (s.modSnap j fun p => { p with due := none }).snapFailed j 4
    else
      let seq := (s.snap j).sequence + 1
      let h := snapHeader 1 j.val s.device xs.length (s.wholeStep j step) seq segs
        (xs.foldl (fun n x => n + x.length) 0) 0
      let s := s.modSnap j fun p => { p with
        step := step, hold := true, partner := partner, localArea := localArea, sequence := seq, header := h,
          ownBad := false
        localBad := false, partnerStatus := 0, heads := [], extents := xs, digests := [], unanswered := 0 }
      ((s.setSnapState j 1).writeAreas j 0 (h ++ zeroBytes 4032)).copyExtents j Extent.statePart

/-- The conditions under which a copy begins: updates, closes (R421). -/
def State.snapReady (s : State) (j : Fin 16) (step : Nat) : Bool :=
  !(s.updatesOutstanding j.val) && (s.framesOfJob j).all fun f => s.closedThrough f step

/-- SNAPSHOT_START: a snapshot that is due begins, or is skipped for a move list that runs (R421, R423). Where it is not
known which generation the partner area is to keep, its headers are read first (R426; log entry 110). -/
def execSnapshotStart (j : Fin 16) (s : State) : Result :=
  match (s.snap j).due with
  | none => .next s
  | some step =>
    if (s.snap j).hold || !(s.snapReady j step) then .next s
    else if s.moveState j = 1 then .next ((s.modSnap j fun p => { p with due := none }).snapFailed j 7)
    else if s.partnerUnknown j then .next (if (s.snap j).headsDue.isEmpty then s.readHeads j else s)
    else .next (s.startSnap j step)

/-- SNAPSHOT_STATE_PART_DONE: the state part is copied; the segments and the closes go on, and the engines copy the rest
with the two tables (R423, R426). -/
def execSnapshotStatePartDone (j : Fin 16) (s : State) : Result :=
  if s.snapState j ≠ 1 then .next s else
  let s := (s.setSnapState j 2).copyExtents j fun x => !x.statePart
  let p := s.snap j
  let et := p.extents.flatMap Extent.bytes
  let dt := (List.range p.extents.length).flatMap fun i => (sget [] p.digests i).flatMap (leBytes 8)
  let h := splice p.header 6 [2]
  let root := rootDigest (h ++ zeroBytes 64) et dt
  .next (((s.writeAreas j 0x1000 (pad64 et)).writeAreas j 0x9000 (pad64 dt)).modSnap j fun p =>
    { p with header := splice h 48 (leBytes 8 root) })

/-! ### The end (R426, R427) -/

/-- The reason of a status that a partner answers; 0 for none. -/
def partnerReason (status : Nat) : Nat :=
  if status = 0 then 0 else if [2, 3, 9].contains status then 1 else 2

/-- The reason with which a copy fails; 0 where every configured area commits. -/
def Snap.reason (p : Snap) : Nat :=
  if p.ownBad then 3
  else if p.partner.isSome ∧ p.partnerStatus ≠ 0 then partnerReason p.partnerStatus
  else if p.localArea.isSome ∧ p.localBad then 8 else 0

/-- OD 0x2D2j.0A of a copy. -/
def Snap.committed (p : Snap) (partner localOk : Bool) : Nat :=
  p.step % 2 ^ 24 + (p.partner.getD 0) * 2 ^ 24 + (p.localArea.getD 0) * 2 ^ 25 + b2n partner * 2 ^ 26 +
    b2n localOk * 2 ^ 27 + p.sequence % 2 ^ 32 * 2 ^ 32

/-- The areas are committed, each on its own: the header again, with state 2 and the root digest (R426). -/
def State.commitSnap (s : State) (j : Fin 16) : State :=
  let p := s.snap j
  let s := s.setSnapState j 3
  let s := if !p.ownBad && p.partnerStatus == 0 then s.writePartner j 0 (p.header ++ zeroBytes 4032) else s
  if !p.ownBad && !p.localBad then s.writeLocal j 0 (p.header ++ zeroBytes 4032) else s

/-- An answer of the partner to a write of the copy; once the data and the tables have been answered the areas are
committed. -/
def State.snapAnswered (s : State) (j : Fin 16) (status : Nat) : State :=
  if !(s.snap j).hold then s else
  let s := s.modSnap j fun p => { p with
    unanswered := p.unanswered - 1, partnerStatus := if p.partnerStatus = 0 then status else p.partnerStatus }
  if s.snapState j = 2 ∧ (s.snap j).unanswered = 0 then s.commitSnap j else s

/-- What the copy has committed: OD 0x2D2j.0A and .0B, and event 0x0800. -/
def State.recordSnap (s : State) (j : Fin 16) : State :=
  let p := s.snap j
  let i := snapIndex j
  let partner := !p.ownBad && p.partner.isSome && p.partnerStatus == 0
  let localOk := !p.ownBad && p.localArea.isSome && !p.localBad
  let s := if partner then s.modSnap j fun q => { q with partnerNewest := p.partner } else s
  if partner || localOk then
    ((s.odSet i 0x0A (p.committed partner localOk)).count32 i 0x0B).logEvent 0x0800
      (j.val + (if partner then p.partner.getD 0 else p.localArea.getD 0) * 2 ^ 4 + p.step % 2 ^ 24 * 2 ^ 8)
  else s

/-- The copy has ended: its failure, if any, and the partner-lost flag. -/
def State.judgeSnap (s : State) (j : Fin 16) : State :=
  let i := snapIndex j
  let r := (s.snap j).reason
  if r = 0 then s.odSet i 0x09 (putBits (putBit (s.odGet i 0x09 0) 5 false) 8 4 0)
  else
    let s := s.snapFailed j r
    if r = 1 then s.odSet i 0x09 (putBit (s.odGet i 0x09 0) 4 true) else s

/-- SNAPSHOT_END: every area has committed or failed and the hold is released (R426, R427, R434). A copy that had
nothing to wait for at the partner commits first; one whose partner has not answered goes on. -/
def execSnapshotEnd (j : Fin 16) (r : SnapshotResult) (s : State) : Result :=
  let s := if s.snapState j = 2 ∧ (s.snap j).unanswered = 0 then s.commitSnap j else s
  if s.snapState j ≠ 3 ∨ (s.snap j).unanswered ≠ 0 then .next s else
  let s := ((s.recordSnap j).odSet (snapIndex j) 0x0D (r.copyTime % 2 ^ 32)).odSet (snapIndex j) 0x0E
    (r.holdTime % 2 ^ 32)
  .next ((s.judgeSnap j).endHold j)

/-! ### Commands (R421, R434) -/

/-- SNAPSHOT_TAKE. -/
def execSnapshotTake (via : Path) (j : Fin 16) (s : State) : Result :=
  s.command via (snapIndex j) 0x08 1 fun s => (0, s.modSnap j fun p => { p with take := true })

/-- SNAPSHOT_ABORT: a copy in progress, or a snapshot that is due, fails with reason 5. -/
def execSnapshotAbort (via : Path) (j : Fin 16) (s : State) : Result :=
  s.command via (snapIndex j) 0x08 2 fun s =>
    (0, if (s.snap j).hold || (s.snap j).due.isSome then (s.snapFailed j 5).endHold j else s)

/-- CLEAR_PARTNER_LOST. -/
def execClearPartnerLost (via : Path) (j : Fin 16) (s : State) : Result :=
  s.command via (snapIndex j) 0x08 3 fun s =>
    (0, s.odSet (snapIndex j) 0x09 (putBit (s.odGet (snapIndex j) 0x09 0) 4 false))

/-! ### Hosting (R427) -/

/-- HOSTING_LEASE_EXPIRY: a generation in state 1 is marked abandoned. -/
def execHostingLeaseExpiry (slot : Fin 8) (gen : Fin 2) (s : State) : Result :=
  let s := s.refreshHosting slot.val
  let h := s.hostSlot slot.val
  if !h.used || bits (s.odGet 0x2D31 (slot.val + 1) 0) (2 * gen.val) 2 != 1 then .next s
  else .next (((s.writeTable (h.base + gen.val * h.length + 6) [3]).refreshHosting slot.val).logEvent 0x0804
    (slot.val + gen.val * 2 ^ 3))

end Sys2Proof.Machine
end

