-- ==== Sys2Proof/Machine/Restore.lean ====
section
/-! DEFINITION. Restore: the restore of a job's owner state from a snapshot, the tally reset and the weight resend
(R417, R428–R430, R436). -/

namespace Sys2Proof.Machine

def restIndex (j : Fin 16) : Nat := 0x2D40 + j.val
def State.rest (s : State) (j : Fin 16) : Rest := sget {} s.rests j.val
/-- OD 0x2D4j.07. -/
def State.restState (s : State) (j : Fin 16) : Nat := s.odGet (restIndex j) 0x07 0
def State.setRestState (s : State) (j : Fin 16) (x : Nat) : State := s.odSet (restIndex j) 0x07 x

/-- OD 0x2D4j.08. -/
def restResult (step : Nat) (fell : Bool) (gen reason segment : Nat) : Nat :=
  step % 2 ^ 24 + b2n fell * 2 ^ 24 + gen * 2 ^ 25 + reason * 2 ^ 28 + segment * 2 ^ 32
/-- No failing segment. -/
def noSegment : Nat := 2 ^ 32 - 1

def State.modRest (s : State) (j : Fin 16) (f : Rest → Rest) : State := { s with rests := smod {} s.rests j.val f }

/-- The READs of a restore that has ended are given up. -/
def State.endReads (s : State) (j : Fin 16) : State :=
  (s.abandon fun w => match w with | .restore i _ => i == j.val | _ => false).modRest j fun p =>
    { p with pieces := [], asked := [] }

/-- A restore has failed, with its reason and the segment (R429, R432). -/
def State.restFailed (s : State) (j : Fin 16) (reason segment : Nat) : State :=
  let p := s.rest j
  let s := s.endReads j
  ((s.setRestState j 4).odSet (restIndex j) 0x08 (restResult 0 p.fellBack p.gen reason segment)).logEvent 0x0803
    (j.val + reason * 2 ^ 4)

/-! ### Reading the area (R429) -/

/-- The restore reads a partner's area (OD 0x2D4j.01). -/
def State.fromPartner (s : State) (j : Fin 16) : Bool := s.odGet (restIndex j) 0x01 0 == 1

/-- The numbers of the pieces of 4 KiB that `n` bytes at an offset of the area lie in; the offset is a multiple of 4
KiB. -/
def piecesOf (off n : Nat) : List Nat := (List.range (ceilDiv n 4096)).map fun i => off / 4096 + i

/-- Every piece of a range has been read from the partner, or its READ has failed; of a local area nothing is
awaited. -/
def State.hasRead (s : State) (j : Fin 16) (off n : Nat) : Bool :=
  !(s.fromPartner j) || (piecesOf off n).all fun i => (sget none (s.rest j).pieces i).isSome

/-- `n` bytes at an offset of the area: from this device's stacks, or as the partner's answers brought them. -/
def State.areaRead (s : State) (j : Fin 16) (off n : Nat) : Option (List Byte) × State :=
  if n = 0 then (some [], s)
  else if !(s.fromPartner j) then s.readTable (s.odGet (restIndex j) 0x03 0 + off) n
  else
    let b := (piecesOf off n).flatMap fun i => (sget none (s.rest j).pieces i).getD []
    (if b.length < n then none else some (b.take n), s)

/-- A header of a generation (R424). -/
structure GenHeader where
  bytes : List Byte
  magic : Bool
  version : Nat
  state : Nat
  job : Nat
  device : Nat
  extents : Nat
  step : Nat
  segments : Nat
  root : Nat
  deriving DecidableEq, Repr

def genHeader (b : List Byte) : GenHeader :=
  { bytes := slice b 0 128, magic := sliceNat b 0 4 == 0x534E5053, version := sliceNat b 4 2, state := sliceNat b 6 1
    job := sliceNat b 7 1, device := sliceNat b 8 2, extents := sliceNat b 12 4, step := sliceNat b 16 8
    segments := sliceNat b 32 4, root := sliceNat b 48 8 }

/-- The length of a generation of the area. -/
def State.genLength (s : State) (j : Fin 16) : Nat := s.odGet (restIndex j) 0x04 0

/-- The header of generation `g`. -/
def State.genHeaderAt (s : State) (j : Fin 16) (g : Nat) : Option GenHeader × State :=
  let r := s.areaRead j (g * s.genLength j) 4096
  (r.1.map genHeader, r.2)

/-- What a look at a generation has found: its header and extents, or the reason it cannot be used and the segment that
failed. -/
inductive GenCheck where
  | ok (h : GenHeader) (xs : List Extent)
  | bad (reason segment : Nat)
  deriving DecidableEq, Repr

/-- An entry of the extent table (R424). -/
def tableExtent (b : List Byte) (i : Nat) : Extent :=
  ⟨sliceNat b (32 * i) 6, sliceNat b (32 * i + 6) 1, sliceNat b (32 * i + 8) 8, sliceNat b (32 * i + 16) 8,
    sliceNat b (32 * i + 24) 4⟩

/-- The first segment of the data whose digest is not that of the table. -/
def badSegment (data table : List Byte) (first : Nat) : Option Nat :=
  (((digestsOf data).zipIdx).find? fun p => p.1 != sliceNat table (8 * (first + p.2)) 8).map fun p => first + p.2

/-- The segments of the extents are read and checked one extent after another (R429). -/
def State.checkSegments (s : State) (j : Fin 16) (g : Nat) (dt : List Byte) (xs : List Extent) :
    Option (Nat × Nat) × State :=
  xs.foldl (fun a x =>
    match a.1 with
    | some _ => a
    | none =>
      let r := a.2.areaRead j (g * a.2.genLength j + x.offset) x.length
      match r.1 with
      | none => (some (4, x.first), r.2)
      | some d => ((badSegment d dt x.first).map fun n => (3, n), r.2)) (none, s)

/-- Everything the verify pass checks of a generation whose header has been read (R429). -/
def State.checkGen (s : State) (j : Fin 16) (g : Nat) (h : GenHeader) : GenCheck × State :=
  let base := g * s.genLength j
  if h.version ≠ 1 ∨ h.job ≠ j.val ∨ h.device ≠ s.device ∨ 1024 < h.extents ∨ 65536 < h.segments then
    (.bad 7 noSegment, s)
  else
    let e := s.areaRead j (base + 0x1000) (32 * h.extents)
    let d := e.2.areaRead j (base + 0x9000) (8 * h.segments)
    match e.1, d.1 with
    | some et, some dt =>
      let xs := (List.range h.extents).map (tableExtent et)
      if rootDigest h.bytes et dt ≠ h.root then (.bad 3 noSegment, d.2)
      else if xs.any fun x => decide (d.2.genLength j < x.offset + x.length) ||
        decide (h.segments < x.first + x.segments) then
        (.bad 7 noSegment, d.2)
      else
        let c := d.2.checkSegments j g dt xs
        (match c.1 with | some (r, n) => .bad r n | none => .ok h xs, c.2)
    | _, _ => (.bad 4 noSegment, d.2)

/-- The committed generations a restore may use, the one to try first in front (R429): with their headers. -/
def State.candidates (s : State) (j : Fin 16) : List (Nat × GenHeader) × Bool × State :=
  let a := s.genHeaderAt j 0
  let b := a.2.genHeaderAt j 1
  let target := s.odGet (restIndex j) 0x05 0xFFFFFFFF
  let good (h : GenHeader) : Bool :=
    h.magic && h.state == 2 && (target == 0xFFFFFFFF || h.step % 2 ^ 24 == target)
  let xs := ([(0, a.1), (1, b.1)].filterMap fun p => p.2.map fun h => (p.1, h)).filter fun p => good p.2
  let xs := match xs with
    | [p, q] => if p.2.step < q.2.step then [q, p] else [p, q]
    | _ => xs
  (if target = 0xFFFFFFFF then xs else xs.take 1, a.1.isNone || b.1.isNone, b.2)

/-- Of the reasons met, the one reported: a digest, a read error, a mismatch (R436). -/
def worstReason (bs : List (Nat × Nat)) : Nat × Nat :=
  match bs.find? (·.1 == 3), bs.find? (·.1 == 4), bs with
  | some b, _, _ => b
  | none, some b, _ => b
  | none, none, b :: _ => b
  | none, none, [] => (2, noSegment)

/-- The candidates are tried in turn: the first that passes, with what failed before it. -/
def State.tryGens (s : State) (j : Fin 16) :
    List (Nat × GenHeader) → List (Nat × Nat) → Option (Nat × GenHeader) × List (Nat × Nat) × State
  | [], bad => (none, bad, s)
  | (g, h) :: rest, bad =>
    match s.checkGen j g h with
    | (.ok _ _, s) => (some (g, h), bad, s)
    | (.bad r n, s) => s.tryGens j rest (bad ++ [(r, n)])

/-! ### The READs of the two passes (R374, R377, R429) -/

/-- The ranges of a generation that are still to be read: the tables, then, where the root digest holds, the extents. -/
def State.genWants (s : State) (j : Fin 16) (g : Nat) (h : GenHeader) : List (Nat × Nat) :=
  let base := g * s.genLength j
  if h.version ≠ 1 ∨ h.job ≠ j.val ∨ h.device ≠ s.device ∨ 1024 < h.extents ∨ 65536 < h.segments then [] else
  let todo (xs : List (Nat × Nat)) : List (Nat × Nat) := xs.filter fun p => !(s.hasRead j p.1 p.2)
  match todo [(base + 0x1000, 32 * h.extents), (base + 0x9000, 8 * h.segments)] with
  | [] =>
    (match (s.areaRead j (base + 0x1000) (32 * h.extents)).1, (s.areaRead j (base + 0x9000) (8 * h.segments)).1 with
      | some et, some dt =>
        let xs := (List.range h.extents).map (tableExtent et)
        if rootDigest h.bytes et dt ≠ h.root ∨ (xs.any fun x =>
          decide (s.genLength j < x.offset + x.length)) = true then []
        else todo (xs.map fun x => (base + x.offset, x.length))
      | _, _ => [])
  | ws => ws

/-- What the verify pass reads next for the candidates in turn. -/
def State.verifyWants (s : State) (j : Fin 16) : List (Nat × GenHeader) → List (Nat × Nat)
  | [] => []
  | (g, h) :: rest => match s.genWants j g h with
    | [] => (match (s.checkGen j g h).1 with
      | .ok _ _ => []
      | .bad _ _ => s.verifyWants j rest)
    | ws => ws

/-- What a restore reads next: both headers, then what the pass needs of the generations. -/
def State.restoreWants (s : State) (j : Fin 16) : List (Nat × Nat) :=
  if !(s.fromPartner j) then [] else
  match ([0, 1].map fun g => (g * s.genLength j, 4096)).filter fun p => !(s.hasRead j p.1 p.2) with
  | [] =>
    if s.restState j = 1 then s.verifyWants j (s.candidates j).1
    else (match (s.genHeaderAt j (s.rest j).gen).1 with
      | some h => s.genWants j (s.rest j).gen h
      | none => [])
  | ws => ws

/-- One piece has been read: status 0 and its bytes, or nothing. -/
def State.pieceRead (s : State) (j : Fin 16) (i status : Nat) (data : List Byte) : State :=
  s.modRest j fun p => { p with
    asked := p.asked.erase i, pieces := sput none p.pieces i (some (if status = 0 then data else [])) }

/-- Device-level READs of 4 KiB for what the restore needs next (R374, R429). -/
def State.askPartner (s : State) (j : Fin 16) : State :=
  let ps := ((s.restoreWants j).flatMap fun p => piecesOf p.1 p.2).filter fun i =>
    (sget none (s.rest j).pieces i).isNone
  let dev := s.odGet (restIndex j) 0x02 0xFFFF
  let s := s.modRest j fun p => { p with asked := ps }
  match s.egress dev with
  | none => ps.foldl (fun s i => s.pieceRead j i 2 []) s
  | some k => ps.foldl (fun s i => s.requestOrWait k (.restore j.val i)
      { kind := 3, dst := dev, src := 0, flags := 1, a := s.odGet (restIndex j) 0x03 0 + 4096 * i, b := 63 } []) s

/-- A READ of a restore has been answered; once none is awaited, what comes next is asked for. -/
def State.restoreRead (s : State) (j : Fin 16) (i status : Nat) (data : List Byte) : State :=
  if !((s.rest j).asked.contains i) then s else
  let s := s.pieceRead j i status data
  if (s.rest j).asked.isEmpty then s.askPartner j else s

/-- A pass of the restore still has something to read. -/
def State.reading (s : State) (j : Fin 16) : Bool := !(s.rest j).asked.isEmpty || !(s.restoreWants j).isEmpty

/-- RESTORE_VERIFY_DONE: the verify pass ends with a generation chosen, by falling back where it had to, or fails; the
write pass reads its data again (R429). While something is still to be read the pass goes on. -/
def execRestoreVerifyDone (j : Fin 16) (s : State) : Result :=
  if s.restState j ≠ 1 then .next s else
  if s.reading j then .next (if (s.rest j).asked.isEmpty then s.askPartner j else s) else
  let c := s.candidates j
  match c.2.2.tryGens j c.1 [] with
  | (some (g, h), bad, s) =>
    let fell := !bad.isEmpty
    let base := g * s.genLength j / 4096
    let s := s.modRest j fun p => { p with
      gen := g, fellBack := fell
      pieces := p.pieces.filter fun q => q.1 == 0 || q.1 == s.genLength j / 4096 ||
        (decide (base < q.1) && decide (q.1 < base + 0x100)) }
    let s := ((s.setRestState j 2).odSet (restIndex j) 0x08 (restResult h.step fell g 0 noSegment)).askPartner j
    .next (if fell then s.logEvent 0x0802 (j.val + h.step % 2 ^ 24 * 2 ^ 8) else s)
  | (none, bad, s) =>
    let w := if bad.isEmpty && c.2.1 then (4, noSegment) else worstReason bad
    .next (s.restFailed j w.1 w.2)

/-! ### The write pass (R429) -/

/-- The destination of an extent is undefined (R429; log entry 2). -/
def State.undefineExtent (s : State) (x : Extent) : State :=
  if x.kind < 2 || x.kind > 9 then s else
  let d := s.draw
  (List.range (x.length / 64)).foldl (fun s i =>
    let a := x.source + 64 * i
    if s.stackBacked a then
      s.writeBlock a ((List.range 64).map fun k => Config.undefinedByte (d.1 + 1) (a + k)) false
    else s) d.2

/-- One extent is written to its source address; a watch extent into the watch region. -/
def State.writeExtent (s : State) (j : Fin 16) (g : Nat) (x : Extent) : State :=
  let r := s.areaRead j (g * s.genLength j + x.offset) x.length
  match r.1 with
  | none => r.2
  | some d =>
    if x.kind = 1 then
      (chunks 512 d.length d).foldl (fun s b =>
        let s := s.putWatch (watchTid b) b
        { s with watch := sput none s.watch (watchTid b) none }) r.2
    else if 2 ≤ x.kind ∧ x.kind ≤ 9 ∧ x.length ≠ 0 then (r.2.writeChecked none x.source d false).2
    else r.2

/-- The state record is applied (R422, R429): seeds and steps of the frames of the mask, the update seed, the epochs,
and the last sealed step with none held open. -/
def State.applyRecord (s : State) (j : Fin 16) (b : List Byte) : State :=
  let step := sliceNat b 0 8
  let i := jobIndex j
  let s := (List.range 8).foldl (fun s f =>
    if bit (sliceNat b 12 1) f then
      (s.odSet 0x2401 (f + 1) (sliceNat b 16 8)).odSet 0x2402 (f + 1) ((step + 1) % 2 ^ 64)
    else s) s
  let s := s.odSet (updateIndex j) 0x07 (sliceNat b 24 8)
  let s := (((s.odSet i 0x01 (sliceNat b 8 1)).odSet i 0x02 (sliceNat b 9 1)).odSet i 0x03
    (sliceNat b 10 1)).odSet i 0x0A
    (sliceNat b 11 1)
  s.modRoll j fun r =>
    { formerStandby := r.formerStandby, keeper := r.keeper, peerAlive := r.peerAlive, standbyLost := r.standbyLost
      step := step % 2 ^ 24, held := true, isSealed := true, sendEpoch := sliceNat b 8 1, sealedEpoch := sliceNat b 8 1
      sealedSteps := [step % 2 ^ 24], kStep := step % 2 ^ 24, kFixed := true, kSealed := true }

/-- The segments have passed again: every extent is written, the watch entries after kinds 2 to 9, the state record
last. -/
def State.writeRestore (s : State) (j : Fin 16) (g : Nat) (xs : List Extent) : State :=
  let s := (xs.filter fun x => decide (2 ≤ x.kind)).foldl (fun s x => s.writeExtent j g x) s
  let s := (xs.filter fun x => x.kind == 1).foldl (fun s x => s.writeExtent j g x) s
  match xs.find? fun x => x.kind == 0 with
  | none => s
  | some x =>
    let r := s.areaRead j (g * s.genLength j + x.offset) x.length
    match r.1 with
    | some b => r.2.applyRecord j b
    | none => r.2

/-- RESTORE_DONE: the write pass ends with the state record applied, or stops at a digest (R429). -/
def execRestoreDone (j : Fin 16) (s : State) : Result :=
  if s.restState j ≠ 2 then .next s else
  if s.reading j then .next (if (s.rest j).asked.isEmpty then s.askPartner j else s) else
  let g := (s.rest j).gen
  match s.genHeaderAt j g with
  | (none, s) => .next (s.restFailed j 4 noSegment)
  | (some h, s) =>
    let e := s.areaRead j (g * s.genLength j + 0x1000) (32 * h.extents)
    let d := e.2.areaRead j (g * s.genLength j + 0x9000) (8 * h.segments)
    match e.1, d.1 with
    | some et, some dt =>
      let xs := (List.range h.extents).map (tableExtent et)
      let c := d.2.checkSegments j g dt xs
      match c.1 with
      | some (r, n) =>
        .next ((xs.foldl State.undefineExtent c.2).restFailed j (if r = 3 then 6 else r) n)
      | none => .next (((c.2.writeRestore j g xs).endReads j).setRestState j 3)
    | _, _ => .next (d.2.restFailed j 4 noSegment)

/-! ### Commands (R417, R428, R436) -/

/-- The conditions that refuse a restore (R428). -/
def State.restRefused (s : State) (j : Fin 16) : Bool :=
  !(s.framesOfJob j).isEmpty || s.contextOpen j.val (fun _ => true) || s.updatesOutstanding j.val || s.moveState j == 1

/-- RESTORE: the verify pass begins; from a partner by device-level READ (R429). -/
def execRestore (via : Path) (j : Fin 16) (s : State) : Result :=
  s.command via (restIndex j) 0x06 1 fun s =>
    if s.restState j = 1 ∨ s.restState j = 2 then (abortState, s)
    else if s.restRefused j then
      (abortState, (s.setRestState j 5).odSet (restIndex j) 0x08 (restResult 0 false 0 1 noSegment))
    else (0, (((s.setRestState j 1).odSet (restIndex j) 0x08 0).modRest j fun _ => {}).askPartner j)

/-- RESTORE_ABORT: a restore in progress fails with reason 5. -/
def execRestoreAbort (via : Path) (j : Fin 16) (s : State) : Result :=
  s.command via (restIndex j) 0x06 2 fun s =>
    (0, if s.restState j = 1 ∨ s.restState j = 2 then s.restFailed j 5 noSegment else s)

/-- TALLY_RESET: every context of the job is discarded (R321, R428). -/
def execTallyReset (via : Path) (j : Fin 16) (s : State) : Result :=
  s.command via (restIndex j) 0x06 3 fun s => (0, (s.ctxsOf j fun _ => true).foldl State.discardCtx s)

/-- The service of a weight resend request (R417). -/
def svcResend : Nat := 0x10

/-- WEIGHT_RESEND: the request goes to every device of the roll list (R417). -/
def execWeightResend (via : Path) (j : Fin 16) (s : State) : Result :=
  s.command via (restIndex j) 0x06 4 fun s => (0, (s.rollList j).foldl (fun s p => s.sendRoll j p.1 svcResend []) s)

/-- WEIGHT_RESEND_REQUEST_RECEIVE: the owner returns its buckets to the device, after the updates that are outstanding
(R417). -/
def execWeightResendRequestReceive (j : Fin 16) (dev : Nat) (s : State) : Result :=
  .next (if s.updatesOutstanding j.val then
      s.modRoll j fun r => { r with resends := if r.resends.contains dev then r.resends else r.resends ++ [dev] }
    else s.resendTo j dev)

end Sys2Proof.Machine
end

