-- ==== Sys2Proof/Machine/Links.lean ====
section
/-! DEFINITION. Links: the states of a link, training, lane tests and what the loss of a link does to its transactions
(R362–R365, R377, R379, R381–R385, R388). -/

namespace Sys2Proof.Machine

/-! ### What a requester does with its answer (R377, R379) -/

/-- A row of a LINK_WRITE has been answered; one that is refused or lost is not acknowledged as complete, so its token
goes on waiting (R132, R257, R265). -/
def State.linkWriteAnswered (s : State) (t row : Nat) (f : Fin 8) (peer : Nat) (bad : Bool) : State :=
  let s := if bad then s else s.modFrame f fun y => { y with writesOut := smod 0 y.writesOut peer (· - 1) }
  match (s.tile t).dma.running with
  | none => s
  | some op =>
    if dmaOp op.desc ≠ 5 then s else
    (s.rowDone t (if bad then some (busDevice (dmaDst op.desc + 512 * (row - dmaSrc op.desc))) else none)).pumpDma t f

/-- A request has been answered: its status, the tally status and E of an ACK of a segment, the data of an RDATA (R318,
R374, R375). -/
def State.completeRequest (s : State) (who : Requester) (status tally e : Nat) (data : List Byte) : State :=
  match who with
  | .dma t row f peer => s.linkWriteAnswered t row (frameIx f) peer (status != 0)
  | .tally j n q r =>
    if status ≠ 0 then s.tallyLost (jobIx j) n q r else s.tallyStatus (jobIx j) n q r tally (signed 12 e)
  | .notice => s
  | .weightReturn j b d f => s.returnAnswered j b d f status
  | .move j e i => s.moveAnswered (jobIx j) e i status
  | .snapshot j => s.snapAnswered (jobIx j) status
  | .snapHead j g => s.snapHeadRead (jobIx j) g status data
  | .restore j i => s.restoreRead (jobIx j) i status data
  | .abandoned => s

/-! ### Flits (R366, R367) -/

/-- The flit header fields. -/
def flitType (f : List Byte) : Nat := bits (sliceNat f 0 8) 0 4
def flitSeq (f : List Byte) : Nat := bits (sliceNat f 0 8) 4 12
def flitVc (f : List Byte) (i : Nat) : Nat := bits (sliceNat f 0 8) (16 + 3 * i) 3
def flitSop (f : List Byte) (i : Nat) : Bool := bit (sliceNat f 0 8) (37 + i)
def flitSlot (f : List Byte) (i : Nat) : List Byte := slice f (8 + 16 * i) 16

/-- The slots of a flit on a virtual channel, with their start marks. -/
def flitSlots (f : List Byte) (vc : Nat) : List (Bool × List Byte) :=
  (List.range 7).filterMap fun i => if flitVc f i = vc then some (flitSop f i, flitSlot f i) else none

/-! ### The loss of a link (R379) -/

/-- The header in the slot that begins a transaction. -/
def slotHeader (x : Bool × List Byte) : Option (BitVec 128) :=
  if x.1 then some (BitVec.ofNat 128 (leNat x.2)) else none

/-- The slots queued for a link or held in its retry buffer, per virtual channel. -/
def LinkSt.heldSlots (l : LinkSt) (vc : Nat) : List (Bool × List Byte) :=
  (l.retry.flatMap fun p => flitSlots p.2 vc) ++ sget [] l.tx vc

/-- The headers of the transactions queued for a link or held in its retry buffer, whole or in part. -/
def LinkSt.heldHeaders (l : LinkSt) : List (BitVec 128) :=
  (List.range 5).flatMap fun vc =>
    let slots := l.heldSlots vc
    (match slots with
      | (false, _) :: _ => [sget 0 l.begun vc]
      | _ => []) ++ slots.filterMap slotHeader

/-- The whole transactions of a receive buffer; `fuel` bounds their number. -/
def wholeTxns : (fuel : Nat) → List (Bool × List Byte) → List (Bool × List Byte)
  | 0, _ => []
  | fuel + 1, buf => match firstTxn buf with
    | none => []
    | some (x, rest) => txnSlots x ++ wholeTxns fuel rest

/-- One transaction that the link has lost: a relayed request is answered, what expects no answer is dropped; the
device's own requests complete by their tags. -/
def State.lostTxn (s : State) (h : BitVec 128) : State :=
  if kindAnswered (txnKind h) then (if txnSrc h = s.device then s else s.unroutable h)
  else s.count32 0x2B03 0x05

/-- Everything queued for a link, held in its retry buffer or waiting for one of its tags is lost (R379); the requests
that hold its tags complete, which gives the tags back (R419). -/
def State.linkLoss (s : State) (k : Fin 24) : State :=
  let l := s.link k
  let whos := l.tags.filterMap (·.2) ++ l.waits.map (·.1)
  let s := s.modLink k fun l => { l with
    tags := [], waits := [], begun := [], tx := [], retry := [], replay := [], replays := 0, credits := [],
      control := none, active := 0
    prbs := false, measured := [], nakDue := false, nakSent := false
    rx := l.rx.filterMap fun p =>
      let w := wholeTxns p.2.length p.2
      if w.isEmpty then none else some (p.1, w) }
  let s := l.heldHeaders.foldl State.lostTxn s
  whos.foldl (fun s w => s.completeRequest w 9 0 0 []) s

/-! ### Exits from UP (R381, R388) -/

/-- A link leaves its state; an exit from UP is recorded with its cause and logged (R381, R432). -/
def State.leaveUp (s : State) (k : Fin 24) (next : LinkState) (cause : Nat) : State :=
  let wasUp := (s.link k).st == .up
  let s := s.modLink k fun l => { l with st := next, cause := cause }
  if wasUp then s.logEvent 0x0403 (k.val + cause * 2 ^ 8) else s

/-- A link goes DOWN, DISABLED or FAILED, and its transactions are lost. -/
def State.dropLink (s : State) (k : Fin 24) (next : LinkState) (cause : Nat) : State :=
  (s.leaveUp k next cause).linkLoss k

/-- CONTROL codes (R367). -/
def ctlTestReq : Nat := 1
def ctlTestAck : Nat := 2
def ctlTestResult : Nat := 3
def ctlRetrain : Nat := 4
def ctlCaps : Nat := 5
def ctlCreditInit : Nat := 6
def ctlResume : Nat := 7

/-- The CRC-8 of a sideband (R368). -/
def sidebandCrc (w : Nat) : Nat := (leBytes 3 w).foldl (crcMsbByte 8 0x07) 0

/-- The sideband a link sends next (R368). -/
def LinkSt.sideband (l : LinkSt) : Nat :=
  let w := (l.rxSeq + 4095) % 4096 + b2n l.rxValid * 2 ^ 12 + b2n l.nakDue * 2 ^ 13 + l.cvc * 2 ^ 14 +
    sget 0 l.freed l.cvc % 128 * 2 ^ 17
  w + sidebandCrc w * 2 ^ 24

/-- The state after a sideband has been sent. -/
def LinkSt.sidebandSent (l : LinkSt) : LinkSt :=
  { l with nakDue := false, nakSent := l.nakSent || l.nakDue, cvc := (l.cvc + 1) % 5 }

/-- Bytes 0 to 123 of a flit: header, payload and CRC (R366). -/
def flitBody (header : Nat) (payload : List Byte) : List Byte :=
  let b := leBytes 8 header ++ payload ++ zeroBytes (112 - payload.length)
  b ++ leBytes 4 (crc32c b)

/-- A flit leaves with the present sideband. -/
def State.sendFlit (s : State) (k : Fin 24) (body : List Byte) : State :=
  (s.emit (.flit k.val (body ++ leBytes 4 (s.link k).sideband))).modLink k LinkSt.sidebandSent

/-- The SVC field of a flit without slots (R367). -/
def noSlots : Nat := (2 ^ 21 - 1) * 2 ^ 16

/-- What a CONTROL flit carries (R382, R383, R385), in the model's own layout (log entry 30). -/
def State.controlBytes (s : State) (k : Fin 24) (code : Nat) : List Byte :=
  let l := s.link k
  if code = ctlCaps then
    leBytes 2 s.device ++ leBytes 1 k.val ++ leBytes 1 l.retired.toNat ++ leBytes 1 (s.odGet (linkIndex k) 0x03 0) ++
      leBytes 1 1
  else if code = ctlTestResult then l.measured.flatMap fun m =>
    leBytes 1 m.lane.val ++ leBytes 4 m.errors ++ leBytes 2 m.horizontal ++ leBytes 2 m.vertical
  else if code = ctlResume then leBytes 2 ((l.rxSeq + 4095) % 4096)
  else []

/-- A CONTROL flit is sent (R367). -/
def State.controlFlit (s : State) (k : Fin 24) (code : Nat) : State :=
  s.sendFlit k (flitBody (2 + noSlots + code * 2 ^ 48) (s.controlBytes k code))

/-- A CONTROL flit is sent, and again every microsecond until it is answered. -/
def State.sendControl (s : State) (k : Fin 24) (code : Nat) : State :=
  (s.modLink k fun l => { l with control := some code }).controlFlit k code

/-- CONTROL_FLIT_RESEND (R367). -/
def execControlFlitResend (k : Fin 24) (s : State) : Result :=
  match (s.link k).control with
  | some code => .next (s.controlFlit k code)
  | none => .next s

/-- The link begins a retrain, on its own account or for the peer's RETRAIN (R381, R382). -/
def State.startRetrain (s : State) (k : Fin 24) (cause : Nat) (own : Bool) : State :=
  let keep := (s.link k).cause
  let s := s.leaveUp k .retraining (if (s.link k).st = .up then cause else keep)
  let s := (s.modLink k fun l => { l with replays := 0, prbs := false, measured := [] }).count32 (linkIndex k + 3) 0x07
  s.sendControl k (if own then ctlRetrain else ctlCaps)

/-! ### Training (R364, R381, R382, R465) -/

/-- The link enters TRAINING: sequence numbers, buffers and credits start anew (R371, R382). -/
def State.startTraining (s : State) (k : Fin 24) : State :=
  let s := s.modLink k fun l => { l with
    st := .training, txSeq := 0, retry := [], replay := [], replays := 0, rxSeq := 0, rxValid := false, nakDue := false
    nakSent := false, rx := [], tx := [], begun := [], credits := [], freed := [], seen := [], cvc := 0,
      wrr := (2, 0), active := 0 }
  s.sendControl k ctlCaps

/-- The buffers of the peer granted whole (R371). -/
def LinkSt.granted (l : LinkSt) : LinkSt :=
  { l with credits := (List.range 5).foldl (fun m vc => sput 0 m vc (vcBuffer vc)) [], seen := [] }

/-- A command of OD L+0.01. -/
def State.linkCommand (s : State) (via : Path) (k : Fin 24) (v : Nat) (ok : Bool) (body : State → State) : Result :=
  s.command via (linkIndex k) 0x01 v fun s => if ok then (0, body s) else (abortState, s)

/-- LINK_TRAIN (R381, R465). -/
def execLinkTrain (via : Path) (k : Fin 24) (s : State) : Result :=
  s.linkCommand via k 1 ((s.link k).st == .disabled && !s.clock.onInternal) fun s => s.startTraining k

/-- LINK_DISABLE (R379, R381). -/
def execLinkDisable (via : Path) (k : Fin 24) (s : State) : Result :=
  s.linkCommand via k 2 true fun s => if (s.link k).st = .disabled then s else s.dropLink k .disabled 1

/-- LINK_RETRAIN (R381). -/
def execLinkRetrain (via : Path) (k : Fin 24) (s : State) : Result :=
  s.linkCommand via k 3 ((s.link k).st == .up) fun s => s.startRetrain k 0 true

/-- CLEAR_RETIREMENTS (R385). -/
def execClearRetirements (via : Path) (k : Fin 24) (s : State) : Result :=
  s.command via (linkIndex k) 0x02 0xC3 fun s =>
    if (s.link k).st = .disabled then (0, s.modLink k fun l => { l with retired := 0 }) else (abortState, s)

/-- Training ends in DOWN with a cause (R381). -/
def State.trainingFailed (s : State) (k : Fin 24) (cause : Nat) : State :=
  s.modLink k fun l => { l with st := .down, cause := cause, control := none }

/-- What fails of the peer's CAPS (R382): a cause of L+1.05, 0 for none. -/
def State.capsCause (s : State) (k : Fin 24) (c : CapsData) : Nat :=
  if c.device = s.device then 3
  else if c.version ≠ 1 ∨ c.reach ≠ s.odGet (linkIndex k) 0x03 0 then 4 else 0

def State.notePeer (s : State) (k : Fin 24) (c : CapsData) : State :=
  s.modLink k fun l => { l with peerDevice := c.device % 2 ^ 12, peerLink := c.link % 256,
                                peerRetired := c.retired % 16 }

/-- Lanes in a mask. -/
def laneCount (m : BitVec 4) : Nat := (List.range 4).countP fun i => m.getLsbD i

/-- TRAINING_COMPLETE: the checks of R382 (R364, R365, R381). -/
def execTrainingComplete (k : Fin 24) (r : TrainResult) (s : State) : Result :=
  if (s.link k).st ≠ .training then .next s else
  let c := s.capsCause k r.caps
  let lanes := r.lanes &&& ~~~(s.link k).retired &&& ~~~(BitVec.ofNat 4 r.caps.retired)
  if c ≠ 0 then .next (s.trainingFailed k c)
  else if laneCount lanes < 2 then .next (s.trainingFailed k 5)
  else .next ((s.notePeer k r.caps).modLink k fun l =>
    { l.granted with st := .up, active := lanes, reversal := r.reversal, inverted := r.inverted, control := none })

/-- TRAINING_TIMEOUT. -/
def execTrainingTimeout (k : Fin 24) (s : State) : Result :=
  .next (if (s.link k).st = .training then s.trainingFailed k 2 else s)

/-- AUTO_RETRAIN (R381, R465). -/
def execAutoRetrain (k : Fin 24) (s : State) : Result :=
  .next (if (s.link k).st = .down && s.odGet 0x2B02 0x08 1 == 1 && !s.clock.onInternal then s.startTraining k else s)

/-- CAPS: the peer's device number, version and reach class; a retrain repeats the exchange (R382). -/
def execCaps (k : Fin 24) (c : CapsData) (s : State) : Result :=
  match (s.link k).st with
  | .training =>
    let e := s.capsCause k c
    if e ≠ 0 then .next (s.trainingFailed k e) else .next ((s.notePeer k c).sendControl k ctlCreditInit)
  | .retraining =>
    let s := s.notePeer k c
    .next (if (s.link k).control = some ctlCaps then s else s.sendControl k ctlCaps)
  | _ => .next s

/-- CREDIT_INIT: the full buffers are granted (R371). -/
def execCreditInit (k : Fin 24) (s : State) : Result :=
  .next (if (s.link k).st = .training then s.modLink k LinkSt.granted else s)

/-! ### Retraining and replay (R370, R381, R385) -/

/-- Flits the acknowledgement of sequence number `a` leaves (R368). -/
def unacked (a : Nat) (q : List (Nat × List Byte)) : List (Nat × List Byte) :=
  q.filter fun p => !(decide ((a + 4096 - p.1 % 4096) % 4096 < 2048))

/-- The transactions that an acknowledged flit begins. -/
def noteBegun (m : SMap (BitVec 128)) (p : Nat × List Byte) : SMap (BitVec 128) :=
  (List.range 5).foldl (fun m vc => match ((flitSlots p.2 vc).filterMap slotHeader).getLast? with
    | some h => sput 0 m vc h
    | none => m) m

/-- An acknowledgement is taken (R370). -/
def LinkSt.acked (l : LinkSt) (a : Nat) : LinkSt :=
  let q := unacked a l.retry
  { l with
    begun := (l.retry.filter fun p => !(q.contains p)).foldl noteBegun l.begun
    retry := q, replay := unacked a l.replay, replays := if q.length < l.retry.length then 0 else l.replays }

/-- A link comes back to UP: it sends RESUME, until the peer's answers it, and replays what is held (R367, R381,
R385). -/
def State.resumeLink (s : State) (k : Fin 24) : State :=
  (s.modLink k fun l => { l with st := .up, replay := l.retry, prbs := false, measured := [] }).sendControl k ctlResume

/-- RETRAINING_COMPLETE. -/
def execRetrainingComplete (k : Fin 24) (s : State) : Result :=
  .next (if (s.link k).st = .retraining then s.resumeLink k else s)

/-- RETRAINING_TIMEOUT (R379, R381). -/
def execRetrainingTimeout (k : Fin 24) (s : State) : Result :=
  .next (if (s.link k).st = .retraining then s.dropLink k .down (s.link k).cause else s)

/-- PEER_SILENT (R379, R381). -/
def execPeerSilent (k : Fin 24) (s : State) : Result :=
  .next (if (s.link k).carries then s.dropLink k .down 7 else s)

/-- CODEWORD_LOCK_LOST: the codewords that could not be corrected are counted, and the link retrains (R381, R388). -/
def execCodewordLockLost (k : Fin 24) (codewords : Nat) (s : State) : Result :=
  let s := s.odAdd 32 (linkIndex k + 3) 0x04 codewords
  .next (if (s.link k).st = .up then s.startRetrain k 6 true else s)

/-- RETRAIN: the peer's CONTROL RETRAIN (R381). -/
def execRetrain (k : Fin 24) (s : State) : Result :=
  .next (if (s.link k).st = .up then s.startRetrain k 0 false else s)

/-- RESUME: the transmitter replays from the next sequence number after the peer's ACK_SEQ (R385). It answers this end's
RESUME; where none is waiting for an answer, the peer's is answered (log entry 30). -/
def execResume (k : Fin 24) (ackSeq : BitVec 12) (s : State) : Result :=
  if (s.link k).st ≠ .up then .next s else
  let waiting := (s.link k).control == some ctlResume
  let s := s.modLink k fun l =>
    let m := l.acked ackSeq.toNat
    { m with replay := m.retry, control := if waiting then none else m.control }
  .next (if waiting then s else s.controlFlit k ctlResume)

/-- A replay starts; the eighth in a row without progress is a retrain instead (R370). -/
def State.startReplay (s : State) (k : Fin 24) : State :=
  let n := (s.link k).replays + 1
  let s := (s.modLink k fun l => { l with replay := l.retry, replays := n }).count32 (linkIndex k + 3) 0x06
  if 8 ≤ n then s.startRetrain k 8 true else s

/-- REPLAY_TIMEOUT. -/
def execReplayTimeout (k : Fin 24) (s : State) : Result :=
  .next (if (s.link k).st = .up ∧ (s.link k).retry ≠ [] then s.startReplay k else s)

/-! ### Lane tests (R383, R384) -/

/-- The link starts a lane test (R383). -/
def State.startTest (s : State) (k : Fin 24) : State :=
  let s := (s.leaveUp k .testing 0).count32 (linkIndex k + 3) 0x08
  (s.modLink k fun l => { l with prbs := false, measured := [] }).sendControl k ctlTestReq

/-- LANE_TEST (R381). -/
def execLaneTest (via : Path) (k : Fin 24) (s : State) : Result :=
  s.linkCommand via k 4 ((s.link k).st == .up) fun s => s.startTest k

/-- The failures and corrected symbols counted within the burst window, these included; a link that is UP starts a test
where either exceeds its threshold (R383). -/
def State.noteBurst (s : State) (k : Fin 24) (failures : Nat) (symbols : List Nat) : State :=
  let window := usToCycles (s.odGet 0x2B02 0x04 1000)
  let notes := (⟨s.supCycles, failures, symbols⟩ : FecNote) ::
    (s.link k).fec.filter fun x => decide (s.supCycles < x.since + window)
  let total := notes.foldl (fun n x => n + x.failures) 0
  let lane (i : Nat) : Nat := notes.foldl (fun n x => n + x.symbols.getD i 0) 0
  let exceeded := decide (s.odGet 0x2B02 0x03 8 < total) ||
    (List.range 4).any fun i => decide (s.odGet 0x2B02 0x0A 65536 < lane i)
  let s := s.modLink k fun l => { l with fec := if exceeded then [] else notes }
  if exceeded && (s.link k).st == .up then s.startTest k else s

/-- BURST_THRESHOLD: the decoder's counts since its last report: codewords it could not correct, and symbols it
corrected per lane (R383, R388). -/
def execBurstThreshold (k : Fin 24) (codewords : Nat) (symbols : List Nat) (s : State) : Result :=
  let s := s.odAdd 32 (linkIndex k + 3) 0x04 codewords
  let s := s.odAdd 64 (linkIndex k + 3) 0x05 (symbols.foldl (· + ·) 0)
  .next (s.noteBurst k codewords symbols)

/-- TEST_REQ: the peer's request is answered, and PRBS31 is sent (R383). -/
def execTestReq (k : Fin 24) (s : State) : Result :=
  let l := s.link k
  if l.st = .up then
    .next ((((s.leaveUp k .testing 0).count32 (linkIndex k + 3) 0x08).modLink k fun l =>
      { l with prbs := true, measured := [] }).sendControl k ctlTestAck)
  else if l.st = .testing ∧ l.measured = [] then
    .next ((s.modLink k fun l => { l with prbs := true }).sendControl k ctlTestAck)
  else .next s

/-- TEST_ACK: both ends send PRBS31 (R383). -/
def execTestAck (k : Fin 24) (s : State) : Result :=
  .next (if (s.link k).st = .testing ∧ (s.link k).control = some ctlTestReq then
    s.modLink k fun l => { l with prbs := true, control := none } else s)

/-- TEST_REQ_TIMEOUT (R383). -/
def execTestReqTimeout (k : Fin 24) (s : State) : Result :=
  .next (if (s.link k).st = .testing ∧ (s.link k).control = some ctlTestReq then s.startRetrain k 0 true else s)

/-- PRBS_TEST_COMPLETE: each receiver's measurements, which go to the peer (R383). -/
def execPrbsTestComplete (k : Fin 24) (lanes : List LaneMeasure) (s : State) : Result :=
  if (s.link k).st ≠ .testing || !(s.link k).prbs || lanes.isEmpty then .next s else
  let s := s.modLink k fun l => { l with
    prbs := false, measured := lanes
    lanes := lanes.foldl (fun v m => v.set m.lane.val { v[m.lane.val] with
      errors := min m.errors 0xFFFF, horizontal := min m.horizontal 0xFF, vertical := min m.vertical 0xFF }) l.lanes }
  .next (s.sendControl k ctlTestResult)

/-- A receiver's measurement of a lane is within the limits (R384). -/
def State.measureOk (s : State) (lane : Nat) (ms : List LaneMeasure) : Bool :=
  match ms.find? fun m => m.lane.val == lane with
  | none => false
  | some m => decide (m.errors ≤ s.odGet 0x2B02 0x05 64) && decide (s.odGet 0x2B02 0x06 26 ≤ m.horizontal) &&
      decide (s.odGet 0x2B02 0x07 8 ≤ m.vertical)

/-- A minute in supervisor cycles. -/
def passWindow : Nat := usToCycles 60000000

/-- A lane passes a test; whether it is kept (R384: not at its fourth pass in 60 s). -/
def Lane.pass (x : Lane) (now : Nat) : Lane × Bool :=
  let ps := now :: x.passes.filter fun t => decide (now < t + passWindow)
  ({ x with passed := satAdd 8 x.passed 1, passes := ps }, decide (ps.length < 4))

/-- One active lane is judged: kept, or retired at both ends and written to the flash (R384, R385). -/
def State.judgeLane (s : State) (k : Fin 24) (peer : List LaneMeasure) (lane : Fin 4) : State :=
  let l := s.link k
  let q : Lane × Bool :=
    if s.measureOk lane.val l.measured && s.measureOk lane.val peer then l.lanes[lane.val].pass s.supCycles
    else (l.lanes[lane.val], false)
  let s := s.modLink k fun l => { l with lanes := l.lanes.set lane.val q.1 }
  if q.2 then s
  else (s.modLink k fun l => { l with
    retired := l.retired ||| (1 : BitVec 4) <<< lane.val,
      active := l.active &&& ~~~((1 : BitVec 4) <<< lane.val) }).logEvent
    0x0401 (k.val + lane.val * 2 ^ 5)

/-- TEST_RESULT: the exchanged results keep or retire the lanes (R381, R384, R385). -/
def execTestResult (k : Fin 24) (peer : List LaneMeasure) (s : State) : Result :=
  let l := s.link k
  if l.st ≠ .testing || l.measured.isEmpty then .next s else
  let before := l.active
  let s := ((List.finRange 4).filter fun i => before.getLsbD i.val).foldl (fun s i => s.judgeLane k peer i) s
  let left := (s.link k).active
  if left = before then .next ((s.logEvent 0x0400 k.val).resumeLink k)
  else if 2 ≤ laneCount left then .next (s.startRetrain k 0 false)
  else .next ((s.dropLink k .failed 5).logEvent 0x0402 k.val)

end Sys2Proof.Machine
end

