-- ==== Sys2Proof/Machine/Can.lean ====
section
/-! DEFINITION. Can: the CAN node: NMT, heartbeats, EMCY frames, bus errors and its clock; the error history (R71–R78,
R82, R461, R500). -/

namespace Sys2Proof.Machine

/-! ### On the bus (R72, R74, R78, R461) -/

/-- The node takes part in the traffic of the bus. -/
def CanNode.onBus (c : CanNode) : Bool := !c.offBus && !c.busOff

/-- The node serves USDO (R74). -/
def CanNode.servesUsdo (c : CanNode) : Bool := c.nmt == .preOperational || c.nmt == .operational

/-- A USDO response frame, sent while the node is on the bus (R72, R73). -/
def State.sendUsdo (s : State) (client key code : Nat) (data : List Byte) : State :=
  if s.can.onBus then s.emit (.usdo (0x580 + s.can.nodeId) client key code data) else s

/-- An NMT command names the node: its own number, or 0 for every node (CiA 301). -/
def CanNode.named (c : CanNode) (node : BitVec 7) : Bool :=
  c.onBus && c.nmt != .initialisation && (node.toNat == 0 || node.toNat == c.nodeId)

/-- The heartbeat code of R74. -/
def Nmt.code : Nmt → Nat
  | .initialisation => 0x00
  | .preOperational => 0x7F
  | .operational => 0x05
  | .stopped => 0x04

/-- A heartbeat or boot-up frame (R73). -/
def State.sendHeartbeat (s : State) (code : Nat) : State :=
  if s.can.onBus then s.emit (.can (0x700 + s.can.nodeId) [BitVec.ofNat 8 code]) else s

def State.setNmt (s : State) (n : Nmt) : State := { s with can := { s.can with nmt := n } }

/-- An NMT command that moves the node (R74). -/
def State.nmtCommand (s : State) (node : BitVec 7) (n : Nmt) : Result :=
  .next (if s.can.named node then s.setNmt n else s)

/-- START_REMOTE_NODE (R74). -/
def execStartRemoteNode (node : BitVec 7) (s : State) : Result := s.nmtCommand node .operational
/-- STOP_REMOTE_NODE (R74). -/
def execStopRemoteNode (node : BitVec 7) (s : State) : Result := s.nmtCommand node .stopped
/-- ENTER_PRE_OPERATIONAL (R74). -/
def execEnterPreOperational (node : BitVec 7) (s : State) : Result := s.nmtCommand node .preOperational

/-! ### The saved set as it is loaded (R61, R65) -/

/-- The copy in force: the valid one with the higher sequence. -/
def Flash.inForce (f : Flash) : SavedCopy :=
  if f.copyA.valid && (!f.copyB.valid || decide (f.copyB.sequence ≤ f.copyA.sequence)) then f.copyA
  else if f.copyB.valid then f.copyB else {}

/-- The cells of a saved entry row: index, subindex, default. -/
def Entry.savedCells (e : Entry) : List (Nat × Nat × Nat) :=
  (List.range e.count).flatMap fun k =>
    (List.range (e.hi - e.lo + 1)).map fun j => (e.index + e.step * k, e.lo + j, e.default)

/-- The saved entries with an index in `[lo, hi]`. -/
def savedEntries (lo hi : Nat) : List Entry :=
  dictionary.filter fun e => e.saved && decide (lo ≤ e.index) && decide (e.index ≤ hi)

/-- The saved entries of a range take their saved values, or their defaults (R65). -/
def State.loadSaved (s : State) (lo hi : Nat) : State :=
  let c := s.flash.inForce
  (savedEntries lo hi).foldl (fun s e =>
    if e.type.scalar then
      e.savedCells.foldl (fun (s : State) p =>
        { s with od := sput none s.od (odKey p.1 p.2.1) (sget none c.values (odKey p.1 p.2.1)) }) s
    else { s with tables := sput [] s.tables e.index (sget [] c.tables e.index) }) s

/-- A reset communication (R71, R72, R74): the effects of NMT command 0x82 with the straps as read. -/
def State.resetCommunication (s : State) (strap : BitVec 7) : State :=
  let s := { s with sessions := s.sessions.filter fun x => match x.who with | .can _ => false | _ => true }
  let s := s.loadSaved 0x1000 0x1FFF
  let s := { s with can := { s.can with
    nodeId := strap.toNat, dataRate := s.odGet 0x1E41 0x03 5, nmt := .preOperational } }
  s.sendHeartbeat 0

/-- RESET_COMMUNICATION (R74). -/
def execResetCommunication (node strap : BitVec 7) (s : State) : Result :=
  .next (if s.can.named node then s.resetCommunication strap else s)

/-! ### Heartbeats (R75) -/

/-- HEARTBEAT_PRODUCE: the producer time has passed (R74, R75). -/
def execHeartbeatProduce (s : State) : Result :=
  .next (if s.odGet 0x1017 0 1000 = 0 ∨ s.can.nmt = .initialisation then s else s.sendHeartbeat s.can.nmt.code)

/-- The node and the time of a heartbeat consumer (R82). -/
def State.consumerNode (s : State) (c : Nat) : Nat := bits (s.odGet 0x1016 (c + 1) 0) 16 7
def State.consumerTime (s : State) (c : Nat) : Nat := bits (s.odGet 0x1016 (c + 1) 0) 0 16

/-- HEARTBEAT_RECEIVE: a watched node's heartbeat; the condition clears when every one has returned (R75, R500). -/
def execHeartbeatReceive (node : BitVec 7) (s : State) : Result :=
  if !s.can.onBus then .next s else
  let left := s.can.timedOut.filter fun c => s.consumerNode c != node.toNat || s.consumerTime c == 0
  if left = s.can.timedOut then .next s else
  let s := { s with can := { s.can with timedOut := left } }
  .next (if left.isEmpty then s.clearCondition 0x8130 else s)

/-- HEARTBEAT_CONSUMER_TIMEOUT: a watched heartbeat is absent for longer than its time (R75, R432). -/
def execHeartbeatConsumerTimeout (c : Fin 4) (s : State) : Result :=
  if s.consumerTime c.val = 0 ∨ s.can.timedOut.contains c.val then .next s
  else .next (({ s with can := { s.can with timedOut := c.val :: s.can.timedOut } }).logEvent 0x0B00
    (2 + s.consumerNode c.val * 2 ^ 8))

/-! ### EMCY frames (R76) -/

/-- EMCY_SEND: the inhibit time has passed and the oldest event leaves the queue: as a frame, or unsent where none can
be sent; while bus-off it waits. -/
def execEmcySend (s : State) : Result :=
  match s.can.queue with
  | [] => .next s
  | e :: rest =>
    let s' := { s with can := { s.can with queue := rest } }
    if s.can.cannotSend then .next s'
    else if s.can.busOff then .next s
    else .next (s'.emit (.can (0x80 + s.can.nodeId)
      (leBytes 2 e.code ++ leBytes 1 s.can.errorRegister ++ leBytes 2 e.event ++ leBytes 4 e.detail)))

/-! ### Bus errors (R71, R77, R78, R500) -/

/-- CAN_BUS_ERROR: the controller's error counters after an error on the bus. -/
def execCanBusError (tec recv : Nat) (s : State) : Result :=
  if !s.can.onBus then .next s else
  let passive := decide (128 ≤ tec) || decide (128 ≤ recv)
  let was := s.can.passive
  let s := { s with can := { s.can with
    txErr := min tec 255, rxErr := min recv 255, passive := passive, busOff := decide (256 ≤ tec) } }
  .next (if passive && !was then s.logEvent 0x0B00 1 else if was && !passive then s.clearCondition 0x8120 else s)

/-- BUS_OFF_RECOVERY: the controller rejoins the bus, error active (R78). -/
def execBusOffRecovery (s : State) : Result :=
  if !s.can.busOff then .next s else
  let s := { s with can := { s.can with busOff := false, txErr := 0, rxErr := 0, passive := false } }
  .next (((s.clearCondition 0x8120).count32 0x1E41 0x06).logEvent 0x0B00 3)

/-- CAN_RECEIVE_OVERRUN (R77). -/
def execCanReceiveOverrun (s : State) : Result := .next (if s.can.onBus then s.logEvent 0x0B00 0 else s)

/-- The CAN clock: from the PCIe reference, else from the chosen source while it is in use, else none (R461). -/
def State.fixCanClock (s : State) : State :=
  { s with can := { s.can with clockless := !s.clock.pcieRefclk && s.clock.onInternal } }

/-- PCIE_REFCLK_CHANGE (R461). -/
def execPcieRefclkChange (good : Bool) (s : State) : Result :=
  .next ({ s with clock := { s.clock with pcieRefclk := good } }).fixCanClock

/-! ### The error history (R82, R500) -/

/-- ERROR_HISTORY_CLEAR: the history empties, and held events are released. -/
def execErrorHistoryClear (via : Path) (s : State) : Result :=
  s.command via 0x1003 0x00 0 fun s =>
    let any := !s.can.held.isEmpty
    let s := { s with can := { s.can with history := [], held := [] } }
    (0, if any then s.queueEmcy ⟨0, 0, 0⟩ else s)

end Sys2Proof.Machine
end

