-- ==== Sys2Proof/Machine/Mailbox.lean ====
section
/-! DEFINITION. Mailbox: mailbox pairs and doorbells (R236–R238, R446, R447, R455, R502). -/

namespace Sys2Proof.Machine

/-- A host access reaches the endpoint: PERST_N is high, the link is up and the function is awake (R502; log entry
21). -/
def State.hostReaches (s : State) : Bool := s.host.perstHigh && s.host.linkUp && !s.host.d3hot && !s.host.l2

/-- Start-up has not come to the end of its step 7, and the module is not in recovery (R492, R495, R502). -/
def State.startingUp (s : State) : Bool := !s.sup.ready && !s.sup.recovery && !s.sup.asleep

/-- A write of the host to BAR0 or BAR2: it does nothing where no access reaches the device, and is dropped uncounted
during start-up (R502). -/
def hostAccess (s : State) (body : State) : Result := .next (if s.hostReaches && !s.startingUp then body else s)

/-! ### Queues (R236) -/

def State.mailPair (s : State) (i : Fin 8) : MailPair := sget {} s.mail i.val
def State.setMail (s : State) (i : Fin 8) (m : MailPair) : State := { s with mail := sput {} s.mail i.val m }

/-- A word is pushed; a full queue drops it and records the overflow (R236). -/
def Mailbox.push (m : Mailbox) (w : W32) : Mailbox :=
  if m.words.length < 16 then { m with words := m.words ++ [w] } else { m with overflow := true }

/-- The receiver takes the head word; TIMEOUT clears (R236, R237). An empty queue answers 0 and stays. -/
def Mailbox.pop (m : Mailbox) : W32 × Mailbox :=
  match m.words with
  | [] => (0, m)
  | w :: ws => (w, { m with words := ws, timeout := false })

/-- The queue holds 16 words (R236). -/
def Mailbox.full (m : Mailbox) : Bool := decide (16 ≤ m.words.length)

/-- OD 0x2712.01 counts a write that was dropped. -/
def State.countOverflow (s : State) (m : Mailbox) : State := if m.full then s.count32 0x2712 0x01 else s

/-- H2S_DATA: the host pushes a word (R236, R446). -/
def execH2sData (i : Fin 8) (w : W32) (s : State) : Result :=
  let p := s.mailPair i
  hostAccess s ((s.countOverflow p.h2s).setMail i { p with h2s := p.h2s.push w })

/-- S2H_DATA: the host takes the head word (R236, R446). -/
def execS2hData (i : Fin 8) (s : State) : Result :=
  let p := s.mailPair i
  let r := p.s2h.pop
  hostAccess s ((s.setMail i { p with s2h := r.2 }).emit (.mailbox i.val r.1))

/-- SUPERVISOR_MAILBOX_WRITE: the supervisor pushes a word; the first one raises the pair's vector (R236,
R237). -/
def execSupervisorMailboxWrite (i : Fin 8) (w : W32) (s : State) : Result :=
  let p := s.mailPair i
  let s' := (s.countOverflow p.s2h).setMail i { p with s2h := p.s2h.push w }
  .next (if p.s2h.words.isEmpty then s'.raise (2 + i.val) else s')

/-- SUPERVISOR_MAILBOX_READ: the supervisor takes the head word (R236, R237). -/
def execSupervisorMailboxRead (i : Fin 8) (s : State) : Result :=
  let p := s.mailPair i
  let r := p.h2s.pop
  .next ((s.setMail i { p with h2s := r.2 }).emit (.mailbox (8 + i.val) r.1))

/-- MB_CLEAR: the host clears H2S TIMEOUT, H2S overflow and S2H overflow (R446); the supervisor, as sender of the S2H
queue, clears S2H TIMEOUT in bit 14 (R237; log entry 99). -/
def execMbClear (i : Fin 8) (host : Bool) (w : W32) (s : State) : Result :=
  let p := s.mailPair i
  if !host then .next (s.setMail i { p with s2h := { p.s2h with timeout := p.s2h.timeout && !bit w.toNat 14 } })
  else hostAccess s (s.setMail i { p with
    h2s := { p.h2s with
      timeout := p.h2s.timeout && !bit w.toNat 6
      overflow := p.h2s.overflow && !bit w.toNat 7 }
    s2h := { p.s2h with overflow := p.s2h.overflow && !bit w.toNat 15 } })

/-! ### Timeouts (R237) -/

/-- The host as a receiver: 0 ready, 1 in reset, 2 asleep (R237). -/
def State.hostReceiver (s : State) : Nat :=
  if !s.host.perstHigh || !s.host.linkUp then 1 else if s.host.d3hot || s.host.l2 then 2 else 0

/-- The supervisor as a receiver (R237). -/
def State.supervisorReceiver (s : State) : Nat := if s.sup.asleep then 2 else if s.sup.ready then 0 else 1

/-- MAILBOX_TIMEOUT: a queue that holds words has not been read within the mailbox timeout (R237). -/
def execMailboxTimeout (i : Fin 8) (h2s : Bool) (s : State) : Result :=
  let p := s.mailPair i
  if h2s then
    if p.h2s.words.isEmpty ∨ p.h2s.timeout then .next s
    else .next (((s.setMail i { p with
        h2s := { p.h2s with timeout := true }, supState := s.supervisorReceiver }).count32 0x2712 0x02).raise
          (2 + i.val))
  else if p.s2h.words.isEmpty ∨ p.s2h.timeout then .next s
  else .next ((s.setMail i { p with
      s2h := { p.s2h with timeout := true }, hostState := s.hostReceiver }).count32 0x2712 0x02)

/-! ### Doorbells (R238, R444, R447, R455) -/

/-- DB_H2S: the host sets bits for the supervisor. -/
def execDbH2s (w : W64) (s : State) : Result :=
  hostAccess s { s with host := { s.host with dbH2s := s.host.dbH2s ||| w } }

/-- DB_S2H: the host clears bits of the supervisor. -/
def execDbS2h (w : W64) (s : State) : Result :=
  hostAccess s { s with host := { s.host with dbS2h := s.host.dbS2h &&& ~~~w } }

/-- Bits of DB_S2H set; vector 10 where a bit goes from 0 to 1 (R238, R455). -/
def State.ringHost (s : State) (w : W64) : State :=
  let s' := { s with host := { s.host with dbS2h := s.host.dbS2h ||| w } }
  if w &&& ~~~s.host.dbS2h = 0 then s' else s'.raise 10

/-- SUPERVISOR_DOORBELL_SET: bits 0 to 62; bit 63 is set only by the dictionary window (R447). -/
def execSupervisorDoorbellSet (w : W64) (s : State) : Result := .next (s.ringHost (w &&& 0x7FFFFFFFFFFFFFFF))

/-- SUPERVISOR_DOORBELL_CLEAR: the supervisor clears bits the host has set. -/
def execSupervisorDoorbellClear (w : W64) (s : State) : Result :=
  .next { s with host := { s.host with dbH2s := s.host.dbH2s &&& ~~~w } }

/-- OD 0x2711 and MB_STATUS of a pair (R239). -/
def State.mailStatus (s : State) (i : Fin 8) : Nat :=
  let p := s.mailPair i
  p.h2s.words.length + b2n p.h2s.full * 2 ^ 5 + b2n p.h2s.timeout * 2 ^ 6 + b2n p.h2s.overflow * 2 ^ 7 +
    p.s2h.words.length * 2 ^ 8 + b2n p.s2h.full * 2 ^ 13 + b2n p.s2h.timeout * 2 ^ 14 + b2n p.s2h.overflow * 2 ^ 15 +
    p.supState * 2 ^ 16 + p.hostState * 2 ^ 18

end Sys2Proof.Machine
end

