-- ==== Sys2Proof/Machine/Answer.lean ====
section
/-! DEFINITION. Answer: how an access from the request queue is answered: the registers of the dictionary window, a
USDO response, or an MRESP (R73, R374, R444, R445, R58, R60). -/

namespace Sys2Proof.Machine

/-! ### The dictionary window (R444, R445) -/

/-- What the window captures beside the value: DW_CTL, DW_LEN and DW_BUF, with the mark that its result is wanted. -/
def windowClient (ctl len buf : Nat) : Nat :=
  1 + b2n (bit ctl 2) * 2 + b2n (bit ctl 3) * 4 + len % 2 ^ 32 * 8 + buf * 2 ^ 35

/-- The result of a window access is wanted: no host reset has come since (R456). -/
def windowLive (c : Nat) : Bool := bit c 0
def windowBuffered (c : Nat) : Bool := bit c 1
def windowBell (c : Nat) : Bool := bit c 2
def windowLen (c : Nat) : Nat := bits c 3 32
def windowBuf (c : Nat) : Nat := c / 2 ^ 35

/-- DW_DATA whole. -/
def Window0.bytes (w : Window0) : List Byte := slice (w.data ++ zeroBytes 224) 0 224

/-- The staging buffer lies inside staging memory and apart from the result area (R60, R445). -/
def windowBufferOk (c : Nat) : Bool :=
  decide (windowBuf c + windowLen c ≤ 0x1000000) && !(touchesResults (stagingBase + windowBuf c) (windowLen c))

/-- The window access is over: DW_STAT, DW_ABORT, and the doorbell where DW_CTL asked for it (R444, R445). -/
def State.windowDone (s : State) (c code : Nat) : State :=
  let s := s.count64 0x2E02 0x05
  if !(windowLive c) then s else
  let s := { s with dw := { s.dw with stat := if code = 0 then 3 else 4, abort := code } }
  if windowBell c then s.ringHost 0x8000000000000000 else s

/-- The abort a value read draws from the window's limits (R60, R445); 0 passes. -/
def windowReadCode (c n : Nat) : Nat :=
  if windowBuffered c then (if windowBufferOk c && decide (n ≤ windowLen c) then 0 else 0x06070010)
  else if 224 < n then 0x06070012 else 0

/-- A value read goes to DW_DATA or to the buffer, and its length to DW_LEN, before DW_STAT changes (R445): the abort
code where a word of the buffer cannot be merged (R295). -/
def State.windowValue (s : State) (c : Nat) (data : List Byte) : Nat × State :=
  if !(windowLive c) then (0, s)
  else if windowBuffered c then
    let r := s.writeStaging (stagingBase + windowBuf c) data
    if r.1 then (0, { r.2 with dw := { r.2.dw with len := data.length } }) else (0x06060000, r.2)
  else (0, { s with dw := { s.dw with len := data.length, data := splice s.dw.bytes 0 data } })

/-! ### MRESP (R374) -/

/-- The answer to an MREQ: status 0x8 with the abort code, or the value in whole slots. Header 0 is no MREQ. -/
def State.sendMresp (s : State) (src header code : Nat) (data : List Byte) : State :=
  let h := BitVec.ofNat 128 (putBits header 16 12 src)
  if header = 0 then s else s.respond h 0xA (if code = 0 then 0 else 8) false code 0
    (data ++ zeroBytes (16 * ceilDiv data.length 16 - data.length))

/-- A write that came through the request queue is answered: `key` is its entry. -/
def State.answerWrite (s : State) (via : Path) (client key code : Nat) : State :=
  match via with
  | .pcie => s.windowDone client code
  | .can => s.sendUsdo client key code []
  | .uzon src => s.sendMresp src client code []

/-! ### Places of the request queue (R51, R52) -/

/-- Every place of the request queue is taken. -/
def State.queueFull (s : State) : Bool := decide (32 ≤ s.queue.length)

/-- The order among accesses that reach the queue in one supervisor cycle (R51). -/
def pathRank : Path → Nat
  | .pcie => 0
  | .can => 1
  | .uzon _ => 2

/-- An access takes its place: after all that came in earlier cycles, and of this cycle's after those of its own path
and of the paths before it (R51). -/
def State.takePlace (s : State) (a : Access) : State :=
  let n := s.queue.length - s.queueFresh
  let fresh := s.queue.drop n
  { s with
    queue := s.queue.take n ++ (fresh.takeWhile fun b => decide (pathRank b.path ≤ pathRank a.path)) ++ [a] ++
      fresh.dropWhile fun b => decide (pathRank b.path ≤ pathRank a.path)
    queueFresh := min s.queueFresh s.queue.length + 1 }

end Sys2Proof.Machine
end

