-- ==== Sys2Proof/Machine/Saved.lean ====
section
/-! DEFINITION. Saved: what a plain write changes beside its entry, and the store and the restore of the saved set
(R37, R61–R65, R70, R283, R380, R398, R434). -/

namespace Sys2Proof.Machine

/-! ### Effects of plain writes -/

/-- The contents of a group of regions are undefined from now on (R283): group 3 × stack + slot. -/
def State.disturbGroup (s : State) (g : Nat) : State :=
  let lo := g / 3 * stackSize + g % 3 * 2 ^ 35
  let d := s.draw
  { d.2 with
    mem := sclear d.2.mem lo (lo + 2 ^ 35)
    errs := sclear d.2.errs lo (lo + 2 ^ 35)
    rewritten := sclear d.2.rewritten lo (lo + 2 ^ 35)
    undefinedGroups := sput 0 d.2.undefinedGroups g (d.1 + 1) }

/-- A group whose regions' modes differ between two tables of OD 0x2810. -/
def groupChanged (old new : List Byte) (g : Nat) : Bool :=
  slice old (96 * (g / 3) + 32 * (g % 3)) 32 != slice new (96 * (g / 3) + 32 * (g % 3)) 32

/-- The device number changes: its route table entries follow (R380). -/
def State.renumber (s : State) (old new : Nat) : State :=
  let t := sget [] s.tables 0x2B01
  if t.isEmpty then s
  else { s with tables := sput [] s.tables 0x2B01 ((t.set old 0x1F).set new 0x1E) }

/-- A table object takes its new content; its default content is not listed. -/
def State.setTable (s : State) (i : Nat) (data : List Byte) : State :=
  let plain := { s with tables := sput [] s.tables i [] }
  if plain.tableBytes i 0 data.length = data then plain else { s with tables := sput [] s.tables i data }

/-- What is known of a job's partner area is forgotten with its entries (R426). -/
def State.forgetPartner (s : State) (j : Nat) : State :=
  let s := s.abandon fun w => match w with | .snapHead i _ => i == j | _ => false
  { s with snaps := smod {} s.snaps j fun p => { p with partnerNewest := none, heads := [], headsDue := [] } }

/-- The effect of a write that has passed every check on an entry that has no row of its own. -/
def State.applyWrite (s : State) (e : Entry) (i sub : Nat) (data : List Byte) : State :=
  let v := leNat data
  if i = 0x2810 then
    ((List.range 12).filter (groupChanged (s.tableBytes i 0 384) data)).foldl State.disturbGroup (s.setTable i data)
  else if i = 0x2D30 then (List.range 8).foldl State.refreshHosting (s.setTable i data)
  else if !e.type.scalar then s.setTable i data
  else if i = 0x3101 ∧ sub = 2 then { s with flash := { s.flash with preferredB := v == 1 } }
  else
    let s' := s.odSet i sub v
    if i = 0x2020 then { s' with grid := { s'.grid with split := v == 1 } }
    else if i = 0x2B02 ∧ sub = 1 then s'.renumber s.device v
    else if 0x2C10 ≤ i ∧ i < 0x2C18 ∧ sub = 3 ∧ v = 1 then
      s'.modFrame (frameIx (i - 0x2C10)) fun y => { y with guestDisabled := false }
    else if 0x2D20 ≤ i ∧ i < 0x2D30 ∧ (sub = 2 ∨ sub = 3 ∨ sub = 5) then s'.forgetPartner (i - 0x2D20)
    else s'

/-! ### Store and restore (R61–R65) -/

/-- The index range of a group: 0 all, 1 communication, 2 application. -/
def groupRange (g : Fin 3) : Nat × Nat :=
  match g.val with
  | 0 => (0x1000, 0x31FF)
  | 1 => (0x1000, 0x1FFF)
  | _ => (0x2000, 0x31FF)

/-- A key of `State.od` or an index lies in the range. -/
def keyInRange (r : Nat × Nat) (k : Nat) : Bool := decide (r.1 * 256 ≤ k) && decide (k < (r.2 + 1) * 256)
def indexInRange (r : Nat × Nat) (i : Nat) : Bool := decide (r.1 ≤ i) && decide (i ≤ r.2)

/-- The value in use of a saved scalar with default `d`: that of OD 0x2F08.01 follows the part (R3, R478). -/
def State.savedValue (s : State) (i sub d : Nat) : Nat :=
  s.odGet i sub (if i = 0x2F08 ∧ sub = 1 then s.grid.part.powerLimit else d)

/-- The values in use of the saved entries of a range, on top of a copy that holds none of that range. -/
def State.captureSaved (s : State) (r : Nat × Nat) (c : SavedCopy) : SavedCopy :=
  (savedEntries r.1 r.2).foldl (fun c e =>
    if e.type.scalar then { c with values := e.savedCells.foldl (fun m p =>
      sput none m (odKey p.1 p.2.1) (some (s.savedValue p.1 p.2.1 p.2.2))) c.values }
    else { c with tables := sput [] c.tables e.index (s.tableBytes e.index 0 e.length) }) c

/-- The copy a store or a restore writes: the other group's part of the saved set in force stays (R63, R64). -/
def State.newCopy (s : State) (g : Fin 3) (restore : Bool) : SavedCopy :=
  let r := groupRange g
  let c := s.flash.inForce
  let kept : SavedCopy :=
    { valid := true, sequence := max s.flash.copyA.sequence s.flash.copyB.sequence + 1
      values := c.values.filter fun p => !(keyInRange r p.1)
      tables := c.tables.filter fun p => !(indexInRange r p.1) }
  if restore then kept else s.captureSaved r kept

/-- The copy that is not in force is the one written: A where none is valid (R63). -/
def Flash.writesA (f : Flash) : Bool :=
  !f.copyA.valid || (f.copyB.valid && decide (f.copyA.sequence < f.copyB.sequence))

/-- OD 0x1E42.09 (R65, R82). -/
def Flash.savedStatus (f : Flash) : Nat :=
  if !f.copyA.valid && !f.copyB.valid then 3
  else if f.inForce.values.isEmpty && f.inForce.tables.isEmpty then 0
  else if f.copyA.valid && f.copyB.valid then 1 else 2

/-- A store or a restore is taken up; it is acknowledged when its copy has been verified (R50, R63, R64). -/
def State.beginStore (s : State) (via : Path) (g : Fin 3) (restore : Bool) : State :=
  let i := if restore then 0x1011 else 0x1010
  let data := leBytes 4 (if restore then 0x64616F6C else 0x65766173)
  let c := s.writeCode via i (g.val + 1) data
  if c ≠ 0 then s.serveWrite via i (g.val + 1) data fun s => (0, s)
  else
    let x : Storing :=
      { copy := s.newCopy g restore, toA := s.flash.writesA, restore := restore, path := via,
        index := odKey i (g.val + 1) }
    { s with storing := some x }

/-- STORE_PARAMETERS (R62, R63). -/
def execStoreParameters (via : Path) (group : Fin 3) (s : State) : Result := .next (s.beginStore via group false)
/-- RESTORE_DEFAULTS (R62, R64). -/
def execRestoreDefaults (via : Path) (group : Fin 3) (s : State) : Result := .next (s.beginStore via group true)

/-- The new copy is verified, or the write has failed and the other copy remains the saved set (R63). -/
def State.endStore (s : State) (x : Storing) (ok : Bool) : State :=
  let c : SavedCopy := if ok then x.copy else {}
  let s := { s with
    storing := none
    flash := if x.toA then { s.flash with copyA := c } else { s.flash with copyB := c } }
  let s := if ok then s else s.logEvent 0x0A00 s.flash.savedStatus
  let code := if ok then 0 else 0x08000020
  let s := s.served x.path (x.index / 256) (x.index % 256) code []
  match x.client with
  | none => s
  | some c => s.answerWrite x.path c x.index code

/-- STORE_COMPLETE (R63). -/
def execStoreComplete (ok : Bool) (s : State) : Result :=
  match s.storing with
  | some x => .next (if x.restore then s else s.endStore x ok)
  | none => .next s

/-- RESTORE_DEFAULTS_COMPLETE (R64). -/
def execRestoreDefaultsComplete (ok : Bool) (s : State) : Result :=
  match s.storing with
  | some x => .next (if x.restore then s.endStore x ok else s)
  | none => .next s

end Sys2Proof.Machine
end

