-- ==== Sys2Proof/Machine/Clocks.lean ====
section
/-! DEFINITION. Clocks: the clock monitor and the fail-over, the power, droop and thermal governors, and the limits of
the 12 V input (R458–R472, R477, R481, R500). -/

namespace Sys2Proof.Machine

/-! ### The clock monitor (R462–R465) -/

/-- The reference count in edges × 256: the mean of the windows that passed (R462). -/
def ClockState.reference (c : ClockState) : Nat :=
  if c.windows.isEmpty then 0 else 256 * c.windows.sum / c.windows.length

/-- A window lies within ±1 % of the mean of the windows held, and has an edge (R462). -/
def ClockState.passes (c : ClockState) (edges : Nat) : Bool :=
  let n := edges * c.windows.length
  let t := c.windows.sum
  edges != 0 && decide (100 * n ≤ 101 * t) && decide (99 * t ≤ 100 * n)

/-- Within ±1 % of the reference count at the fail-over (R465). -/
def ClockState.passesFrozen (c : ClockState) (edges : Nat) : Bool :=
  edges != 0 && decide (100 * (256 * edges) ≤ 101 * c.frozenRef) && decide (99 * c.frozenRef ≤ 100 * (256 * edges))

/-- A link at a fail-over (R464). -/
def State.failOverLink (s : State) (k : Fin 24) : State :=
  match (s.link k).st with
  | .disabled => s
  | .failed => s
  | _ => s.dropLink k .down 9

/-- NMI_STATUS[0] is set; vector 0 on its rise (R443, R455). -/
def State.setNmi (s : State) : State :=
  if s.host.nmi then s else ({ s with host := { s.host with nmi := true } }).raise 0

/-- A fail-over to the internal oscillator, or a source that is not accepted (R459, R464). -/
def State.failOver (s : State) : State :=
  let s := { s with clock := { s.clock with onInternal := true, frozenRef := s.clock.reference, returning := none } }
  let s := ((List.finRange 24).foldl State.failOverLink s).count32 0x2F01 0x03
  s.setNmi.fixCanClock.logEvent 0x0903 (b2n s.clock.clkSel)

/-- One more window of a return to the source (R465). -/
def State.returnWindow (s : State) (n edges : Nat) : State :=
  if !(s.clock.passesFrozen edges) then
    ({ s with clock := { s.clock with returning := none } }).count32 0x2F01 0x06
  else if n + 1 < 100 then { s with clock := { s.clock with returning := some (n + 1) } }
  else ({ s with clock := { s.clock with onInternal := false, returning := none } }).fixCanClock.clearCondition 0xFF00

/-- CLOCK_MONITOR_WINDOW (R462–R465). -/
def execClockMonitorWindow (edges : Nat) (s : State) : Result :=
  if !s.power.on then .next s else
  let s := s.odSet 0x2F01 0x02 (min edges 0xFFFF)
  if s.clock.onInternal then
    (match s.clock.returning with
      | some n => .next (s.returnWindow n edges)
      | none => .next s)
  else if s.clock.passes edges then
    .next { s with clock := { s.clock with windows := (edges :: s.clock.windows).take 1024 } }
  else .next s.failOver

/-- RETURN_TO_SOURCE (R465). -/
def execReturnToSource (via : Path) (s : State) : Result :=
  s.command via 0x2F01 0x04 1 fun s =>
    (0, if s.clock.onInternal && s.clock.returning.isNone then
      { s with clock := { s.clock with returning := some 0 } } else s)

/-! ### The tile frequency (R468) -/

def floorMHz : Nat := 200

/-- f_ceil of R468, and f. -/
def State.fCeil (s : State) : Nat := if s.clock.onInternal then 930 else 1000
def State.tileMHz (s : State) : Nat := max floorMHz (min (min s.power.fCap s.power.fTherm) s.fCeil)

/-- The power cap in use. -/
def State.powerCap (s : State) : Nat := s.odGet 0x2F08 0x01 s.grid.part.powerLimit

def State.modPower (s : State) (f : PowerState → PowerState) : State := { s with power := f s.power }

/-! ### The power cap (R470) -/

/-- f_cap after one adjustment to power `p` under a cap. -/
def nextCap (f p cap : Nat) : Nat :=
  if cap < p then max floorMHz (f - min 100 (10 * ceilDiv (p - cap) 25))
  else if 100 * p < 98 * cap then min 1000 (f + 10) else f

/-- POWER_CAP_ADJUST: the 1 ms average input power, in W (R470). -/
def execPowerCapAdjust (watts : Nat) (s : State) : Result :=
  if !s.power.on then .next s else
  let cap := s.powerCap
  let unmet := decide (cap < watts) && s.tileMHz == floorMHz
  let s := s.modPower fun p => { p with
    watts := watts, fCap := nextCap p.fCap watts cap, fastPath := p.fastPath && decide (cap < watts)
    energy := p.energy + watts }
  let s := s.odSet 0x2F08 0x04 (b2n unmet)
  .next (if unmet then s.odAdd 64 0x2F08 0x05 100 else s)

/-- FAST_PATH_LIMIT: the power averaged over a 20 µs window, in W (R470). -/
def execFastPathLimit (watts : Nat) (s : State) : Result :=
  if !s.power.on ∨ watts ≤ 1250 ∨ s.power.fastPath then .next s
  else .next ((s.modPower fun p => { p with fastPath := true }).count32 0x2F02 0x09)

/-! ### The thermal governor (R471) -/

/-- The highest reading, in 0.1 °C. -/
def PowerState.hottest (p : PowerState) : Int :=
  match p.junction with
  | [] => 0
  | x :: xs => xs.foldl (fun m y => max m y.2) x.2

/-- The °C of event 0x0902. -/
def eventCelsius (t : Int) : Nat := ((t / 10).toNat) % 256

/-- f_therm after one adjustment. -/
def nextTherm (f : Nat) (hot : Int) : Nat :=
  if 1050 ≤ hot then floorMHz
  else if 950 ≤ hot then max floorMHz (f - 10)
  else if hot ≤ 930 then min 1000 (f + 10) else f

/-- A junction sensor reads a temperature, in 0.1 °C: the governor acts, and the events of its limits are logged. -/
def State.thermal (s : State) (sensor : Fin 16) (temp : Int) : State :=
  let before := s.power.hottest
  let s := s.modPower fun p => { p with junction := (p.junction.filter fun x => x.1 != sensor.val) ++
                                          [(sensor.val, temp)] }
  let hot := s.power.hottest
  let limit := decide (1050 ≤ hot) && !s.power.alert
  let s := s.modPower fun p => { p with
    fTherm := nextTherm p.fTherm hot, alert := decide (1050 ≤ hot) || (p.alert && decide (1000 ≤ hot)) }
  let s := if before < 950 ∧ 950 ≤ hot then s.logEvent 0x0902 (eventCelsius hot) else s
  let s := if limit then s.logEvent 0x0902 (eventCelsius hot + 2 ^ 8) else s
  if hot ≤ 930 then s.clearCondition 0x4200 else s

/-- OD 0x2F0C.05: f_therm is held below its highest value. -/
def PowerState.throttled (p : PowerState) : Bool := decide (p.fTherm < 1000)

/-- THERMAL_ADJUST (R471): every 100 µs. -/
def execThermalAdjust (sensor : Fin 16) (temp : Int) (s : State) : Result :=
  if !s.power.on then .next s else
  let s := s.thermal sensor temp
  .next (if s.power.throttled then s.odAdd 64 0x2F0C 0x06 100 else s)

/-! ### The droop governor (R469) -/

/-- The sag, in 0.01 %, that a stretch step answers: 0, 1, 2. -/
def droopLevel (sag : Nat) : Nat := if 800 ≤ sag then 2 else if 500 ≤ sag then 1 else 0

/-- The lower deck is a domain of its own (R469). -/
def State.lowerDomain (s : State) (lower : Bool) : Bool := s.grid.split && lower

/-- The droop part of a domain's stretch factor, and a new value for it. -/
def State.droop (s : State) (lower : Bool) : Nat :=
  if s.lowerDomain lower then s.power.droopLower else s.power.droopUpper
def State.setDroop (s : State) (lower : Bool) (x : Nat) : State :=
  s.modPower fun p => if s.lowerDomain lower then { p with droopLower := x } else { p with droopUpper := x }

/-- Once every supply sensor reads a sag below 3 %, the alarm is ready again and its condition clears (R469, R500). -/
def State.checkSag (s : State) : State :=
  if s.power.sag.all fun p => decide (p.2 < 300) then
    (s.modPower fun p => { p with sagAlarm := false }).clearCondition 0x3200
  else s

/-- A sensor belongs to the governed domain of a deck: in joined mode to the one domain (R469). -/
def State.inDomain (s : State) (lower : Bool) (sensor : Nat) : Bool :=
  !s.grid.split || (lower == decide (16 ≤ sensor))

/-- DROOP_STRETCH: a supply sensor reads a sag, in 0.01 % (R469). -/
def execDroopStretch (sensor : Fin 32) (sag : Nat) (s : State) : Result :=
  if !s.power.on then .next s else
  let lower := decide (16 ≤ sensor.val)
  let s := s.modPower fun p => { p with sag := sput 0 p.sag sensor.val sag }
  let old := s.droop lower
  let new := max old (droopLevel sag)
  let s := if new = old then s
    else (s.setDroop lower new).count32 0x2F02 (if new = 2 then 0x07 else 0x06)
  if sag < 1200 then .next s.checkSag else
  let s := s.count32 0x2F02 0x08
  .next (if s.power.sagAlarm then s
    else (s.modPower fun p => { p with sagAlarm := true }).logEvent 0x0901 sensor.val)

/-- DROOP_HOLD_EXPIRY: every sensor of the domain has stayed below its return bound for 256 tile cycles (R469, R500);
the last step back has seen all of them below 3 %. -/
def execDroopHoldExpiry (lower : Bool) (s : State) : Result :=
  let old := s.droop lower
  if old = 0 then .next s else
  let s := s.setDroop lower (old - 1)
  if old = 1 then
    .next (s.modPower fun p => { p with
      sag := p.sag.filter fun q => decide (q.2 < 300) || !(s.inDomain lower q.1) }).checkSag
  else .next s

/-- OD 0x2F02.04 and .05: the larger of the droop and the fast-path factor; one value in joined mode (R470, R477). -/
def State.stretch (s : State) (lower : Bool) : Nat := max (s.droop lower) (b2n s.power.fastPath)

/-! ### The 12 V input (R481, R500) -/

def inputGood (mv : Nat) : Bool := decide (11400 ≤ mv) && decide (mv ≤ 12600)

/-- INPUT_BACK_IN_LIMITS. -/
def execInputBackInLimits (mv : Nat) (s : State) : Result :=
  if !s.power.on || !(inputGood mv) then .next s
  else .next ((s.modPower fun p => { p with input := mv, inputOut := false }).clearCondition 0x3100)

end Sys2Proof.Machine
end

