-- ==== Sys2Proof/Machine/Scrub.lean ====
section
/-! DEFINITION. Scrub: refresh and periodic checks of the stacks, scrub passes, and the retirement of a
pseudo-channel (R276, R277, R297–R306). -/

namespace Sys2Proof.Machine

/-! ### Refresh and reports (R276, R277) -/

/-- STACK_REFRESH: a per-bank refresh takes precedence and changes no content (R277). -/
def execStackRefresh (_stack : Fin 4) (s : State) : Result := .next s

/-- STACK_PERIODIC_CHECK: the stack's temperature, its refresh rate and its on-die error reports (R276, R277). -/
def execStackPeriodicCheck (stack : Fin 4) (temp : Int) (onDie : List (Nat × Nat)) (s : State) : Result :=
  let s := s.odSet 0x2812 (1 + stack.val) (unsigned 16 temp)
  let s := s.odSet 0x2812 (5 + stack.val) (b2n (decide (85 < temp)))
  .next (onDie.foldl (fun s p =>
    if p.1 / 64 = stack.val then s.modPc p.1 fun q => { q with onDie := satAdd 32 q.onDie p.2 } else s) s)

/-! ### Retiring a pseudo-channel (R301–R304) -/

/-- OD 0x2803.01 for a pseudo-channel. -/
def retireValue (pc : Nat) : Nat := pc / 64 + bits pc 1 5 * 2 ^ 2 + pc % 2 * 2 ^ 7 + 0xC3 * 2 ^ 8
/-- The pseudo-channel a value of OD 0x2803.01 names. -/
def retireTarget (v : Nat) : Nat := 64 * bits v 0 2 + 2 * bits v 2 5 + bits v 7 1

/-- A pseudo-channel in service begins to retire with a reason of OD 0x2802 byte 0 (R301, R302). -/
def State.beginRetire (s : State) (pc reason : Nat) : State :=
  if s.pcBacked pc && (s.pcOf pc).retiring.isNone then s.modPc pc fun q => { q with retiring := some reason } else s

/-- A frame that is not EMPTY holds the channel of a pseudo-channel. -/
def State.holdsChannel (s : State) (f : Fin 8) (pc : Nat) : Bool :=
  (s.frame f).st != .empty && (match (s.frame f).latched with
    | some l => bit (if pc < 128 then l.channels01 else l.channels23) (pc / 64 % 2 * 32 + bits pc 1 5)
    | none => false)

/-- The retirement takes effect: its addresses are not backed, and the frames that hold its channel fault
(R302, R303). -/
def State.retirePc (s : State) (pc reason : Nat) : State :=
  let s := s.modPc pc fun q => { q with state := reason, retiring := none }
  let s := { s with tests := { s.tests with pcs := s.tests.pcs.filter fun p => p.1 != pc,
                                            pcsForced := s.tests.pcsForced.erase pc } }
  let s := (s.odSet 0x2803 0x01 (retireValue pc)).logEvent 0x0302 (pc + reason * 2 ^ 8)
  allFrames.foldl (fun s f => if s.holdsChannel f pc then s.frameFault f 0x000B 0xFFFF 0 else s) s

/-- RETIRE_PSEUDO_CHANNEL: the host retires a pseudo-channel (R301, R305). -/
def execRetirePseudoChannel (via : Path) (value : W16) (s : State) : Result :=
  s.command via 0x2803 0x01 value.toNat fun s => (0, s.beginRetire (retireTarget value.toNat) 3)

/-- PSEUDO_CHANNEL_RETIREMENT_DRAINED: the transactions in flight have drained (R302). -/
def execPseudoChannelRetirementDrained (pc : Fin 256) (s : State) : Result :=
  match (s.pcOf pc.val).retiring with
  | none => .next s
  | some reason => .next (s.retirePc pc.val reason)

/-! ### Scrub passes (R297–R300) -/

def scrubIndex (u : Fin 5) : Nat := 0x2820 + u.val

def State.scrub (s : State) (u : Fin 5) : Scrub := sget {} s.scrubs u.val
def State.modScrub (s : State) (u : Fin 5) (f : Scrub → Scrub) : State :=
  { s with scrubs := smod {} s.scrubs u.val f }

/-- Bytes of one access of a unit. -/
def scrubUnit (u : Fin 5) : Nat := if u.val = 0 then 512 else 64

/-- The addresses of a unit's memory: first, and first beyond (R297). -/
def State.scrubMemory (s : State) (u : Fin 5) : Nat × Nat :=
  if u.val = 0 then (mainBase, mainBase + s.tileCount * 0x80000) else ((u.val - 1) * stackSize, u.val * stackSize)

/-- The start command is refused (R297). -/
def State.scrubRefused (s : State) (u : Fin 5) : Bool :=
  let a := s.odGet (scrubIndex u) 3 0
  let b := s.odGet (scrubIndex u) 4 0
  let m := s.scrubMemory u
  (s.scrub u).running || decide (b ≤ a) || decide (a < m.1) || decide (m.2 < b) ||
    a % scrubUnit u != 0 || b % scrubUnit u != 0

/-- All ones of 64 bits. -/
def ones64 : Nat := 0xFFFFFFFFFFFFFFFF

/-- A pass begins: its summary is cleared (R300). -/
def State.startScrub (s : State) (u : Fin 5) : State :=
  let i := scrubIndex u
  let s := s.modScrub u fun _ => { running := true }
  let s := (((s.odSet i 5 1).odSet i 6 (s.odGet i 3 0)).odSet i 7 0).odSet i 8 0
  (((s.odSet i 9 ones64).odSet i 0x0A ones64).odSet i 0x0B 0).odSet i 0x0D 0

/-- SCRUB_START (R297, R300). -/
def execScrubStart (via : Path) (u : Fin 5) (s : State) : Result :=
  s.command via (scrubIndex u) 1 1 fun s =>
    if s.scrubRefused u then (abortState, s.odSet (scrubIndex u) 5 4) else (0, s.startScrub u)

/-- What one access of a pass finds: data, whether corrected, uncorrectable or poisoned. -/
structure ScrubFind where
  data : List Byte
  ce : Bool
  ue : Bool
  poison : Bool
  s : State

/-- The address a unit of memory stands at, and the read of it. -/
def State.scrubLook (s : State) (a : Nat) : ScrubFind :=
  match regionOf a with
  | .main t off =>
    let d := s.draw
    let r := d.2.scanRow t (off / 512) (Config.openRequester d.1 % 8)
    ⟨r.data, r.ce, r.ue, r.poison, r.close t (off / 512)⟩
  | _ =>
    let found := s.findAt a s.draw.1
    let r := s.readBlock a
    ⟨r.1.data, found.counts, found == .uncorrectable, found == .poisoned, r.2⟩

/-- The row or block written back by a pass (R298). -/
def State.scrubWrite (s : State) (a : Nat) (data : List Byte) (poison : Bool) : State :=
  match regionOf a with
  | .main t off => s.writeRow t (off / 512) data poison
  | _ => s.writeBlock a (if poison then List.replicate 64 0xFF else data) poison

/-- Bytes skipped by a pass (R299). -/
def State.scrubSkip (s : State) (u : Fin 5) (n : Nat) : State := s.odAdd 64 (scrubIndex u) 0x0D n

/-- A failing address of a pass: kind 7 CE, 8 UE (R300). -/
def State.scrubFail (s : State) (u : Fin 5) (a sub : Nat) : State :=
  let i := scrubIndex u
  let s := s.odAdd 32 i sub 1
  let s := if s.odGet i 9 ones64 = ones64 then s.odSet i 9 a else s
  s.odSet i 0x0A a

/-- A repeat (R298, R409, R411, R432). -/
def State.scrubRepeat (s : State) (u : Fin 5) (a : Nat) : State :=
  let s := (s.odAdd 32 (scrubIndex u) 0x0B 1).modScrub u fun x =>
    { x with repeats := if x.repeats.length < 16 then x.repeats ++ [a] else x.repeats }
  let s := s.logEvent 0x0304 u.val
  match regionOf a with
  | .main t off => s.pendRow t (off / 512)
  | _ =>
    let p := s.stackPlace (a / stackSize) (a % stackSize)
    (s.modPc p.pc fun q => { q with repeats := satAdd 32 q.repeats 1 }).pendPc p.pc (p.loc / 4096)

/-- What mode `mode` writes back after an access: poison for an uncorrectable error in mode 2, the corrected data in
modes 1 and 2; nothing in a row or block that was poisoned (R298). -/
def ScrubFind.back (x : ScrubFind) (mode a : Nat) (seen : List (Nat × CellErr)) : Option WriteBack :=
  if x.poison then none
  else if x.ue then (if mode = 2 then some ⟨a, x.data, true, seen⟩ else none)
  else if x.ce && mode != 0 then some ⟨a, x.data, false, seen⟩
  else none

/-- The errors that stand in the row or block at `a`. -/
def State.scrubErrs (s : State) (u : Fin 5) (a : Nat) : List (Nat × CellErr) := errsIn s.errs a (scrubUnit u)

/-- One read at address `a`: its corrected and uncorrectable errors are counted, a poisoned row or block is counted as
skipped, and what is to be written back is held (R298). -/
def State.scrubAccess (s : State) (u : Fin 5) (a : Nat) : State :=
  let x := s.scrubLook a
  let s1 := if x.ce then x.s.scrubFail u a 7 else x.s
  let s2 := if x.ue then s1.scrubFail u a 8 else s1
  let s3 := if x.poison then s2.scrubSkip u (scrubUnit u) else s2
  s3.modScrub u fun q => { q with writeBack := x.back (s.odGet (scrubIndex u) 2 0) a (s.scrubErrs u a) }

/-- A write-back is made, unless its row or block has been written since the scrub read it; corrected data is to be read
again (R298, R299). -/
def State.scrubBack (s : State) (u : Fin 5) (w : WriteBack) : State :=
  let s' := s.modScrub u fun q => { q with writeBack := none }
  if s.scrubErrs u w.addr = w.seen then
    (s'.scrubWrite w.addr w.data w.poison).modScrub u fun q =>
      { q with recheck := if w.poison then none else some w.addr }
  else s'

/-- The re-read after a write-back (R298). -/
def State.scrubRecheck (s : State) (u : Fin 5) (a : Nat) : State :=
  let x := s.scrubLook a
  let s := x.s.modScrub u fun q => { q with recheck := none }
  if x.ce || x.ue then s.scrubRepeat u a else s

/-- The bytes to skip at address `a`, where the pass does not read it (R299): a tile that runs or tests, a
channel held by a frame that runs, an address that is not backed. -/
def State.scrubPass (s : State) (u : Fin 5) (a : Nat) : Option Nat :=
  match regionOf a with
  | .main t off =>
    let held := match s.frameOf t with
      | some f => s.countsRunning f || (s.frame f).st == .selftest
      | none => false
    if held && (off == 0 || a == s.odGet (scrubIndex u) 3 0) then some (0x80000 - off) else none
  | .stack n o =>
    let p := s.stackPlace n o
    let held := allFrames.any fun f => s.countsRunning f && s.holdsChannel f p.pc
    if !(s.pcBacked p.pc) || (held && s.odGet (scrubIndex u) 0x0E 0 == 0) then some 64 else none
  | _ => some (scrubUnit u)

/-- The bytes of `[a, b)` that hold rows, within one tile (R83). -/
def rowBytes (a b : Nat) : Nat :=
  let lo := (a - mainBase) % 0x80000
  min (lo + (b - a)) (896 * 512) - min lo (896 * 512)

/-- SCRUB_ABORT: the pass stops after the access in progress, its write-back made (R300). -/
def execScrubAbort (via : Path) (u : Fin 5) (s : State) : Result :=
  s.command via (scrubIndex u) 1 2 fun s =>
    (0, if !(s.scrub u).running then s else
      let s := match (s.scrub u).writeBack with
        | some w => s.scrubBack u w
        | none => s
      (s.modScrub u fun x => { x with running := false, recheck := none }).odSet (scrubIndex u) 5 3)

/-- SCRUB_READ: the next access of a running pass: a write-back, a second read, or the read of its next address
(R297–R300). -/
def execScrubRead (u : Fin 5) (s : State) : Result :=
  let i := scrubIndex u
  if !(s.scrub u).running then .next s else
  match (s.scrub u).writeBack, (s.scrub u).recheck with
  | some w, _ => .next (s.scrubBack u w)
  | none, some a => .next (s.scrubRecheck u a)
  | none, none =>
    let a := s.odGet i 6 0
    let b := s.odGet i 4 0
    if b ≤ a then .next s else
    match s.scrubPass u a with
    | some n =>
      let e := min (a + n) b
      .next ((s.scrubSkip u (if u.val = 0 then rowBytes a e else e - a)).odSet i 6 e)
    | none =>
      if u.val ≠ 0 ∧ s.placeRetiring a then .next s
      else if u.val = 0 ∧ 896 ≤ (a - mainBase) % 0x80000 / 512 then .next (s.odSet i 6 (a + 512))
      else .next ((s.scrubAccess u a).odSet i 6 (a + scrubUnit u))

/-- SCRUB_PASS_DONE: the pass has reached its end (R300). -/
def execScrubPassDone (u : Fin 5) (s : State) : Result :=
  let i := scrubIndex u
  if (s.scrub u).running && (s.scrub u).writeBack.isNone && (s.scrub u).recheck.isNone &&
    decide (s.odGet i 4 0 ≤ s.odGet i 6 0) then
    .next ((s.modScrub u fun x => { x with running := false }).odSet i 5 2)
  else .next s

end Sys2Proof.Machine
end

