-- ==== Sys2Proof/Machine/Host.lean ====
section
/-! DEFINITION. Host: result slots and their acknowledgement, DMA rings, the register file of BAR0, staging memory
behind BAR2, MSI-X, and the resets and power states of the endpoint (R437–R457, R502). -/

namespace Sys2Proof.Machine

/-! ### Acknowledging a result (R451) -/

/-- A write of ACK: the valid slot with the sequence is freed, or the write is ignored and counted. -/
def State.ackResult (s : State) (seq : Nat) : State :=
  match (List.range 256).find? fun i => s.slotValid i && leNat (s.mem.read (resultBase + 64 * i) 4) == seq with
  | none => s.count32 0x2E02 0x03
  | some i =>
    let a := resultBase + 64 * i + 4
    { s with
      mem := s.mem.setByte a (BitVec.ofNat 8 (putBit (s.mem.byte a).toNat 0 false))
      host := { s.host with lastAck := seq } }

/-- ACK_RESULT. -/
def execAckResult (seq : W32) (s : State) : Result := hostAccess s (s.ackResult seq.toNat)

/-! ### The dictionary window's commands (R445) -/

/-- An access of the window: one while another is under way is counted, one that meets a full queue ends with DW_STAT 5
(R52, R445). -/
def State.enqueueWindow (s : State) (a : Access) : State :=
  if s.dw.stat = 1 ∨ s.dw.stat = 2 then s.count32 0x2E02 0x06
  else if s.queueFull then { s with dw := { s.dw with stat := 5 } }
  else { s.takePlace a with dw := { s.dw with stat := 1 } }

/-- A write of DW_CTL that asks for a read or a write. -/
def State.windowCommand (s : State) (ctl : Nat) (write : Bool) : State :=
  let w := s.dw
  s.enqueueWindow
    { path := .pcie, write := write, index := BitVec.ofNat 16 w.idx, sub := BitVec.ofNat 8 (w.idx / 2 ^ 16)
      data := if write && !(bit ctl 2) then slice w.bytes 0 w.len else []
      client := windowClient ctl w.len w.buf }

/-- DW_READ (R444, R445). -/
def execDwRead (ctl : W32) (s : State) : Result := hostAccess s (s.windowCommand ctl.toNat false)
/-- DW_WRITE (R444, R445). -/
def execDwWrite (ctl : W32) (s : State) : Result := hostAccess s (s.windowCommand ctl.toNat true)

/-- A write of DW_CTL by its value: 0 and 3 are ignored. -/
def State.writeDwCtl (s : State) (v : Nat) : State :=
  if bits v 0 2 = 1 then s.windowCommand v false
  else if bits v 0 2 = 2 then s.windowCommand v true
  else if s.dw.stat = 1 ∨ s.dw.stat = 2 then s.count32 0x2E02 0x06 else s

/-! ### Rings (R452–R454) -/

def State.ring (s : State) (r : Fin 16) : Ring := sget {} s.rings r.val
def State.setRing (s : State) (r : Fin 16) (x : Ring) : State := { s with rings := sput {} s.rings r.val x }
def State.modRing (s : State) (r : Fin 16) (f : Ring → Ring) : State := s.setRing r (f (s.ring r))

/-- A stopped ring: CONS and PROD read 0, and no halt is left. -/
def Ring.stopped (x : Ring) : Ring :=
  { x with enable := false, prod := 0, cons := 0, halted := false, code := 0, failing := 0, inProgress := [] }

/-- A ring whose enable is 0 stops once the descriptors in progress have completed (R454). -/
def Ring.settle (x : Ring) : Ring := if !x.enable && x.inProgress.isEmpty then x.stopped else x

/-- A write of RING_CTL (R452, R454). -/
def Ring.control (x : Ring) (v : Nat) : Ring :=
  let x := if x.enable then x else { x with bound := bit v 4, frame := bits v 5 3 }
  let x := if bit v 1 && x.halted then { x with halted := false, code := 0, failing := 0 } else x
  let was := x.enable
  let x := { x with enable := bit v 0 }
  if was then x.settle else x

/-- RING_ENABLE (R454): a write of RING_CTL with enable set. -/
def execRingEnable (r : Fin 16) (ctl : W32) (s : State) : Result :=
  hostAccess s (s.modRing r fun x => x.control (putBit ctl.toNat 0 true))
/-- RING_DISABLE (R454): a write of RING_CTL with enable cleared. -/
def execRingDisable (r : Fin 16) (ctl : W32) (s : State) : Result :=
  hostAccess s (s.modRing r fun x => x.control (putBit ctl.toNat 0 false))
/-- RING_RESUME (R454): a write of RING_CTL with resume set. -/
def execRingResume (r : Fin 16) (ctl : W32) (s : State) : Result :=
  hostAccess s (s.modRing r fun x => x.control (putBit ctl.toNat 1 true))

/-- PROD (R454): indexes count modulo RING_SIZE. -/
def execProd (r : Fin 16) (v : W32) (s : State) : Result :=
  hostAccess s (s.modRing r fun x => { x with prod := v.toNat % x.size })

/-- A descriptor (R453). -/
structure RingDesc where
  host : Nat
  device : Nat
  toHost : Bool
  interrupt : Bool
  fence : Bool
  zeros : Bool
  len : Nat
  deriving DecidableEq, Repr

def ringDesc (b : List Byte) : RingDesc :=
  let flags := sliceNat b 14 2
  { host := sliceNat b 0 8, device := sliceNat b 8 6, toHost := bit flags 0, interrupt := bit flags 1
    fence := bit flags 2, zeros := bits flags 3 13 == 0 && sliceNat b 28 4 == 0, len := sliceNat b 16 4 }

/-- The check of a descriptor as it is fetched (R453, R454). -/
def RingDesc.code (d : RingDesc) : Nat :=
  if !d.zeros || d.host % 64 != 0 || d.device % 64 != 0 || d.len % 64 != 0 || d.len == 0 || decide (16777216 < d.len)
  then 8
  else match regionOf d.device with
    | .stack _ o => if stackSize < o + d.len then 5 else 0
    | .staging o => if 0x1000000 < o + d.len ∨ (!d.toHost && touchesResults d.device d.len) then 5 else 0
    | _ => 5

/-- The check of a device block as it is reached: backed, and its channel held by no other frame (R454). -/
def State.ringBlockCode (s : State) (x : Ring) (a : Nat) : Nat :=
  match regionOf a with
  | .stack n o =>
    let pc := (s.stackPlace n o).pc
    if !(s.pcBacked pc) then 5
    else if allFrames.any fun f => s.holdsChannel f pc && !(x.bound && x.frame == f.val) then 7 else 0
  | _ => 0

/-- Host data written to the device block by block: the code that stops it. -/
def State.ringIn (s : State) (x : Ring) (a : Nat) : List (List Byte) → Nat × State
  | [] => (0, s)
  | b :: bs =>
    let c := s.ringBlockCode x a
    if c ≠ 0 then (c, s) else (s.writeDevice a b false).2.ringIn x (a + 64) bs

/-- Device blocks read for the host: the code that stops it, and the bytes read. -/
def State.ringOut (s : State) (x : Ring) (a : Nat) : (blocks : Nat) → Nat × List Byte × State
  | 0 => (0, [], s)
  | n + 1 =>
    let c := s.ringBlockCode x a
    if c ≠ 0 then (c, [], s) else
    let r := s.readDevice a 64
    if r.1.bad then (6, [], r.2) else
    let q := r.2.ringOut x (a + 64) n
    (q.1, r.1.data ++ q.2.1, q.2.2)

/-- The transfer of a descriptor: the code it ends with. Where a host request fails, `data` says how far the
transfer came. -/
def State.ringTransfer (s : State) (x : Ring) (d : RingDesc) (data : List Byte) (hostFailed : Bool) : Nat × State :=
  let n := if hostFailed then min d.len (data.length / 64 * 64) else d.len
  if d.toHost then
    let r := s.ringOut x d.device (n / 64)
    let s := if r.2.1.isEmpty then r.2.2 else r.2.2.emit (.host d.host r.2.1)
    (if r.1 = 0 ∧ hostFailed then 9 else r.1, s)
  else
    let r := s.ringIn x d.device (chunks 64 n (slice (data ++ zeroBytes (n - data.length)) 0 n))
    (if r.1 = 0 ∧ hostFailed then 9 else r.1, r.2)

/-- The DONE word of the descriptor at an index (R453). -/
def State.ringDone (s : State) (x : Ring) (index code : Nat) : State :=
  s.emit (.host (x.base + 32 * index + 24) (leBytes 4 (1 + code * 2 ^ 4)))

/-- A ring halts at a descriptor (R454). -/
def State.ringHalt (s : State) (r : Fin 16) (index code : Nat) : State :=
  let x := s.ring r
  ((s.ringDone x index code).setRing r { x with halted := true, code := code, failing := index }).raise (11 + r.val)

/-- A completion timeout: bit [14] of the Uncorrectable Error Status of Advanced Error Reporting, and its count (R437,
R457; log entry 112). -/
def State.completionTimeout (s : State) : State :=
  ({ s with host := { s.host with aerUncorrectable := putBit s.host.aerUncorrectable 14 true } }).count32 0x2E03 0x02

/-- RING_DESCRIPTOR_PROCESS (R453, R454): the next descriptor is fetched and carried out. -/
def execRingDescriptorProcess (r : Fin 16) (desc data : List Byte) (failed : Option HostFailure) (s : State) : Result :=
  let x := s.ring r
  let index := (x.cons + x.inProgress.length) % x.size
  let d := ringDesc desc
  if !x.enable || x.halted || index == x.prod || s.host.d3hot || s.host.l2 || !s.host.linkUp ||
      decide (x.size ≤ x.inProgress.length + 1) || (d.fence && !x.inProgress.isEmpty) then .next s
  else if d.code ≠ 0 then .next (s.ringHalt r index d.code)
  else
    let t := s.ringTransfer x d data failed.isSome
    let u := if t.1 = 9 ∧ failed = some .timeout then t.2.completionTimeout else t.2
    .next (if t.1 ≠ 0 then u.ringHalt r index t.1
      else t.2.modRing r fun x => { x with inProgress := x.inProgress ++ [slice (desc ++ zeroBytes 32) 0 32] })

/-- RING_DESCRIPTOR_COMPLETE (R454): the oldest descriptor in progress completes. -/
def execRingDescriptorComplete (r : Fin 16) (s : State) : Result :=
  let x := s.ring r
  match x.inProgress with
  | [] => .next s
  | b :: rest =>
    let d := ringDesc b
    let s := s.ringDone x x.cons 0
    let s := s.setRing r (Ring.settle { x with inProgress := rest, cons := (x.cons + 1) % x.size })
    let s := s.odAdd 64 0x2E04 (r.val + 1) d.len
    .next (if d.interrupt then s.raise (11 + r.val) else s)

/-! ### BAR0 (R440, R443–R447, R451, R452) -/

/-- The 4-byte words of BAR0 that the tables name. -/
def hostWord (o : Nat) : Bool :=
  decide (o ≤ 0x14) || o == 0x18 || (decide (0x20 ≤ o) && decide (o ≤ 0x2C)) ||
    [0x100, 0x104, 0x108, 0x10C, 0x110, 0x118, 0x11C].contains o || (decide (0x120 ≤ o) && decide (o < 0x200)) ||
    (decide (0x1000 ≤ o) && decide (o < 0x1800) && decide (o % 0x100 ≤ 0x0C)) ||
    (decide (0x2000 ≤ o) && decide (o ≤ 0x200C)) || o == 0x3000 || o == 0x3004 ||
    (decide (0x4000 ≤ o) && decide (o < 0x8000) && decide (o % 0x400 ≤ 0x18))

/-- The 64-bit registers that the host cannot write. -/
def hostWideRo (o : Nat) : Bool := o == 0x08 || o == 0x20

/-- The mailbox data registers, which take 4-byte accesses only (R440). -/
def hostMailData (o : Nat) : Bool := decide (0x1000 ≤ o) && decide (o < 0x1800) && decide (o % 0x100 ≤ 0x04)

/-- A dropped host access (OD 0x2E02.04). -/
def State.dropAccess (s : State) : State := s.count32 0x2E02 0x04

/-- One half of a 64-bit value replaced. -/
def putHalf (v : Nat) (high : Bool) (w : Nat) : Nat := putBits v (if high then 32 else 0) 32 w

/-- What a command leaves; the state before it where it stops. -/
def afterwards (s : State) (r : Result) : State :=
  match r with
  | .next t => t
  | _ => s

/-- A write of 4 bytes to a word of a ring. -/
def State.writeRingWord (s : State) (r : Fin 16) (o v : Nat) : State :=
  let x := s.ring r
  if o = 0x00 ∨ o = 0x04 then
    (if x.enable then s else s.setRing r { x with base := putHalf x.base (o == 4) v / 4096 * 4096 })
  else if o = 0x08 then
    (if x.enable || !([16, 32, 64, 128, 256, 512, 1024, 2048, 4096].contains v) then s
      else s.setRing r { x with size := v, prod := x.prod % v, cons := x.cons % v })
  else if o = 0x0C then s.setRing r (x.control v)
  else if o = 0x10 then s.setRing r { x with prod := v % x.size }
  else s.dropAccess

/-- The mailbox pair whose registers hold an offset of BAR0 (R446). -/
def mailOf (o : Nat) : Fin 8 := ⟨(o - 0x1000) / 0x100 % 8, Nat.mod_lt _ (by decide)⟩

/-- A write of 4 bytes to a word of a mailbox pair. -/
def State.writeMailWord (s : State) (i : Fin 8) (o v : Nat) : State :=
  if o = 0x00 then afterwards s (execH2sData i (BitVec.ofNat 32 v) s)
  else if o = 0x0C then afterwards s (execMbClear i true (BitVec.ofNat 32 v) s)
  else s.dropAccess

/-- A write of 4 bytes to a named word of BAR0 under its access code; a word that is RO drops it. -/
def State.writeWord (s : State) (o v : Nat) : State :=
  if o = 0x14 then { s with host := { s.host with faultSummary := s.host.faultSummary &&& (2 ^ 32 - 1 - v) } }
  else if o = 0x18 then { s with host := { s.host with nmi := s.host.nmi && !(bit v 0) } }
  else if o = 0x100 then s.writeDwCtl v
  else if o = 0x104 then { s with dw := { s.dw with idx := v % 2 ^ 24 } }
  else if o = 0x108 then { s with dw := { s.dw with len := v } }
  else if o = 0x118 ∨ o = 0x11C then { s with dw := { s.dw with buf := putHalf s.dw.buf (o == 0x11C) v } }
  else if 0x120 ≤ o ∧ o < 0x200 then { s with dw := { s.dw with data := splice s.dw.bytes (o - 0x120) (leBytes 4 v) } }
  else if 0x1000 ≤ o ∧ o < 0x1800 then s.writeMailWord (mailOf o) (o % 0x100) v
  else if o = 0x2000 ∨ o = 0x2004 then afterwards s (execDbH2s (BitVec.ofNat 64 (putHalf 0 (o == 0x2004) v)) s)
  else if o = 0x2008 ∨ o = 0x200C then afterwards s (execDbS2h (BitVec.ofNat 64 (putHalf 0 (o == 0x200C) v)) s)
  else if o = 0x3000 then s.ackResult v
  else if 0x4000 ≤ o ∧ o < 0x8000 then s.writeRingWord ⟨(o - 0x4000) / 0x400 % 16, Nat.mod_lt _ (by decide)⟩
    (o % 0x400) v
  else s.dropAccess

/-- A write to BAR0 (R440): one of 4 bytes, or one of 8 that covers one register or two; any other is dropped. -/
def State.writeHost (s : State) (o size v : Nat) : State :=
  if !((size == 4 || size == 8) && o % size == 0 && hostWord o) then s.dropAccess
  else if size = 4 then s.writeWord o (v % 2 ^ 32)
  else if !(hostWord (o + 4)) || hostWideRo o || hostMailData o || hostMailData (o + 4) then s.dropAccess
  else (s.writeWord o (v % 2 ^ 32)).writeWord (o + 4) (v / 2 ^ 32 % 2 ^ 32)

/-- The number of result slots that read valid (SLOTS_VALID). -/
def State.slotsValid (s : State) : Nat := ((List.range 256).filter s.slotValid).length

/-- DEV_STATUS (R443). -/
def State.devStatus (s : State) : Nat :=
  let f (p : Frame → Bool) : Nat := allFrames.foldl (fun a i => a + b2n (p (s.frame i)) * 2 ^ i.val) 0
  b2n s.sup.ready + b2n s.clock.onInternal * 2 + b2n s.sup.imageB * 4 + b2n (s.flash.savedStatus == 3) * 8 +
    f (fun x => x.st == .running) * 2 ^ 8 + f (fun x => x.st == .faulted) * 2 ^ 16

/-- HIF_ID (R443). -/
def hifId : Nat := 0x4C480001

/-- OD 0x2000.05, the die stepping: GRADE and the revision ID carry it (R438, R443; log entry 1). -/
def dieStepping : Nat := 1

/-- What a 4-byte word of BAR0 holds (R443, R444, R446, R447, R451, R452). MB_CLEAR reads the bits it can clear, which
stand where OD 0x2711 has them (log entry 92). -/
def State.hostRegister (s : State) (o : Nat) : Nat :=
  let half (v : Nat) (at0 : Nat) : Nat := if o = at0 then v % 2 ^ 32 else v / 2 ^ 32
  if o = 0x00 then hifId
  else if o = 0x04 then s.grid.width + b2n s.grid.part.liquid * 2 ^ 8 + dieStepping * 2 ^ 16
  else if o = 0x08 ∨ o = 0x0C then half 1 0x08
  else if o = 0x10 then s.devStatus
  else if o = 0x14 then s.host.faultSummary
  else if o = 0x18 then b2n s.host.nmi
  else if o = 0x20 ∨ o = 0x24 then half (s.supCycles % 2 ^ 64) 0x20
  else if o = 0x28 then s.host.lastSeq
  else if o = 0x2C then s.slotsValid
  else if o = 0x104 then s.dw.idx
  else if o = 0x108 then s.dw.len
  else if o = 0x10C then s.dw.stat
  else if o = 0x110 then s.dw.abort
  else if o = 0x118 ∨ o = 0x11C then half s.dw.buf 0x118
  else if 0x120 ≤ o ∧ o < 0x200 then sliceNat s.dw.bytes (o - 0x120) 4
  else if 0x1000 ≤ o ∧ o < 0x1800 ∧ 8 ≤ o % 0x100 then
    let m := s.mailStatus (mailOf o)
    if o % 0x100 = 8 then m else m &&& 0x80C0
  else if o = 0x2000 ∨ o = 0x2004 then half s.host.dbH2s.toNat 0x2000
  else if o = 0x2008 ∨ o = 0x200C then half s.host.dbS2h.toNat 0x2008
  else if o = 0x3004 then s.host.lastAck
  else if 0x4000 ≤ o ∧ o < 0x8000 then
    let x := s.ring ⟨(o - 0x4000) / 0x400 % 16, Nat.mod_lt _ (by decide)⟩
    let r := o % 0x400
    if r = 0 then x.base % 2 ^ 32 else if r = 4 then x.base / 2 ^ 32 else if r = 8 then x.size
    else if r = 0xC then b2n x.enable + b2n x.bound * 2 ^ 4 + x.frame * 2 ^ 5
    else if r = 0x10 then x.prod else if r = 0x14 then x.cons
    else if r = 0x18 then
      b2n (x.enable && !x.halted) + b2n x.halted * 2 + x.code * 2 ^ 4 + x.failing * 2 ^ 16
    else 0
  else 0

/-- A 4-byte read of a named word: a word that is WO reads 0 and the access is counted; S2H_DATA takes its word (R440,
R446). -/
def State.readWord (s : State) (o : Nat) : Nat × State :=
  let mail := decide (0x1000 ≤ o) && decide (o < 0x1800)
  if o == 0x100 || o == 0x3000 || (mail && o % 0x100 == 0) then (0, s.dropAccess)
  else if mail && o % 0x100 == 4 then
    ((s.mailPair (mailOf o)).s2h.pop.1.toNat, afterwards s (execS2hData (mailOf o) s))
  else (s.hostRegister o, s)

/-- During start-up BAR0 returns 0 for every read, but for HIF_ID and DEV_STATUS (R502). -/
def State.startWord (s : State) (o : Nat) : Nat := if o = 0x00 then hifId else if o = 0x10 then s.devStatus else 0

/-- A read of BAR0 (R440): of 4 bytes, or of 8 that cover one register or two; any other returns 0 and is counted. -/
def State.readHost (s : State) (o size : Nat) : Nat × State :=
  let whole := (size == 4 || size == 8) && o % size == 0
  if s.startingUp then
    (if !whole then 0 else if size = 4 then s.startWord o else s.startWord o + 2 ^ 32 * s.startWord (o + 4), s)
  else if !(whole && hostWord o) then (0, s.dropAccess)
  else if size = 4 then s.readWord o
  else if !(hostWord (o + 4)) || hostMailData o || hostMailData (o + 4) then (0, s.dropAccess)
  else
    let r := s.readWord o
    let q := r.2.readWord (o + 4)
    (r.1 + 2 ^ 32 * q.1, q.2)

/-- HOST_REGISTER_WRITE: a write of BAR0, or a read of it (log entry 92). -/
def execHostRegisterWrite (off size : Nat) (v : Option W64) (s : State) : Result :=
  match v with
  | some w => hostAccess s (s.writeHost off size w.toNat)
  | none => .next (if s.hostReaches then (s.readHost off size).2.emit (.hostValue off (s.readHost off size).1) else s)

/-! ### The configuration space (R438) -/

/-- A dword of the configuration space that R438 fills: vendor and device ID, revision ID and class code, subsystem
vendor and subsystem ID, where PCI Express places them (log entry 113). -/
def State.configWord (s : State) (o : Nat) : Option Nat :=
  if o = 0x00 then some (0x1F4B + 0x0048 * 2 ^ 16)
  else if o = 0x08 then some (dieStepping % 2 ^ 8 + 0x120000 * 2 ^ 8)
  else if o = 0x2C then some (0x1F4B + s.grid.part.subsystem * 2 ^ 16)
  else none

/-! ### BAR2 (R441, R448) -/

/-- What a read of BAR2 returns: the bytes of staging memory, 0 during start-up; it has no side effect (R441, R502;
log entry 92). -/
def State.readBar2 (s : State) (off n : Nat) : List Byte :=
  if s.startingUp then zeroBytes n else (s.readStaging (stagingBase + off) n).1.data

/-- STAGING_WRITE: a write that touches the result area is dropped; one whose partial word cannot be merged is
refused (R295). -/
def execStagingWrite (off : Nat) (data : List Byte) (s : State) : Result :=
  if data.isEmpty ∨ 0x1000000 < off + data.length then .next s else
  hostAccess s (if touchesResults (stagingBase + off) data.length then s.dropAccess
    else (s.writeStaging (stagingBase + off) data).2)

/-! ### MSI-X (R455) -/

/-- The pending-bit array (R439). -/
def HostIf.pendingBits (h : HostIf) : Nat := (List.range 64).foldl
  (fun a v => a + b2n (h.msixPending.contains v) * 2 ^ v) 0

/-- What a read of a dword of BAR4 returns: the MSI-X table, and the pending-bit array at 0x1000 (R439). -/
def State.readBar4 (s : State) (off : Nat) : Nat :=
  if off < 0x400 then s.host.tableWord (off / 4)
  else if off = 0x1000 then s.host.pendingBits % 2 ^ 32
  else if off = 0x1004 then s.host.pendingBits / 2 ^ 32
  else 0

/-- The pending vectors that nothing holds back any more leave, in the order of their numbers. -/
def State.flushVectors (s : State) : State :=
  (List.range 64).foldl (fun s v =>
    if s.host.msixPending.contains v then
      ({ s with host := { s.host with msixPending := s.host.msixPending.filter (· != v) } }).raise v
    else s) s

/-- Where MSI_X_TABLE_WRITE names the message control word of the MSI-X capability: beyond BAR4 (log entry 32). -/
def msixControl : Nat := 0x2000

/-- MSI_X_TABLE_WRITE: a dword of the table, or the function mask and MSI-X Enable; the pending-bit array cannot be
written, and vector 0 cannot be masked by its own bit. -/
def execMsixTableWrite (off : Nat) (v : W32) (s : State) : Result :=
  if !s.hostReaches then .next s
  else if off = msixControl then
    .next (State.flushVectors { s with host := { s.host with
      functionMask := bit v.toNat 14, msixEnable := bit v.toNat 15 } })
  else if off % 4 ≠ 0 ∨ 0x400 ≤ off then .next s
  else
    let d := off / 4
    let w := if d = 3 then putBit v.toNat 0 false else v.toNat
    let unset := if d % 4 = 3 ∧ d ≠ 3 then 1 else 0
    .next (State.flushVectors { s with host := { s.host with msix := sput unset s.host.msix d w } })

/-! ### Resets and power states of the endpoint (R456, R502) -/

/-- The device-side data of an abandoned descriptor is undefined (R456). -/
def State.abandonDescriptor (s : State) (b : List Byte) : State :=
  let d := ringDesc b
  if d.toHost then s else
  let k := s.draw
  (k.2.writeDevice d.device ((List.range d.len).map fun i => Config.undefinedByte k.1 (d.device + i)) false).2

/-- A ring is disabled by a host reset. -/
def State.abandonRing (s : State) (r : Fin 16) : State :=
  ((s.ring r).inProgress.foldl State.abandonDescriptor s).modRing r Ring.stopped

/-- A window access that is queued or waits for a store loses its result (R456). -/
def orphanAccess (a : Access) : Access := if a.path = .pcie then { a with client := putBit a.client 0 false } else a

/-- An emptied mailbox queue. -/
def Mailbox.emptied (_ : Mailbox) : Mailbox := {}

/-- What a function-level reset, a hot reset, PERST_N and a link down have in common (R456). -/
def State.hostReset (s : State) : State :=
  let s := (List.finRange 16).foldl State.abandonRing s
  { s with
    queue := s.queue.map orphanAccess
    storing := s.storing.map fun x => if x.path = .pcie
      then { x with client := x.client.map fun c => putBit c 0 false } else x
    dw := {}
    mail := s.mail.filterMap fun p =>
      let m : MailPair := { p.2 with h2s := p.2.h2s.emptied, s2h := p.2.s2h.emptied }
      if m = {} then none else some (p.1, m)
    host := { s.host with
      dbH2s := 0, dbS2h := 0, msix := [], msixPending := [], functionMask := false, msixEnable := false
      d3hot := false } }

/-- FUNCTION_LEVEL_RESET (R456, R457): max payload is back at its default. -/
def execFunctionLevelReset (s : State) : Result :=
  if !s.host.linkUp then .next s else .next ((s.hostReset.count32 0x2E03 0x03).odSet 0x2E00 0x06 128)

/-- The link of the endpoint goes down; the status of Advanced Error Reporting, which a function-level reset keeps, is
cleared too (R456, R502). -/
def State.hostLinkDown (s : State) : State :=
  let s := ((s.hostReset.odSet 0x2E00 0x04 0).odSet 0x2E00 0x05 0).odSet 0x2E00 0x06 128
  { s with host := { s.host with linkUp := false, l2 := false, aerCorrectable := 0, aerUncorrectable := 0 } }

/-- HOT_RESET: a hot reset or a link down (R456, R457). -/
def execHotReset (s : State) : Result := if !s.host.linkUp then .next s else .next (s.hostLinkDown.count32 0x2E03 0x04)

/-- PERST_N as it stands: low holds the endpoint in reset, and a link that was up goes down; high lets it train (R456,
R502). -/
def State.setPerst (s : State) (high : Bool) : State :=
  let t := if !high && s.host.linkUp then s.hostLinkDown.count32 0x2E03 0x04 else s
  { t with host := { t.host with perstHigh := high } }

/-- PERST_N. -/
def execPerstN (high : Bool) (s : State) : Result := .next (s.setPerst high)

/-- PCIE_POWER_STATE_CHANGE: what was held pending leaves on the way back to D0 (R456). -/
def execPciePowerStateChange (d3hot l2 : Bool) (s : State) : Result :=
  if !s.host.linkUp then .next s
  else .next (State.flushVectors { s with host := { s.host with d3hot := d3hot, l2 := l2 } })

/-- Correctable errors that the endpoint met: bit [0], Receiver Error, of the Correctable Error Status of Advanced Error
Reporting, and their count (R437, R457; log entry 112). -/
def State.corrected (s : State) (n : Nat) : State :=
  if n = 0 then s
  else ({ s with host := { s.host with aerCorrectable := putBit s.host.aerCorrectable 0 true } }).odAdd 32 0x2E03 0x01 n

/-- PCIE_LINK_UP: the link trains once PERST_N is high and start-up has come to its step 7, or in recovery (R437,
R502). -/
def execPcieLinkUp (speed : Fin 6) (width maxPayload corrected : Nat) (s : State) : Result :=
  if speed.val = 0 ∨ !s.host.perstHigh ∨ !(s.power.on) ∨ s.startingUp ∨ !([1, 2, 4, 8, 16].contains width) ∨
      !([128, 256, 512].contains maxPayload) then .next s
  else
    let s := (((s.odSet 0x2E00 0x04 speed.val).odSet 0x2E00 0x05 width).odSet 0x2E00 0x06 maxPayload).corrected
      corrected
    .next (State.flushVectors { s with host := { s.host with linkUp := true, d3hot := false, l2 := false } })

end Sys2Proof.Machine
end

