-- ==== Sys2Proof/Machine/Firmware.lean ====
section
/-! DEFINITION. Firmware: firmware images, the choice of the image to run, the update commands, and recovery (R488,
R490–R494, R498). -/

namespace Sys2Proof.Machine

/-! ### Images (R490) -/

/-- OD 0x3101.05 for the bytes of an image: 1 valid, 2 signature or digest failed, 3 security version too low. -/
def imageState (security : Nat) (b : List Byte) : Nat :=
  let n := sliceNat b 12 4
  if sliceNat b 0 4 ≠ 0x46574C4D ∨ 12582912 < n ∨ b.length < 256 + n ∨ sha384 (slice b 256 n) ≠ slice b 16 48 ∨
      !(Config.signatureVerifies (sha384 (slice b 0 64)) (slice b 64 48) (slice b 112 48)) then 2
  else if sliceNat b 8 2 < security then 3
  else 1

/-- The slot as it stands once an image is in it. -/
def slotOf (security : Nat) (b : List Byte) : ImageSlot :=
  { state := imageState security b, version := sliceNat b 4 4, security := sliceNat b 8 2 }

/-- The image the boot logic runs (R491): B or A, and whether it is the other than the preferred; none where neither
is valid. -/
def Flash.bootImage (f : Flash) : Option (Bool × Bool) :=
  let valid (b : Bool) : Bool := (if b then f.imageB else f.imageA).state == 1
  if valid f.preferredB then some (f.preferredB, false)
  else if valid (!f.preferredB) then some (!f.preferredB, true) else none

/-- A slot takes an image. -/
def Flash.setSlot (f : Flash) (b : Bool) (x : ImageSlot) : Flash := if b then { f with imageB := x }
  else { f with imageA := x }

/-! ### Recovery (R492) -/

/-- Every link is off; what the flash holds of its lanes stays. -/
def State.linksOff (s : State) : State :=
  (List.finRange 24).foldl (fun s k => s.setLink k { retired := (s.link k).retired }) s

/-- The boot logic alone runs: CAN and the links are off, and no dictionary access is served. -/
def State.enterRecovery (s : State) : State :=
  { s.linksOff with
    sup := { s.sup with ready := false, recovery := true, asleep := false, programming := none }
    can := { s.can with nmt := .initialisation, nodeId := 0 } }

/-! ### The update commands (R493, R494, R498) -/

/-- A program command ends in OD 0x3102.04 and .05. -/
def State.endUpdate (s : State) (state failure : Nat) : State :=
  (s.odSet 0x3102 0x04 state).odSet 0x3102 0x05 failure

/-- The staged image is verified; a valid one is programmed into the slot not in use, which it empties first (R493). -/
def State.beginUpdate (s : State) : State :=
  let off := s.odGet 0x3102 0x02 0
  let n := s.odGet 0x3102 0x03 0
  if touchesResults (stagingBase + off) n then s.endUpdate 6 2
  else if 0x1000000 < off + n then s.endUpdate 6 1
  else
    let r := s.readStaging (stagingBase + off) n
    if r.1.bad || imageState r.2.flash.security r.1.data != 1 then r.2.endUpdate 6 1
    else
      let s := r.2.endUpdate 2 0
      { s with
        flash := s.flash.setSlot (!s.sup.imageB) {}
        sup := { s.sup with programming := some r.1.data } }

/-- FIRMWARE_PROGRAM (R493). -/
def execFirmwareProgram (via : Path) (s : State) : Result := s.command via 0x3102 0x01 1 fun s => (0, s.beginUpdate)

/-- FIRMWARE_PROGRAM_COMPLETE (R493): the marker changes only after a good read-back. -/
def execFirmwareProgramComplete (flash : FlashOutcome) (s : State) : Result :=
  match s.sup.programming with
  | none => .next s
  | some b =>
    let s := { s with sup := { s.sup with programming := none } }
    let slot := !s.sup.imageB
    match flash with
    | .ok => .next ({ s with flash := { (s.flash.setSlot slot
      (slotOf s.flash.security b)) with preferredB := slot } }.endUpdate 5 0)
    | .writeError => .next (s.endUpdate 6 3)
    | .readBackMismatch =>
      .next ({ s with flash := s.flash.setSlot slot { (slotOf s.flash.security b) with state := 2 } }.endUpdate 6 4)

/-- FIRMWARE_RESTART (R494): core 0 halts; every frame must be EMPTY. -/
def execFirmwareRestart (via : Path) (s : State) : Result :=
  s.command via 0x3102 0x01 3 fun s =>
    if s.allEmpty then (0, { s with sup := { s.sup with ready := false, asleep := true } }) else (abortState, s)

/-- SUPERVISOR_RESTART_COMPLETE (R491, R494): core 0 runs the preferred image, or the other. -/
def execSupervisorRestartComplete (s : State) : Result :=
  if !s.sup.asleep then .next s
  else match s.flash.bootImage with
    | none => .next s.enterRecovery
    | some (b, _) =>
      let s := { s with sup := { s.sup with ready := true, asleep := false, imageB := b } }
      .next (s.logEvent 0x0A01 (b2n b + 2 ^ 8))

/-- A valid image below a security version is no longer valid. -/
def ImageSlot.under (x : ImageSlot) (security : Nat) : ImageSlot :=
  if x.state = 1 ∧ x.security < security then { x with state := 3 } else x

/-- RAISE_SECURITY_VERSION (R494). -/
def execRaiseSecurityVersion (via : Path) (s : State) : Result :=
  s.command via 0x3102 0x01 4 fun s =>
    let v := (if s.sup.imageB then s.flash.imageB else s.flash.imageA).security
    (0, { s with flash := { s.flash with
      security := v, imageA := s.flash.imageA.under v, imageB := s.flash.imageB.under v } })

end Sys2Proof.Machine
end

