-- ==== Sys2Proof/Machine/SelfTest.lean ====
section
/-! DEFINITION. SelfTest: targeted self-tests, spare rows, tiles marked bad and columns pending (R24, R25, R86–R88,
R409–R412, R415, R431). -/

namespace Sys2Proof.Machine

/-! ### Columns (R24, R25) -/

/-- A frame that is not EMPTY holds a logical column. -/
def State.holdsColumn (s : State) (f : Fin 8) (c : Nat) : Bool :=
  (s.frame f).st != .empty && (match (s.frame f).latched with
    | some l => decide (l.first ≤ c) && decide (c ≤ l.last)
    | none => false)

/-- A physical column becomes pending retirement, and the frames that hold it fault (R24). -/
def State.markPending (s : State) (col tile : Nat) : State :=
  if s.grid.columns.getD col .factoryBad ≠ .enabled then s else
  let c := s.grid.columnMap.idxOf col
  let s := { s with grid := { s.grid with columns := s.grid.columns.set col .pending } }
  allFrames.foldl (fun s f => if s.holdsColumn f c then s.frameFault f 0x000A tile 0 else s) s

/-- MARK_COLUMN_PENDING: the host marks a column (R25). -/
def execMarkColumnPending (via : Path) (col : Byte) (s : State) : Result :=
  s.command via 0x2012 0x03 col.toNat fun s => (0, (s.markPending col.toNat 0xFFFF).odSet 0x2012 0x03 col.toNat)

/-- A tile is marked bad: its column becomes pending (R87, R415). -/
def State.markBad (s : State) (t : Nat) : State :=
  let col := s.physicalColumn (s.tileCol t)
  (s.logEvent 0x0203 (t + col * 2 ^ 16)).markPending col t

/-! ### Spare rows (R86, R87) -/

/-- A free spare of a bank. -/
def Tile.freeSpare (x : Tile) (bank : Nat) : Option Nat :=
  (List.range 4).find? fun i => sget 0 x.spares (4 * bank + i) == 0

/-- A failed row takes a spare, which holds what was held of it; with no free spare the tile is bad (R87). -/
def State.failRow (s : State) (t row : Nat) (held : List Byte) (bad : Bool) : State :=
  match (s.tile t).freeSpare (row / 128) with
  | none => s.markBad t
  | some i =>
    ((s.modTile t fun x => { x with spares := sput 0 x.spares (4 * (row / 128) + i) (row + 1) }).writeRow t row
      held bad).logEvent 0x0202 (t + row * 2 ^ 16)

/-! ### Row tests (R88, R409, R410, R412) -/

/-- The tests may run in the tile (R88). -/
def State.mayTest (s : State) (t : Nat) : Bool :=
  match s.frameOf t with
  | none => true
  | some f => [FrameState.stopped, .faulted, .selftest].contains (s.frame f).st

/-- Supervisor cycles of the repeat window (OD 0x2D02.02). -/
def State.repeatWindow (s : State) : Nat := s.odGet 0x2D02 0x02 86400 * 800000000

/-- A pass now is the last one allowed within the repeat window (R412). -/
def State.tooManyPasses (s : State) (passes : List Nat) : Bool :=
  decide (s.odGet 0x2D02 0x01 4 ≤ (passes.filter fun c => decide (s.supCycles ≤ c + s.repeatWindow)).length + 1)

/-- ROW_TEST: a pending row is tested and written back, or takes a spare (R87, R88, R409, R410, R412). -/
def execRowTest (t row : Nat) (fails : Bool) (s : State) : Result :=
  onTile s t (
    if !(s.tests.rows.contains (t, row)) || !(s.mayTest t) then s else
    let d := s.draw
    let r := d.2.readRow t row (Config.openRequester d.1 % 8)
    let s := { r.2 with tests := { r.2.tests with rows := r.2.tests.rows.erase (t, row) } }
    let passes := (s.tests.rowPasses.filter fun p => p.1 == (t, row)).map (·.2)
    if fails then (s.count32 0x2D02 0x07).failRow t row r.1.data r.1.bad
    else
      let s := (s.count32 0x2D02 0x06).logEvent 0x0201 (t + row * 2 ^ 16)
      if s.tooManyPasses passes then s.failRow t row r.1.data r.1.bad
      else { s.writeRow t row r.1.data r.1.bad with
        tests := { s.tests with rowPasses := ((t, row), s.supCycles) :: s.tests.rowPasses } })

/-! ### Pseudo-channel tests (R411, R412) -/

/-- The device address of a place in a pseudo-channel: the inverse of R280 to R282. -/
def State.placeAddr (s : State) (pc loc : Nat) : Nat :=
  let stack := pc / 64
  let ch := bits pc 1 5
  let a := loc + pc % 2 * 0x60000000
  let slot := a / 2 ^ 30
  if s.interleaved stack (32 * slot + ch) then
    let cs := (List.range 32).filter fun q => s.interleaved stack (32 * slot + q)
    let y := (a % 2 ^ 30 / 4096 * cs.length + cs.idxOf ch) * 4096 + a % 4096
    stack * stackSize + (32 * slot + cs.getD (y / 2 ^ 30) 0) * 2 ^ 30 + y % 2 ^ 30
  else stack * stackSize + (32 * slot + ch) * 2 ^ 30 + a % 2 ^ 30

/-- The blocks of a 4 KiB block read and restored; one that cannot be read is written poisoned (R411). -/
def State.restoreBlocks (s : State) (a : Nat) : State :=
  (List.range 64).foldl (fun s i =>
    let r := s.readBlock (a + 64 * i)
    r.2.writeBlock (a + 64 * i) r.1.data r.1.bad) s

/-- The test of a pseudo-channel may start (R411). -/
def State.mayTestPc (s : State) (pc : Nat) : Bool :=
  s.tests.pcsForced.contains pc || !(allFrames.any fun f => s.countsRunning f && s.holdsChannel f pc)

/-- PSEUDO_CHANNEL_TEST: a pending pseudo-channel is tested (R301, R411, R412). -/
def execPseudoChannelTest (pc : Fin 256) (fails : Bool) (s : State) : Result :=
  match s.tests.pcs.find? fun p => p.1 == pc.val with
  | none => .next s
  | some p =>
    if !(s.mayTestPc pc.val) then .next s else
    let s := s.restoreBlocks (s.placeAddr pc.val (p.2 * 4096))
    let left := s.tests.pcs.filter fun q => q.1 != pc.val
    let passes := (s.tests.pcPasses.filter fun q => q.1 == pc.val).map (·.2)
    let s := { s with tests := { s.tests with pcs := left, pcsForced := s.tests.pcsForced.erase pc.val } }
    if fails then .next ((s.count32 0x2D02 0x09).beginRetire pc.val 1)
    else
      let s := (s.count32 0x2D02 0x08).logEvent 0x0301 (pc.val + p.2 * 2 ^ 8)
      .next (if s.tooManyPasses passes then s.beginRetire pc.val 1
        else { s with tests := { s.tests with pcPasses := (pc.val, s.supCycles) :: s.tests.pcPasses } })

/-- RUN_PSEUDO_CHANNEL_TESTS: the host starts the pending tests at once (R411). -/
def execRunPseudoChannelTests (via : Path) (s : State) : Result :=
  s.command via 0x2D02 0x05 1 fun s =>
    (0, { s with tests := { s.tests with pcsForced := s.tests.pcs.map (·.1) } })

/-! ### The fault log in the flash (R431) -/

/-- FAULT_LOG_FLASH_COPY: the log and its counters are copied (R431, R433). -/
def execFaultLogFlashCopy (s : State) : Result :=
  if !s.power.on then .next s else
  .next { s with flash := { s.flash with
    log := s.log, logged := s.odGet 0x2D00 0x05 0, overwritten := s.odGet 0x2D00 0x06 0 } }

end Sys2Proof.Machine
end

