-- ==== Sys2Proof/Machine/Retire.lean ====
section
/-! DEFINITION. Retire: pending column retirements applied, the new width, and the tiles that keep their places under
new tile IDs (R14, R20, R26–R28). -/

namespace Sys2Proof.Machine

/-! ### The width (R27) -/

/-- The enabled columns of a half: 0 west, 1 east. -/
def enabledIn (cs : List ColStatus) (half : Nat) : List Nat :=
  (List.range 50).filter fun p => p / 25 == half && cs.getD p .factoryBad == .enabled

/-- The largest width below `w` that both halves can fill; 0 where there is none. -/
def newWidth (cs : List ColStatus) (w : Nat) : Nat :=
  (([46, 44].filter fun v => decide (v < w) && (List.range 2).all fun h =>
    decide (v / 2 ≤ (enabledIn cs h).length)).head?).getD 0

/-- Column statuses at width `w`: in each half the lowest-numbered enabled columns stay, the rest are disabled. -/
def narrowTo (cs : List ColStatus) (w : Nat) : List ColStatus :=
  let keep := ((List.range 2).flatMap fun h => (enabledIn cs h).take (w / 2))
  (cs.zipIdx).map fun p => if p.1 = .enabled ∧ keep.contains p.2 = false then .narrowed else p.1

/-- The grid after its pending columns are retired together (R27). -/
def Grid.retire (g : Grid) : Grid :=
  let cs := g.columns.map fun c => if c = .pending then .retired else c
  let w := newWidth cs g.width
  { g with width := w, columns := narrowTo cs w }

/-! ### Tiles under their new IDs (R14, R28) -/

/-- The new tile ID of a tile; none where its column has left the grid. -/
def movedTile (old new : Grid) (t : Nat) : Option Nat :=
  if old.width = 0 ∨ 48 * old.width ≤ t then none else
  let c := new.columnMap.idxOf (old.columnMap.getD (t % old.width) 50)
  if c < new.width then some (t / old.width * new.width + c) else none

/-- Sparse data under new keys. -/
def remap {α : Type} [DecidableEq α] (d : α) (g : Nat → Option Nat) (m : SMap α) : SMap α :=
  m.foldl (fun a p => match g p.1 with | some k => sput d a k p.2 | none => a) []

/-- A key of units of `size` per tile from `base`. -/
def movedKey (old new : Grid) (base size a : Nat) : Option Nat :=
  (movedTile old new ((a - base) / size)).map fun t => base + t * size + (a - base) % size

/-- A device address under the new tile IDs. -/
def movedAddr (old new : Grid) (a : Nat) : Option Nat :=
  match regionOf a with
  | .main _ _ => movedKey old new mainBase 0x80000 a
  | .scratch _ _ => movedKey old new scratchBase 0x4000 a
  | _ => some a

/-- The tile records of the device under new tile IDs: each follows its physical tile. -/
def State.moveTiles (s : State) (new : Grid) : State :=
  let old := s.grid
  let row (p : Nat × Nat) : Option (Nat × Nat) := (movedTile old new p.1).map fun t => (t, p.2)
  { s with
    grid := new
    mem := remap 0 (movedAddr old new) s.mem
    errs := remap {} (movedAddr old new) s.errs
    stat := remap 0 (movedKey old new 0 0x2000) s.stat
    statErrs := remap {} (movedKey old new 0 0x2000) s.statErrs
    tiles := remap {} (movedTile old new) s.tiles
    stall := remap [] (movedTile old new) s.stall
    tests := { s.tests with
      rows := s.tests.rows.filterMap row
      rowPasses := s.tests.rowPasses.filterMap fun p => (row p.1).map fun q => (q, p.2) } }

/-- Every pending retirement is applied, recorded and reported (R26, R27). -/
def State.applyRetirements (s : State) : State :=
  let cols := (List.range 50).filter fun p => s.grid.columns.getD p .factoryBad == .pending
  if cols.isEmpty then s else
  let s := (s.moveTiles s.grid.retire).odAdd 8 0x2012 0x04 cols.length
  cols.foldl (fun s c => s.logEvent 0x0204 (c + s.grid.width * 2 ^ 8)) s

/-- APPLY_RETIREMENTS: only while every frame is EMPTY (R26). -/
def execApplyRetirements (via : Path) (s : State) : Result :=
  s.command via 0x2012 0x02 1 fun s => if s.allEmpty then (0, s.applyRetirements) else (abortState, s)

end Sys2Proof.Machine
end

