-- ==== Sys2Proof/Machine/Boot.lean ====
section
/-! DEFINITION. Boot: loss of power, and the start-up sequence that every device reset runs (R41, R65, R74, R105, R238,
R275–R278, R304, R385, R413, R431, R433, R448, R449, R458, R459, R471, R476, R481, R489, R491, R492, R495, R496, R498,
R502). -/

namespace Sys2Proof.Machine

/-! ### What the flash holds (R488) -/

/-- What a tile keeps: the spare rows in use (R87, R105). -/
def Tile.spared (x : Tile) : Tile := { spares := x.spares }

/-- Sparse data with each value replaced; values that become the default are no longer listed. -/
def mapSparse {α : Type} [DecidableEq α] (d : α) (f : α → α) (m : SMap α) : SMap α :=
  m.filterMap fun p => if f p.2 = d then none else some (p.1, f p.2)

/-- A saved-set copy whose writing is broken off is torn (R63, R496). -/
def State.tornFlash (s : State) : Flash :=
  match s.storing with
  | none => s.flash
  | some x => if x.toA then { s.flash with copyA := {} } else { s.flash with copyB := {} }

/-- Scalars that keep their values over a device reset (R41, R82, R433, R498, R502). -/
def keptKeys : List Nat :=
  [odKey 0x1E40 0x0D, odKey 0x1E42 0x03, odKey 0x1E42 0x04, odKey 0x1E42 0x0A, odKey 0x2D02 0x06, odKey 0x2D02 0x07,
    odKey 0x2D02 0x08, odKey 0x2D02 0x09, odKey 0x2E00 0x04, odKey 0x2E00 0x05, odKey 0x2E00 0x06, odKey 0x3100 0x03,
    odKey 0x3104 0x01, odKey 0x2D00 0x05, odKey 0x2D00 0x06] ++ (List.range 8).map fun f => odKey (0x2D10 + f) 0x05

/-- The scalars of a list of keys. -/
def keepScalars (m : SMap (Option Nat)) (ks : List Nat) : SMap (Option Nat) :=
  ks.foldl (fun a k => sput none a k (sget none m k)) []

/-- The scalars left after a reset: those that keep their values, and those the flash holds (R26, R431). -/
def State.keptOd (s : State) (powerUp : Bool) : SMap (Option Nat) :=
  let m := keepScalars s.od (odKey 0x2012 0x04 :: (if powerUp then [] else keptKeys))
  if powerUp then
    sput none (sput none m (odKey 0x2D00 0x05) (some s.flash.logged)) (odKey 0x2D00 0x06) (some s.flash.overwritten)
  else m

/-- The state from which start-up runs: everything at its reset value but what the flash and, over a reset with the
rails up, the counters, the staging memory and the endpoint keep (R105, R238, R278, R476, R496). -/
def State.cleared (s : State) (powerUp : Bool) : State :=
  let staged (a : Nat) : Bool := !powerUp && decide (stagingBase ≤ a) && decide (a < resultBase)
  { State.reset with
    pending := s.pending
    freeCtr := s.freeCtr
    mem := s.mem.filter fun p => staged p.1
    errs := s.errs.filter fun p => staged p.1
    od := s.keptOd powerUp
    grid := { s.grid with split := false }
    tiles := mapSparse {} Tile.spared s.tiles
    can := {}
    pcs := mapSparse {} (fun q => { state := q.state }) s.pcs
    host := { perstHigh := s.host.perstHigh, d3hot := s.host.d3hot, l2 := s.host.l2, msix := s.host.msix
              functionMask := s.host.functionMask, msixEnable := s.host.msixEnable
              aerCorrectable := s.host.aerCorrectable, aerUncorrectable := s.host.aerUncorrectable }
    clock := { onInternal := true }
    power := { on := true, pwrGood := true, inputOut := s.power.inputOut, alert := s.power.alert, sag := s.power.sag,
               tripped := s.power.tripped
               junction := s.power.junction, watts := s.power.watts }
    links := mapSparse {} (fun l => { retired := l.retired }) s.links
    flash := s.tornFlash
    sup := { ready := false }
    jtag := s.jtag
    log := if powerUp then s.flash.log else s.log
    out := s.out }

/-! ### Loss of power (R471, R481) -/

/-- The rails are off: what only the die held is gone. -/
def State.powerLoss (s : State) (trip : Option Nat) : State :=
  let t := s.cleared true
  { t with
    mem := []
    errs := []
    log := []
    host := { perstHigh := s.host.perstHigh }
    power := { on := false, pwrGood := false, tripped := trip, brownOut := trip.isNone, input := s.power.input,
               watts := 0 }
    jtag := {} }

/-- BROWN_OUT (R481). -/
def execBrownOut (s : State) : Result := .next (if s.power.on then s.powerLoss none else s)

/-- HARDWARE_TRIP: a junction sensor reads 115 °C or more (R471). -/
def execHardwareTrip (_sensor : Fin 16) (temp : Int) (s : State) : Result :=
  .next (if s.power.on && decide (1150 ≤ temp) then s.powerLoss (some (temp / 10).toNat) else s)

/-- INPUT_OUT_OF_LIMITS: reported once; below 10.2 V the regulators switch the rails off (R481). -/
def execInputOutOfLimits (mv : Nat) (s : State) : Result :=
  if !s.power.on || inputGood mv then .next s
  else if mv < 10200 then .next ((s.modPower fun p => { p with input := mv }).powerLoss none)
  else
    let t := s.modPower fun p => { p with input := mv, inputOut := true }
    .next (if s.power.inputOut then t else t.logEvent 0x0900 (mv / 10 % 2 ^ 16))

/-! ### Start-up (R495) -/

/-- Step 2: the straps are sampled; the device runs on its internal oscillator (R458, R459, R498). -/
def State.bootStraps (s : State) (b : BootInputs) : State :=
  State.odSet { s with clock := { onInternal := true, clkSel := b.clkSel, pcieRefclk := b.pcieRefclk } }
    0x3100 0x01 b.nodeId.toNat

/-- The cause of a device reset, and their count since power-up (R498). -/
def State.bootCause (s : State) (cause : Nat) (powerUp : Bool) : State :=
  let s := s.odSet 0x3100 0x02 cause
  if powerUp then s else s.count32 0x3100 0x03

/-- A window of the check lies within ±3 % of its nominal count: 250 edges of the crystal, 1,000 of REFCLK (R459,
R462). -/
def windowAccepted (clkSel : Bool) (edges : Nat) : Bool :=
  let nominal := if clkSel then 1000 else 250
  decide (97 * nominal ≤ 100 * edges) && decide (100 * edges ≤ 103 * nominal)

/-- The first 100 consecutive windows that are accepted, newest first; `run` are those accepted so far (R459). -/
def acceptedRun (clkSel : Bool) (run : List Nat) : List Nat → Option (List Nat)
  | [] => none
  | w :: ws =>
    if !(windowAccepted clkSel w) then acceptedRun clkSel [] ws
    else if 99 ≤ run.length then some (w :: run) else acceptedRun clkSel (w :: run) ws

/-- Step 4: the chosen source is checked for 50 ms, which are 5,000 windows; one that is not accepted is reported as a
fail-over (R459, R461, R462). -/
def State.bootClock (s : State) (b : BootInputs) : State :=
  match acceptedRun b.clkSel [] (b.sourceWindows.take 5000) with
  | some ws => State.fixCanClock { s with clock := { s.clock with onInternal := false, windows := ws } }
  | none => s.failOver

/-- Step 5: the stacks are trained (R275, R276, R302, R304). -/
def State.bootStacks (s : State) (b : BootInputs) : State :=
  let s := b.badStacks.foldl (fun s k =>
    ((List.range 64).foldl (fun (s : State) i => s.modPc (64 * k + i) fun q =>
      { q with absent := true }) s).logEvent 0x0303 (k % 4)) s
  let s := b.untrainable.foldl (fun (s : State) pc => if s.pcBacked pc then s.retirePc pc 2 else s) s
  b.lanesRepaired.foldl (fun (s : State) p =>
    if s.pcBacked p.1 then s.modPc p.1 fun q => { q with lanes := p.2 } else s) s

/-- A tile fails its self-test outside its rows, or in a bank with no free spare: kind and tile of event 0x0503 (R413,
R414, R432). -/
def State.failTile (s : State) (t kind : Nat) : State := (s.logEvent 0x0503 (t + kind * 2 ^ 16)).markBad t

/-- A row that fails at start-up takes a spare, or its tile fails (R87, R413). -/
def State.bootRow (s : State) (t row : Nat) : State :=
  if ((s.tile t).freeSpare (row / 128)).isNone then s.failTile t 0 else s.failRow t row (zeroBytes 512) false

/-- Step 6: the device self-test, and the pending retirements (R26, R160, R406, R413). -/
def State.bootTest (s : State) (b : BootInputs) : State :=
  let r := b.rowFailures.foldl (fun (x : List Nat × State) p =>
    (if ((x.2.tile p.1).freeSpare (p.2 / 128)).isNone then p.1 :: x.1 else x.1, x.2.bootRow p.1 p.2)) ([], s)
  let s := b.tileFailures.foldl (fun s p => s.failTile p.1 p.2) r.2
  let failed := (r.1 ++ b.tileFailures.map (·.1)).eraseDups
  let known := b.philoxGood && philoxSelfTest
  let found := !b.rowFailures.isEmpty || !b.tileFailures.isEmpty || !known
  let s := if known then s else s.logEvent 0x0502 0
  let s := s.odSet 0x2400 0x05 (b2n known)
  let s := s.odSet 0x2D03 0x01 (b2n found)
  let s := s.odSet 0x2D03 0x02 failed.length
  (s.odSet 0x2D03 0x03 b.selfTestTime).applyRetirements

/-- The step ends of OD 0x3104; step 1 is run only at power-up. -/
def State.bootTimes (s : State) (b : BootInputs) (powerUp : Bool) : State :=
  (List.range 7).foldl (fun s i =>
    if i = 0 ∧ !powerUp then s else s.odSet 0x3104 (i + 1) (b.stepEnds.getD i 0)) s

/-- Step 7: the dictionary is served, and the node boots up (R72, R74). -/
def State.bootServe (s : State) (b : BootInputs) : State :=
  let s := { s with
    sup := { s.sup with ready := true }
    can := { s.can with nodeId := b.nodeId.toNat, dataRate := s.odGet 0x1E41 0x03 5, nmt := .preOperational } }
  s.sendHeartbeat 0

/-- The endpoint as the reset leaves it: kept with the rails up, where no vector has been raised meanwhile, but held in
reset where PERST_N is low; down after power-up. What was pending before leaves when nothing holds it (R455, R456,
R502). -/
def State.bootHost (s before : State) (b : BootInputs) (powerUp : Bool) : State :=
  let t : State := { s with host := { s.host with
    linkUp := !powerUp && before.host.linkUp
    msixPending := if powerUp then s.host.msixPending else before.host.msixPending } }
  (t.setPerst b.perstHigh).flushVectors

/-- Steps 2 to 7 once an image runs. -/
def State.bootRun (s : State) (b : BootInputs) (image fell : Bool) (powerUp : Bool) : State :=
  let s := { s with sup := { s.sup with imageB := image, fellBack := fell } }
  let s := s.loadSaved 0x1000 0x31FF
  let s := { s with grid := { s.grid with split := s.odGet 0x2020 0x01 0 == 1 } }
  let s := s.bootTimes b powerUp
  let s := if fell then s.logEvent 0x0A01 (b2n image) else s
  let s := if s.flash.savedStatus = 3 then s.logEvent 0x0A00 3 else s
  ((s.bootClock b).bootStacks b).bootTest b

/-- A hardware trip is logged at the boot that follows it (R471). -/
def State.logTrip (s : State) : State :=
  match s.power.tripped with
  | none => s
  | some c => (s.modPower fun p => { p with tripped := none }).logEvent 0x0902 (c % 256 + 2 ^ 8)

/-- A device reset: start-up from step 2, or from step 1 at power-up (R495, R496). -/
def State.deviceReset (s : State) (b : BootInputs) (cause : Nat) (powerUp : Bool) : State :=
  let t := s.cleared powerUp
  let t := State.bootStraps (b := b) { t with
    host := if powerUp then {} else t.host
    jtag := if powerUp then {} else t.jtag
    power := { t.power with input := b.inputMillivolts }
    flash := if powerUp then { t.flash with powerUps := satAdd 32 t.flash.powerUps 1 } else t.flash }
  let t := t.bootCause cause powerUp
  match (if b.flashGood then t.flash.bootImage else none) with
  | none => t.enterRecovery.bootHost s b powerUp
  | some (image, fell) => ((t.bootRun b image fell powerUp).bootServe b).logTrip.bootHost s b powerUp

/-- A start after a loss of power; the regulators start above 10.8 V (R481, R498). -/
def State.coldStart (s : State) (b : BootInputs) : State :=
  if b.inputMillivolts ≤ 10800 then (if s.power.on then s.powerLoss none else s) else
  let cause := if s.power.on then 0 else if s.power.tripped.isSome then 4 else if s.power.brownOut then 3 else 0
  s.deviceReset b cause true

/-- POWER_UP (R495). -/
def execPowerUp (b : BootInputs) (s : State) : Result := .next (s.coldStart b)

/-- MOD_RESET: a device reset with the rails up; after a hardware trip it switches them on again (R471, R496). -/
def execModReset (b : BootInputs) (s : State) : Result :=
  .next (if s.power.on then s.deviceReset b 1 false else if s.power.tripped.isSome then s.coldStart b else s)

/-- RESET_NODE: a reset communication or a device reset, by the scope of OD 0x1E40.0C (R74). -/
def execResetNode (node : BitVec 7) (b : BootInputs) (s : State) : Result :=
  if !(s.can.named node) then .next s
  else if s.odGet 0x1E40 0x0C 0 = 0 then .next (s.resetCommunication b.nodeId)
  else .next (s.deviceReset b 2 false)

/-- RECOVERY_IMAGE_LOAD: the staged image is written to slot A and the device reset; one that is not valid sets DB_S2H
bit 0 (R492). -/
def execRecoveryImageLoad (b : BootInputs) (s : State) : Result :=
  if !s.sup.recovery || !(bit s.host.dbH2s.toNat 0) then .next s else
  let h := s.readStaging stagingBase 256
  let n := sliceNat h.1.data 12 4
  let r := h.2.readStaging stagingBase (256 + min n 12582912)
  if h.1.bad || r.1.bad || imageState r.2.flash.security r.1.data != 1 then .next (r.2.ringHost 1)
  else
    let s := { r.2 with flash := r.2.flash.setSlot false (slotOf r.2.flash.security r.1.data) }
    .next (s.deviceReset b Config.recoveryResetCause.toNat false)

end Sys2Proof.Machine
end

