-- ==== Sys2Proof/Machine/CoreAlu.lean ====
section
/-! DEFINITION. CoreAlu: the arithmetic, logic, shift, compare and move instructions of the tile core (R245). -/

namespace Sys2Proof.Machine

/-- A register operation of MAJ 0x00 (R243, R245). -/
def aluR (s : State) (t : Nat) (i : Instr) (rd ra rb : Reg) (op : W64 → W64 → W64) : Result :=
  runCore s t i fun s _ _ => s.retire t rd (op (s.reg t ra) (s.reg t rb))

/-- An immediate operation (R243, R245). -/
def aluI (s : State) (t : Nat) (i : Instr) (rd ra : Reg) (op : W64 → W64) : Result :=
  runCore s t i fun s _ _ => s.retire t rd (op (s.reg t ra))

/-- A comparison writes the flags and nothing else (R244). -/
def aluFlags (s : State) (t : Nat) (i : Instr) (flags : State → Flags) : Result :=
  runCore s t i fun s _ _ => s.modCore t fun c => { c.advance with flags := flags s }

/-- ADD (R245). -/
def execAdd (t : Nat) (rd ra rb : Reg) (s : State) : Result :=
  aluR s t (.add t rd ra rb) rd ra rb fun a b => a + b

/-- SUB (R245). -/
def execSub (t : Nat) (rd ra rb : Reg) (s : State) : Result :=
  aluR s t (.sub t rd ra rb) rd ra rb fun a b => a - b

/-- AND (R245). -/
def execAndR (t : Nat) (rd ra rb : Reg) (s : State) : Result :=
  aluR s t (.andR t rd ra rb) rd ra rb fun a b => a &&& b

/-- OR (R245). -/
def execOrR (t : Nat) (rd ra rb : Reg) (s : State) : Result :=
  aluR s t (.orR t rd ra rb) rd ra rb fun a b => a ||| b

/-- XOR (R245). -/
def execXorR (t : Nat) (rd ra rb : Reg) (s : State) : Result :=
  aluR s t (.xorR t rd ra rb) rd ra rb fun a b => a ^^^ b

/-- SHL (R245). -/
def execShl (t : Nat) (rd ra rb : Reg) (s : State) : Result :=
  aluR s t (.shl t rd ra rb) rd ra rb fun a b => shiftLeft64 a (shiftAmount b)

/-- SHR (R245). -/
def execShr (t : Nat) (rd ra rb : Reg) (s : State) : Result :=
  aluR s t (.shr t rd ra rb) rd ra rb fun a b => shiftRight64 a (shiftAmount b)

/-- SAR (R245). -/
def execSar (t : Nat) (rd ra rb : Reg) (s : State) : Result :=
  aluR s t (.sar t rd ra rb) rd ra rb fun a b => shiftArith64 a (shiftAmount b)

/-- MUL (R245). -/
def execMul (t : Nat) (rd ra rb : Reg) (s : State) : Result :=
  aluR s t (.mul t rd ra rb) rd ra rb fun a b => a * b

/-- MULHU (R245). -/
def execMulhu (t : Nat) (rd ra rb : Reg) (s : State) : Result :=
  aluR s t (.mulhu t rd ra rb) rd ra rb fun a b => mulHighU a b

/-- MULHS (R245). -/
def execMulhs (t : Nat) (rd ra rb : Reg) (s : State) : Result :=
  aluR s t (.mulhs t rd ra rb) rd ra rb fun a b => mulHighS a b

/-- MIN (R245). -/
def execMinS (t : Nat) (rd ra rb : Reg) (s : State) : Result :=
  aluR s t (.minS t rd ra rb) rd ra rb fun a b => minS a b

/-- MINU (R245). -/
def execMinU (t : Nat) (rd ra rb : Reg) (s : State) : Result :=
  aluR s t (.minU t rd ra rb) rd ra rb fun a b => minU a b

/-- MAX (R245). -/
def execMaxS (t : Nat) (rd ra rb : Reg) (s : State) : Result :=
  aluR s t (.maxS t rd ra rb) rd ra rb fun a b => maxS a b

/-- MAXU (R245). -/
def execMaxU (t : Nat) (rd ra rb : Reg) (s : State) : Result :=
  aluR s t (.maxU t rd ra rb) rd ra rb fun a b => maxU a b

/-- ADDI (R245). -/
def execAddi (t : Nat) (rd ra : Reg) (imm : W16) (s : State) : Result :=
  aluI s t (.addi t rd ra imm) rd ra fun a => a + signImm imm

/-- ANDI (R245). -/
def execAndi (t : Nat) (rd ra : Reg) (imm : W16) (s : State) : Result :=
  aluI s t (.andi t rd ra imm) rd ra fun a => a &&& zeroImm imm

/-- ORI (R245). -/
def execOri (t : Nat) (rd ra : Reg) (imm : W16) (s : State) : Result :=
  aluI s t (.ori t rd ra imm) rd ra fun a => a ||| zeroImm imm

/-- XORI (R245). -/
def execXori (t : Nat) (rd ra : Reg) (imm : W16) (s : State) : Result :=
  aluI s t (.xori t rd ra imm) rd ra fun a => a ^^^ zeroImm imm

/-- SHI: the shift and its amount stand in the immediate (R243, R245). -/
def execShi (t : Nat) (rd ra : Reg) (op : ShiftOp) (amount : BitVec 6) (s : State) : Result :=
  aluI s t (.shi t rd ra op amount) rd ra fun a => shiftOpApply op a amount.toNat

/-- CMP (R244). -/
def execCmp (t : Nat) (ra rb : Reg) (s : State) : Result :=
  aluFlags s t (.cmp t ra rb) fun s => compareFlags (s.reg t ra) (s.reg t rb)

/-- CMPI (R244). -/
def execCmpi (t : Nat) (ra : Reg) (imm : W16) (s : State) : Result :=
  aluFlags s t (.cmpi t ra imm) fun s => compareFlags (s.reg t ra) (signImm imm)

/-- TST (R244). -/
def execTst (t : Nat) (ra rb : Reg) (s : State) : Result :=
  aluFlags s t (.tst t ra rb) fun s => testFlags (s.reg t ra) (s.reg t rb)

/-- MOVI (R245). -/
def execMovi (t : Nat) (rd : Reg) (imm : W16) (s : State) : Result :=
  aluI s t (.movi t rd imm) rd 0 fun _ => signImm imm

/-- MOVK: 16 bits of rd replaced, the others kept (R245). -/
def execMovk (t : Nat) (rd : Reg) (hw : Fin 4) (imm : W16) (s : State) : Result :=
  runCore s t (.movk t rd hw imm) fun s _ _ => s.retire t rd (insertHalf (s.reg t rd) hw imm)

end Sys2Proof.Machine
end

