-- ==== Sys2Proof/Machine/CoreFlow.lean ====
section
/-! DEFINITION. CoreFlow: the loads, stores, branches and jumps of the tile core (R242, R244–R247). -/

namespace Sys2Proof.Machine

/-- LDB (R245, R247). -/
def execLdb (t : Nat) (rd ra : Reg) (imm : W16) (s : State) : Result :=
  runCore s t (.ldb t rd ra imm) fun s f w => s.load t f w 1 true rd ra imm

/-- LDBU (R245, R247). -/
def execLdbu (t : Nat) (rd ra : Reg) (imm : W16) (s : State) : Result :=
  runCore s t (.ldbu t rd ra imm) fun s f w => s.load t f w 1 false rd ra imm

/-- LDH (R245, R247). -/
def execLdh (t : Nat) (rd ra : Reg) (imm : W16) (s : State) : Result :=
  runCore s t (.ldh t rd ra imm) fun s f w => s.load t f w 2 true rd ra imm

/-- LDHU (R245, R247). -/
def execLdhu (t : Nat) (rd ra : Reg) (imm : W16) (s : State) : Result :=
  runCore s t (.ldhu t rd ra imm) fun s f w => s.load t f w 2 false rd ra imm

/-- LDW (R245, R247). -/
def execLdw (t : Nat) (rd ra : Reg) (imm : W16) (s : State) : Result :=
  runCore s t (.ldw t rd ra imm) fun s f w => s.load t f w 4 true rd ra imm

/-- LDWU (R245, R247). -/
def execLdwu (t : Nat) (rd ra : Reg) (imm : W16) (s : State) : Result :=
  runCore s t (.ldwu t rd ra imm) fun s f w => s.load t f w 4 false rd ra imm

/-- LDD (R245, R247). -/
def execLdd (t : Nat) (rd ra : Reg) (imm : W16) (s : State) : Result :=
  runCore s t (.ldd t rd ra imm) fun s f w => s.load t f w 8 false rd ra imm

/-- STB (R245, R247). -/
def execStb (t : Nat) (rs ra : Reg) (imm : W16) (s : State) : Result :=
  runCore s t (.stb t rs ra imm) fun s f w => s.store t f w 1 rs ra imm

/-- STH (R245, R247). -/
def execSth (t : Nat) (rs ra : Reg) (imm : W16) (s : State) : Result :=
  runCore s t (.sth t rs ra imm) fun s f w => s.store t f w 2 rs ra imm

/-- STW (R245, R247). -/
def execStw (t : Nat) (rs ra : Reg) (imm : W16) (s : State) : Result :=
  runCore s t (.stw t rs ra imm) fun s f w => s.store t f w 4 rs ra imm

/-- STD (R245, R247). -/
def execStd (t : Nat) (rs ra : Reg) (imm : W16) (s : State) : Result :=
  runCore s t (.std t rs ra imm) fun s f w => s.store t f w 8 rs ra imm

/-- B.cond: taken when the condition holds on the flags (R242, R244). -/
def execBCond (t : Nat) (c : Fin 15) (off : BitVec 22) (s : State) : Result :=
  runCore s t (.bCond t c off) fun s _ _ =>
    if (s.tile t).core.flags.holds c then s.jumpTo t (branchTarget (s.tile t).core.here off) else s.retireNone t

/-- J (R242, R245). -/
def execJump (t : Nat) (off : BitVec 26) (s : State) : Result :=
  runCore s t (.jump t off) fun s _ _ => s.jumpTo t (branchTarget (s.tile t).core.here off)

/-- JAL: g31 = PC + 4, then the jump (R245). -/
def execJal (t : Nat) (off : BitVec 26) (s : State) : Result :=
  runCore s t (.jal t off) fun s _ _ =>
    let c := (s.tile t).core
    (s.modCore t fun c => c.setReg 31 c.next).jumpTo t (branchTarget c.here off)

/-- JALR: ra is read before rd = PC + 4 is written (R245, R248). -/
def execJalr (t : Nat) (rd ra : Reg) (s : State) : Result :=
  runCore s t (.jalr t rd ra) fun s _ _ => (s.modCore t fun c => c.setReg rd c.next).jumpTo t (s.reg t ra)

end Sys2Proof.Machine
end

