-- ==== Sys2Proof/Machine/EngineIssue.lean ====
section
/-! DEFINITION. EngineIssue: the ISSUE instruction, one command per engine and, for the row engine and the DMA
engine, per operation that its descriptor names (R167–R170, R179–R187, R249, R256–R263). -/

namespace Sys2Proof.Machine

/-- ISSUE of engine `eng` with the descriptor address of R249. -/
def issueCore (s : State) (t : Nat) (i : Instr) (eng : Nat) (ra : Reg) (imm : W16) : Result :=
  runCore s t i fun s f w => s.issue t f eng (coreAddress (s.reg t ra) imm) w

/-- An OP that the engine does not hold reserved (R179, R257). -/
def opKnown (eng op : Nat) : Bool :=
  if eng = 3 then (rowFnLimit op).isSome else decide (1 ≤ op) && decide (op ≤ 6)

/-- The descriptor at `a` names another operation of the engine than `op`. -/
def State.namesOther (s : State) (t eng op a : Nat) : Bool :=
  let h := header (s.descriptorAt t a)
  descriptorAddrOk a && h.eng == eng && h.op != op && opKnown eng h.op

/-- The command that the word of an ISSUE to the row engine (3) or the DMA engine (4) is read as: the word names its
engine only. -/
def issueWord (t eng : Nat) (ra : Reg) (imm : W16) : Instr :=
  if eng = 3 then .rowMap t ra imm else .dmaMove t ra imm

/-- ISSUE whose descriptor names operation `op`; of another operation it is another command (log entry 5). -/
def issueNamed (s : State) (t eng op : Nat) (ra : Reg) (imm : W16) : Result :=
  runFetched s t
    (fun w => coreInstr t w == some (issueWord t eng ra imm) &&
      !(s.namesOther t eng op (coreAddress (s.reg t ra) imm)))
    fun s f w => s.issue t f eng (coreAddress (s.reg t ra) imm) w

/-- ISSUE FWD (R167, R176). -/
def execIssueFwd (t : Nat) (ra : Reg) (imm : W16) (s : State) : Result := issueCore s t (.issueFwd t ra imm) 1 ra imm
/-- ISSUE BWD (R169, R170, R210). -/
def execIssueBwd (t : Nat) (ra : Reg) (imm : W16) (s : State) : Result := issueCore s t (.issueBwd t ra imm) 2 ra imm
/-- ISSUE XCH (R262, R263). -/
def execIssueXch (t : Nat) (ra : Reg) (imm : W16) (s : State) : Result := issueCore s t (.issueXch t ra imm) 5 ra imm

/-- ISSUE ROW with OP 0x01, MAP (R179). -/
def execRowMap (t : Nat) (ra : Reg) (imm : W16) (s : State) : Result := issueNamed s t 3 0x01 ra imm
/-- ISSUE ROW with OP 0x02, BINARY (R179). -/
def execRowBinary (t : Nat) (ra : Reg) (imm : W16) (s : State) : Result := issueNamed s t 3 0x02 ra imm
/-- ISSUE ROW with OP 0x03, CONVERT (R179). -/
def execRowConvert (t : Nat) (ra : Reg) (imm : W16) (s : State) : Result := issueNamed s t 3 0x03 ra imm
/-- ISSUE ROW with OP 0x04, REDUCE (R179). -/
def execRowReduce (t : Nat) (ra : Reg) (imm : W16) (s : State) : Result := issueNamed s t 3 0x04 ra imm
/-- ISSUE ROW with OP 0x05, NORM_FWD (R182). -/
def execNormFwd (t : Nat) (ra : Reg) (imm : W16) (s : State) : Result := issueNamed s t 3 0x05 ra imm
/-- ISSUE ROW with OP 0x06, NORM_BWD (R183). -/
def execNormBwd (t : Nat) (ra : Reg) (imm : W16) (s : State) : Result := issueNamed s t 3 0x06 ra imm
/-- ISSUE ROW with OP 0x07, SMAX_FWD (R184). -/
def execSoftmaxFwd (t : Nat) (ra : Reg) (imm : W16) (s : State) : Result := issueNamed s t 3 0x07 ra imm
/-- ISSUE ROW with OP 0x08, SMAX_BWD (R184). -/
def execSoftmaxBwd (t : Nat) (ra : Reg) (imm : W16) (s : State) : Result := issueNamed s t 3 0x08 ra imm
/-- ISSUE ROW with OP 0x09, ATTN_PROB (R185). -/
def execAttnProb (t : Nat) (ra : Reg) (imm : W16) (s : State) : Result := issueNamed s t 3 0x09 ra imm
/-- ISSUE ROW with OP 0x0A, ATTN_DS (R185). -/
def execAttnDs (t : Nat) (ra : Reg) (imm : W16) (s : State) : Result := issueNamed s t 3 0x0A ra imm
/-- ISSUE ROW with OP 0x0B, ACT_BWD (R180). -/
def execActBwd (t : Nat) (ra : Reg) (imm : W16) (s : State) : Result := issueNamed s t 3 0x0B ra imm
/-- ISSUE ROW with OP 0x0C, DROPOUT (R186). -/
def execDropout (t : Nat) (ra : Reg) (imm : W16) (s : State) : Result := issueNamed s t 3 0x0C ra imm

/-- ISSUE DMA with OP 0x01, MOVE (R257). -/
def execDmaMove (t : Nat) (ra : Reg) (imm : W16) (s : State) : Result := issueNamed s t 4 1 ra imm
/-- ISSUE DMA with OP 0x02, TRANSPOSE (R258). -/
def execDmaTranspose (t : Nat) (ra : Reg) (imm : W16) (s : State) : Result := issueNamed s t 4 2 ra imm
/-- ISSUE DMA with OP 0x03, STAGED_READ (R126, R250). -/
def execDmaStagedRead (t : Nat) (ra : Reg) (imm : W16) (s : State) : Result := issueNamed s t 4 3 ra imm
/-- ISSUE DMA with OP 0x04, STAGED_WRITE (R126, R128, R250). -/
def execDmaStagedWrite (t : Nat) (ra : Reg) (imm : W16) (s : State) : Result := issueNamed s t 4 4 ra imm
/-- ISSUE DMA with OP 0x05, LINK_WRITE (R260). -/
def execDmaLinkWrite (t : Nat) (ra : Reg) (imm : W16) (s : State) : Result := issueNamed s t 4 5 ra imm
/-- ISSUE DMA with OP 0x06, ZERO (R257). -/
def execDmaZero (t : Nat) (ra : Reg) (imm : W16) (s : State) : Result := issueNamed s t 4 6 ra imm

end Sys2Proof.Machine
end

