-- ==== Sys2Proof/Machine/Exchange.lean ====
section
/-! DEFINITION. Exchange: the data mesh and the laid tables, one tile cycle of a frame's exchange phase at a time
(R85, R94, R107, R114–R127, R262, R263, R291). -/

namespace Sys2Proof.Machine

/-! ### Ports -/

/-- Port `p` of a tile is a stack edge port (R125): N of row 0, S of row 47. -/
def State.edgePort (s : State) (t p : Nat) : Bool := p % 2 == 0 && (s.neighbour t p).isNone

/-- A hop from the tile over port `p` crosses the beam (R116). -/
def State.crossesBeam (s : State) (t p : Nat) : Bool :=
  (s.tileRow t == 23 && p == 2) || (s.tileRow t == 24 && p == 0)

/-- The valid word at input `p`: the head of the inbound queue at a stack edge, else the receive register. -/
def State.inputWord (s : State) (t p : Nat) : Option (List Byte) :=
  if s.edgePort t p then (s.tile t).edge.inbound.head? else sget none (s.tile t).xch.recv p

/-! ### Registers (R118–R122) -/

/-- A send or gather register as a row; never filled, it reads as zero (log entry 14). -/
def rowOf (r : List Byte) : List Byte := if r.isEmpty then zeroBytes 512 else r

def Exchange.sendReg (e : Exchange) (r : Nat) : List Byte := rowOf (if r = 0 then e.sr0 else e.sr1)
def Exchange.gatherReg (e : Exchange) (r : Nat) : List Byte := rowOf (if r = 0 then e.gr0 else e.gr1)
def Exchange.setSend (e : Exchange) (r : Nat) (d : List Byte) : Exchange :=
  if r = 0 then { e with sr0 := d } else { e with sr1 := d }
def Exchange.setGather (e : Exchange) (r : Nat) (d : List Byte) : Exchange :=
  if r = 0 then { e with gr0 := d } else { e with gr1 := d }

def State.modXch (s : State) (t : Nat) (g : Exchange → Exchange) : State :=
  s.modTile t fun x => { x with xch := g x.xch }

/-- The register and sector that selector `v` names in repetition `i` (R121). -/
def selReg (v : Nat) : Nat := (v - 8) / 8
def selSector (e v i : Nat) : Nat := ((v - 8) % 8 + i * entryStep e) % 8

/-- Send registers whose reads were granted three tile cycles earlier hold the new row (R122). -/
def Exchange.fill (e : Exchange) : Exchange :=
  let e' := (e.fills.filter fun f => f.left == 1).foldl (fun e f => e.setSend f.reg f.data) e
  { e' with fills := (e.fills.filter fun f => f.left != 1).map fun f => { f with left := f.left - 1 } }

/-- A send register now holds a row that cannot be used (R291). -/
def Exchange.fillsBad (e : Exchange) : Bool := e.fills.any fun f => f.left == 1 && f.bad

/-! ### One tile cycle of one tile -/

/-- A word driven in a tile cycle: the tile and the input it goes to, and whether it crosses the beam. -/
structure Driven where
  tile : Nat
  port : Nat
  beam : Bool
  word : List Byte
  deriving DecidableEq, Repr

/-- What goes wrong in a tile cycle: an unusable row in a send register, an underrun or an overrun. -/
inductive XchFault where
  | bad
  | underrun
  | overrun
  deriving DecidableEq, Repr

/-- A tile cycle under way: the words driven and the faults met. -/
structure XchTurn where
  s : State
  driven : List Driven := []
  faults : List (Nat × XchFault) := []

/-- The RD field (R122): the row is in its send register three tile cycles later. -/
def State.xchRead (s : State) (t : Nat) (f : Fin 8) (reg row : Nat) : State :=
  let ctx := (s.tile t).active
  let allowed := (s.tile t).decl.allows ctx false 0 row
  let r := s.engineRow t ctx 0 row
  let s := r.2.modXch t fun e => { e with fills := e.fills ++ [⟨3, reg, r.1.data, allowed && r.1.bad⟩] }
  if allowed then s else s.xchRefused t f row

/-- The WR field writes the gather register as it stood at the start of the cycle (R122). -/
def State.xchWrite (s : State) (t : Nat) (f : Fin 8) (reg row : Nat) : State :=
  let w := s.engineWrite t (s.tile t).active row ((s.tile t).xch.gatherReg reg) false
  if w.1.isNone then w.2 else w.2.xchRefused t f row

/-- The bank accesses of an entry's first repetition; `fetched` is the table row that the cycle fetches (R85, R94, R122,
R123). -/
def State.xchAccess (s : State) (t : Nat) (f : Fin 8) (e : Nat) (fetched : Option Nat) : State :=
  let read := if entryRd e then some (entryRdRow e) else fetched
  let s := if entryRd e then s.xchRead t f (entryRdReg e) (entryRdRow e) else s
  let s := if entryWr e then s.xchWrite t f (entryWrReg e) (entryWrRow e) else s
  if entryWr e && read == some (entryWrRow e) then s.collide t (entryWrRow e) else s

/-- The word that an OUT field drives. -/
def State.outWord (s : State) (t e i p : Nat) : Option (List Byte) :=
  let v := entryOut e p
  if v = 0 then none
  else if v ≤ 4 then s.inputWord t (v - 1)
  else some (slice ((s.tile t).xch.sendReg (selReg v)) (64 * selSector e v i) 64)

/-- How many selectors of the entry name input `p`. -/
def namesInput (e p : Nat) : Nat :=
  (List.range 4).countP (fun o => entryOut e o == p + 1) + (if entryGat e p = 0 then 0 else 1)

/-- A dropped word or an empty take (R117, R137). -/
def Exchange.lose (e : Exchange) (dropped empty : Nat) : Exchange :=
  if dropped + empty = 0 then e else
  { e with
    dropped := satAdd 16 e.dropped dropped, emptyTakes := satAdd 16 e.emptyTakes empty
    firstLoss := some (e.firstLoss.getD (e.cycle % 2 ^ 16)) }

/-- Words in receive registers that no selector names, and selectors that name none (R117). -/
def State.countLosses (s : State) (t e : Nat) : State :=
  let ports := (List.range 4).filter fun p => !(s.edgePort t p)
  let valid (p : Nat) : Bool := (s.inputWord t p).isSome
  s.modXch t fun x => x.lose (ports.countP fun p => valid p && namesInput e p == 0)
    (ports.foldl (fun n p => n + (if valid p then 0 else namesInput e p)) 0)

/-- A word driven on a port: into the outbound queue at a stack edge, else to the neighbour (R115, R125,
R127). -/
def XchTurn.drive (a : XchTurn) (f : Fin 8) (t p : Nat) (w : List Byte) : XchTurn :=
  if a.s.edgePort t p then
    let e := (a.s.tile t).edge
    if 0 < e.room ∧ e.outbound.length < 64 then
      { a with s := a.s.modTile t fun x => { x with edge := { x.edge with outbound := x.edge.outbound ++ [w] } } }
    else { a with faults := a.faults ++ [(t, .overrun)] }
  else match a.s.neighbour t p with
    | some n => if a.s.frameHas f n then
        { a with driven := a.driven ++ [⟨n, facing p, a.s.crossesBeam t p, w⟩] } else a
    | none => a

/-- The gathers of an entry, into the registers as a write of the same cycle has left them (R122). -/
def State.gather (s : State) (t e i : Nat) : State :=
  (List.range 4).foldl (fun s p =>
    let g := entryGat e p
    match (if g = 0 then none else s.inputWord t p) with
    | some w => s.modXch t fun x =>
        x.setGather (selReg g) (splice (x.gatherReg (selReg g)) (64 * selSector e g i) w)
    | none => s) s

/-- The head of the inbound queue is popped where a selector names the stack edge (R125, R127). -/
def XchTurn.pop (a : XchTurn) (t e : Nat) : XchTurn :=
  match (List.range 4).find? fun p => a.s.edgePort t p && namesInput e p != 0 with
  | none => a
  | some _ =>
    if (a.s.tile t).edge.inbound.isEmpty then { a with faults := a.faults ++ [(t, .underrun)] }
    else { a with s := a.s.modTile t fun x => { x with edge := { x.edge with inbound := x.edge.inbound.drop 1 } } }

/-- The later table row that is fetched in a cycle that does not use RD (R123). -/
def LaidTable.dueRow (l : LaidTable) (index : Nat) : Option Nat :=
  let have_ := l.code.length / 512
  if have_ < l.rows ∧ have_ ≤ index / 32 + 2 then some have_ else none

/-- That row is fetched. -/
def State.xchFetch (s : State) (t : Nat) (f : Fin 8) (l : LaidTable) (row : Option Nat) : State :=
  match row with
  | none => s
  | some i =>
    let r := s.fetchTableRow t f l i
    r.2.modXch t fun x => { x with running := x.running.map fun l => { l with code := l.code ++ r.1 } }

/-- The counter of a table that has ended is signalled (R262). -/
def State.signalTable (s : State) (t : Nat) : State :=
  match (s.tile t).xch.tableDone with
  | none => s
  | some (kc, ctx) => (s.modXch t fun x => { x with tableDone := none }).signal t ctx kc

/-- The table's last entry ends (R108, R254, R262). -/
def State.tableEnds (s : State) (t : Nat) (f : Fin 8) (l : LaidTable) : State :=
  let s := s.signalTable t
  let arrived := (s.tile t).arrival.isSome
  let s := s.modXch t fun x =>
    { x with running := none, tableDone := some (l.kc, l.context), phase := if arrived then 4 else x.phase }
  if arrived then (s.modTile t Tile.takeScan).firstArrives f else s

/-- The table goes on to its next repetition or entry, or ends (R119). -/
def State.xchNext (s : State) (t : Nat) (f : Fin 8) (l : LaidTable) (e : Nat) : State :=
  let x := (s.tile t).xch
  if x.rep + 1 < entryCycles e then s.modXch t fun x => { x with rep := x.rep + 1 }
  else if entryEnd e ∨ l.entries ≤ x.index + 1 then s.tableEnds t f l
  else s.modXch t fun x => { x with index := x.index + 1, rep := 0 }

/-- One tile cycle of a tile's laid table (R122). -/
def XchTurn.entry (a : XchTurn) (f : Fin 8) (t : Nat) (l : LaidTable) : XchTurn :=
  let x := (a.s.tile t).xch
  let e := tableEntry l.code x.index
  let i := x.rep
  let outs := (List.range 4).filterMap fun p => (a.s.outWord t e i p).map fun w => (p, w)
  let due := if i = 0 ∧ entryRd e then none else l.dueRow x.index
  let s := a.s.xchFetch t f l due
  let s := if i = 0 then s.xchAccess t f e (due.map (l.row + ·)) else s
  let s := (s.countLosses t e).gather t e i
  let a : XchTurn := outs.foldl (fun a q => a.drive f t q.1 q.2) { a with s := s }
  let a := a.pop t e
  let s := a.s.modXch t fun x => { x with entryShown := x.index }
  { a with s := s.xchNext t f l e }

/-- One tile cycle of one tile: its fills, then its table, or the loss of what reaches a tile that has none. -/
def XchTurn.tile (f : Fin 8) (a : XchTurn) (t : Nat) : XchTurn :=
  let bad := (a.s.tile t).xch.fillsBad
  let a : XchTurn := { a with
    s := a.s.modXch t Exchange.fill, faults := if bad then a.faults ++ [(t, .bad)] else a.faults }
  match (a.s.tile t).xch.running with
  | some l => a.entry f t l
  | none => { a with s := a.s.countLosses t 0 }

/-! ### One tile cycle of a frame -/

/-- The receive and beam registers at the end of a tile cycle (R115, R116). -/
def latchWords (driven : List Driven) (t row : Nat) (e : Exchange) : Exchange :=
  let mine := driven.filter fun d => d.tile == t
  let recv := (mine.filter fun d => !d.beam).foldl (fun m d => sput none m d.port (some d.word)) []
  { e with
    recv := match e.beam with
      | some w => sput none recv (if row = 24 then 0 else 2) (some w)
      | none => recv
    beam := ((mine.filter fun d => d.beam).head?).map (·.word)
    cycle := e.cycle + 1 }

/-- The faults of a tile cycle reach the frame (R127, R291). -/
def State.xchFaults (s : State) (f : Fin 8) (fs : List (Nat × XchFault)) : State :=
  fs.foldl (fun s p => match p.2 with
    | .bad => s.frameFault f 0x0007 p.1 0
    | .underrun => s.edgeFault p.1 f false
    | .overrun => s.edgeFault p.1 f true) s

/-- A table runs in the frame, or words or rows of one are still on their way. -/
def State.exchanging (s : State) (f : Fin 8) : Bool :=
  (s.frameTiles f).any fun t =>
    let e := (s.tile t).xch
    e.running.isSome || !e.recv.isEmpty || e.beam.isSome || !e.fills.isEmpty

/-- One tile cycle of the frame's exchange: every tile of the frame together. -/
def State.exchangeCycle (s : State) (f : Fin 8) : State :=
  let ts := s.frameTiles f
  let a := ts.foldl (XchTurn.tile f) { s := s }
  let s := a.s.modTiles ts fun t x => { x with xch := latchWords a.driven t (a.s.tileRow t) x.xch }
  s.xchFaults f a.faults

/-- LAID_TABLE_ENTRY: one tile cycle of the frame's laid tables (R122). -/
def execLaidTableEntry (f : Fin 8) (s : State) : Result :=
  if (s.frame f).st = .running ∧ s.exchanging f then .next ((s.exchangeCycle f).wakeFrame f) else .next s

end Sys2Proof.Machine
end

