-- ==== Sys2Proof/Machine/Image.lean ====
section
/-! DEFINITION. Image: image sets and the checks LOAD makes of them (R101, R119–R124, R195, R197, R267, R269–R271). -/

namespace Sys2Proof.Machine

/-! ### Fields -/

/-- The `n` bytes at `off`, if the set has them. -/
def part (b : List Byte) (off n : Nat) : Option (List Byte) :=
  if off + n ≤ b.length then some (slice b off n) else none

/-- Every element, or none. -/
def allSome {α : Type} : List (Option α) → Option (List α)
  | [] => some []
  | none :: _ => none
  | some x :: xs => (allSome xs).map (x :: ·)

/-- A value where a rule holds. -/
def check {α : Type} (ok : Bool) (x : Option α) : Option α := if ok then x else none

/-- Two ranges of a first unit and a count share a unit. -/
def meets (a b : Nat × Nat) : Bool :=
  a.2 != 0 && b.2 != 0 && decide (a.1 < b.1 + b.2) && decide (b.1 < a.1 + a.2)

/-- The first range lies in the second. -/
def within (a b : Nat × Nat) : Bool := decide (b.1 ≤ a.1) && decide (a.1 + a.2 ≤ b.1 + b.2)

/-- No two of the ranges share a unit. -/
def disjoint : List (Nat × Nat) → Bool
  | [] => true
  | a :: as => as.all (fun b => !(meets a b)) && disjoint as

/-- All bytes are zero. -/
def allZero (b : List Byte) : Bool := b.all fun x => x == 0

/-! ### Programs and sections (R270, R271) -/

/-- A program image: entry PC, trap vector, scratch sections by offset. -/
structure ProgramImage where
  entry : Nat
  vector : Option Nat
  sections : List (Nat × List Byte)
  deriving DecidableEq, Repr

/-- The first byte of the trap save area (R99). -/
def saveArea : Nat := 0x3F00

/-- A window in bytes of core scratch. -/
def Window.scratchRange (w : Window) : Nat × Nat := (256 * w.base, 256 * w.count)

/-- A scratch section of context `ctx` lies where it may (R99, R101, R267, R271). -/
def sectionOk (d : TileDecl) (ctx off len : Nat) : Bool :=
  if ctx = 0 then decide (off + len ≤ saveArea)
  else if ctx = 1 then within (off, len) d.evalScratch.scratchRange
  else within (off, len) (256 * d.guestScratch.base, 256 * (d.guestScratch.count - 1))

/-- One scratch section record. -/
def scratchSection (b : List Byte) (d : TileDecl) (ctx at_ : Nat) : Option (Nat × List Byte) :=
  (part b at_ 16).bind fun r =>
    let off := sliceNat r 0 2
    let len := sliceNat r 2 2
    check (allZero (slice r 4 4) && sectionOk d ctx off len)
      ((part b (sliceNat r 8 8) len).map fun x => (off, x))

/-- The program image of a context at an offset. -/
def programImage (b : List Byte) (d : TileDecl) (ctx at_ : Nat) : Option ProgramImage :=
  (part b at_ 16).bind fun h =>
    let n := sliceNat h 4 4
    if allZero (slice h 8 8) && decide (at_ + 16 + 16 * n ≤ b.length) then
      (allSome ((List.range n).map fun i => scratchSection b d ctx (at_ + 16 + 16 * i))).map fun ss =>
        ⟨sliceNat h 0 2, if sliceNat h 2 2 = 0xFFFF then none else some (sliceNat h 2 2), ss⟩
    else none

/-- The program image of a context, absent at offset 0. -/
def programAt (b : List Byte) (d : TileDecl) (ctx at_ : Nat) : Option (Option ProgramImage) :=
  if at_ = 0 then some none else (programImage b d ctx at_).map some

/-- A main-memory section lies wholly inside or wholly outside each row window. -/
def rowsOk (d : TileDecl) (a : Nat × Nat) : Bool :=
  decide (a.1 + a.2 ≤ 896) && [d.guestRows, d.evalRows].all fun w =>
    !(meets a (w.base, w.count)) || within a (w.base, w.count)

/-- One record of a main-memory section list: first row and data. -/
def memorySection (b : List Byte) (d : TileDecl) (at_ : Nat) : Option (Nat × List Byte) :=
  (part b at_ 16).bind fun r =>
    check (allZero (slice r 4 4) && rowsOk d (sliceNat r 0 2, sliceNat r 2 2))
      ((part b (sliceNat r 8 8) (512 * sliceNat r 2 2)).map fun x => (sliceNat r 0 2, x))

/-- The rows a main-memory section takes. -/
def sectionRows (p : Nat × List Byte) : Nat × Nat := (p.1, p.2.length / 512)

/-! ### Laid tables (R119–R124) -/

/-- The fields of one entry keep R120 and R124: reserved values, row addresses, and no two gathers into one sector.
A row address is looked at whether or not its access is made (log entry 23). -/
def entryOk (e : Nat) : Bool :=
  let gs := ((List.range 4).map (entryGat e)).filter fun g => g != 0
  !(entryReserved e) && decide (entryRdRow e < 896) && decide (entryWrRow e < 896) && decide gs.Nodup

/-- Every table row but the last two has a cycle in which row n + 2 is fetched (R123). -/
def fetchesFit (es : List Nat) : Bool :=
  let rows := chunks 32 es.length es
  (rows.take (rows.length - 2)).all fun r => r.any fun e => !(entryRd e) || decide (1 < entryCycles e)

/-- The entries up to and with the one that has END; none where there is no END. -/
def upToEnd : List Nat → Option (List Nat)
  | [] => none
  | e :: es => if entryEnd e then some [e] else (upToEnd es).map (e :: ·)

/-- A laid table of `n` entries at local row `row` keeps the rules that answer code 0x0008: its entries. -/
def laidTable (sections : List (Nat × List Byte)) (row n : Nat) : Option (List Nat) :=
  check (decide (n ≤ 8192))
    ((sections.find? fun p => within (row, ceilDiv n 32) (sectionRows p)).bind fun p =>
      let es := (List.range n).map fun i => tableEntry (p.2.drop (512 * (row - p.1))) i
      (upToEnd es).bind fun run => check (es.all entryOk && fetchesFit run) (some es))

/-! ### Tile entries (R270, R101, R197) -/

/-- What an image set gives one tile. -/
structure TileImage where
  programs : List (Option ProgramImage)
  sections : List (Nat × List Byte)
  tables : List (List Nat)
  decl : TileDecl
  deriving DecidableEq, Repr

/-- The windows of eight bytes of a tile entry: rows, scratch, stat. -/
def windowsOf (w : List Byte) : Window × Window × Window :=
  (⟨sliceNat w 0 2, sliceNat w 2 2⟩, ⟨sliceNat w 4 1, sliceNat w 5 1⟩, ⟨sliceNat w 6 1, sliceNat w 7 1⟩)

/-- The declarations of a tile entry; the tables come from their own list. -/
def tileDecl (e : List Byte) (tables : List (Nat × Nat)) : TileDecl :=
  let g := windowsOf (slice e 24 8)
  let v := windowsOf (slice e 32 8)
  { modes := sliceNat e 16 1, queues := sliceNat e 17 1
    watchFirst := sliceNat e 18 1, watchLines := sliceNat e 19 1
    scalePage := sliceNat e 20 2, scaleCounter := sliceNat e 22 1
    guestRows := g.1, guestScratch := g.2.1, guestStat := g.2.2
    evalRows := v.1, evalScratch := v.2.1, evalStat := v.2.2, tables := tables }

/-- A window lies in its memory of `top` units, or is empty (R101). -/
def Window.fits (w : Window) (top : Nat) : Bool := w.count == 0 || decide (w.base + w.count ≤ top)

/-- The windows keep R101. -/
def TileDecl.windowsOk (d : TileDecl) (guest : Bool) : Bool :=
  d.guestRows.fits 896 && d.evalRows.fits 896 && d.guestScratch.fits 63 && d.evalScratch.fits 63 &&
    d.guestStat.fits 128 && d.evalStat.fits 128 &&
    !(meets (d.guestRows.base, d.guestRows.count) (d.evalRows.base, d.evalRows.count)) &&
    !(meets (d.guestScratch.base, d.guestScratch.count) (d.evalScratch.base, d.evalScratch.count)) &&
    !(meets (d.guestStat.base, d.guestStat.count) (d.evalStat.base, d.evalStat.count)) &&
    (!guest || decide (1 ≤ d.guestScratch.count))

/-- The watch area, scale page and scale counter keep R197, R270 and R271. -/
def TileDecl.watchOk (d : TileDecl) : Bool :=
  decide (d.watchLines ≤ 16) && decide (d.watchFirst + d.watchLines ≤ 128) && decide (d.scaleCounter ≤ 7) &&
    (if d.watchLines = 0 then d.scalePage == 0 && d.scaleCounter == 0
     else decide (d.scalePage % 32 = 0) && decide (d.scalePage + 32 ≤ saveArea) &&
      !(meets (d.scalePage, 32) d.guestScratch.scratchRange) && !(meets (d.scalePage, 32) d.evalScratch.scratchRange))

/-- The laid-table list of a tile entry. -/
def tableList (b e : List Byte) : Option (List (Nat × Nat)) :=
  (part b (sliceNat e 40 4) (4 * sliceNat e 44 2)).map fun l =>
    (List.range (sliceNat e 44 2)).map fun i => (sliceNat l (4 * i) 2, sliceNat l (4 * i + 2) 2)

/-- The main-memory sections of a tile entry. -/
def sectionList (b e : List Byte) (d : TileDecl) : Option (List (Nat × List Byte)) :=
  check (sliceNat e 46 2 == 0 || sliceNat e 12 4 != 0)
    (allSome ((List.range (sliceNat e 46 2)).map fun i => memorySection b d (sliceNat e 12 4 + 16 * i)))

/-- One tile entry, where it keeps every rule that answers code 0x0008; `contexts` is byte 11 of the header. -/
def tileImage (b : List Byte) (contexts at_ : Nat) : Option TileImage :=
  (part b at_ 64).bind fun e =>
  (tableList b e).bind fun tables =>
    let d := tileDecl e tables
    let evalOff := sliceNat e 4 4
    let guestOff := sliceNat e 8 4
    check (!(bit d.modes 7) && decide (d.queues < 16) && sliceNat e 23 1 == 0 && allZero (slice e 48 16) &&
        (tables.isEmpty || sliceNat e 40 4 != 0) && (evalOff == 0 || bit contexts 1) &&
          (guestOff == 0 || bit contexts 2) &&
        d.windowsOk (guestOff != 0) && d.watchOk)
      ((sectionList b e d).bind fun ms =>
       (allSome [programAt b d 0 (sliceNat e 0 4), programAt b d 1 evalOff, programAt b d 2 guestOff]).bind fun ps =>
       (allSome (tables.map fun t => laidTable ms t.1 t.2)).bind fun ts =>
        check (disjoint (ms.map sectionRows) &&
            disjoint ((ps.filterMap id).flatMap fun p => p.sections.map fun q => (q.1, q.2.length)))
          (some ⟨ps, ms, ts, d⟩))

/-! ### The set (R269) -/

/-- The tiles of a band. -/
def Latched.bandWidth (l : Latched) : Nat := l.last + 1 - l.first
def Latched.rowCount (l : Latched) : Nat := shapeLastRow l.shape + 1 - shapeFirstRow l.shape

/-- The header keeps the rules of R269 but for its W. -/
def headerOk (l : Latched) (b : List Byte) : Bool :=
  sliceNat b 0 4 == 0x53494D4C && sliceNat b 4 2 == 1 && sliceNat b 6 2 == 1 && sliceNat b 9 1 == l.shape &&
    sliceNat b 10 1 == l.bandWidth && sliceNat b 11 1 &&& 0xF9 == 1 &&
    sliceNat b 16 4 == l.bandWidth * l.rowCount && sliceNat b 20 4 == 0 && sliceNat b 32 4 == 0 &&
    allZero (slice b 40 88) && sliceNat b 36 4 == crc32c (splice b 36 (zeroBytes 4))

/-- The tile images of a set, in ascending tile ID; none where the set is refused with code 0x0008. -/
def tileImages (l : Latched) (b : List Byte) : Option (List TileImage) :=
  if headerOk l b && decide (sliceNat b 12 4 + 64 * sliceNat b 16 4 ≤ b.length) then
    allSome ((List.range (sliceNat b 16 4)).map fun i => tileImage b (sliceNat b 11 1) (sliceNat b 12 4 + 64 * i))
  else none

/-- The TID an image set places in a watch slot (log entry 22). -/
def imageTid (b : List Byte) (tile slot : Nat) : Nat :=
  (Config.imageWatchByte b tile slot 0).toNat + 256 * (Config.imageWatchByte b tile slot 1).toNat

/-- Every TID of the watch areas has a record that is enabled and names the frame (R195). -/
def tidsOk (l : Latched) (b : List Byte) (ts : List TileImage) : Bool :=
  (ts.zipIdx).all fun p => (List.range p.1.decl.watchLines).all fun i =>
    imageTid b p.2 i == 0xFFFF || l.watch.any fun r => r.1 == imageTid b p.2 i

end Sys2Proof.Machine
end

