-- ==== Sys2Proof/Machine/Sync.lean ====
section
/-! DEFINITION. Sync: the arrivals and releases of the sync network, sync tokens, turns and context switches (R103,
R107–R113, R131–R135, R163, R200–R202, R212, R254, R262, R267, R273, R396–R400). -/

namespace Sys2Proof.Machine

/-! ### Arrivals -/

/-- A tile counts as arrived without its core: it has executed END, has no program for the turn's context, or
its guest context is halted (R101, R254, R267). -/
def Tile.impliedArrival (x : Tile) : Bool :=
  let c := x.switching.getD x.active
  x.hasEnded || (c != 0 && !(x.ctx c).program) || (c == 2 && x.guestHalted)

/-- The tile has arrived at the present sync (R108). -/
def Tile.hasArrived (x : Tile) : Bool := x.impliedArrival || (x.arrival.isSome && x.xch.running.isNone)

def State.allArrived (s : State) (f : Fin 8) : Bool := (s.frameTiles f).all fun t => (s.tile t).hasArrived

/-- The arrivals that name a kind and flags. -/
def State.arrivals (s : State) (f : Fin 8) : List Arrival := (s.frameTiles f).filterMap fun t => (s.tile t).arrival

/-- What the frame's tiles name at a sync. -/
structure Named where
  kind : Nat
  stepAdvance : Bool
  scanClose : Bool
  switchPoint : Bool
  deriving DecidableEq, Repr

def Arrival.named (a : Arrival) : Named := ⟨a.kind, a.stepAdvance, a.scanClose, a.switchPoint⟩

/-- The kind and flags of the sync: those of the tiles that name them. A turn in which every arrival is implied
goes back to main, at an exit sync with the kind that opened its phase (log entry 20). -/
def State.syncNamed (s : State) (f : Fin 8) : Named :=
  match s.arrivals f with
  | [] => ⟨(s.frame f).exchange.getD 2, false, false, true⟩
  | a :: _ => a.named

/-- Every tile names the same kind and flags, and at an exit sync the kind that opened the phase (R109). -/
def State.syncAgrees (s : State) (f : Fin 8) : Bool :=
  let n := s.syncNamed f
  (s.arrivals f).all (fun a => a.named == n) &&
    (match (s.frame f).exchange with | none => true | some k => n.kind == k)

/-! ### Watch posts (R202) -/

/-- The used slots of a tile with their TIDs. -/
def State.usedSlots (s : State) (t : Nat) : List (Nat × Nat) :=
  ((List.range (s.tile t).decl.watchLines).map fun i => (i, s.slotTid t i)).filter fun p => p.2 != 0xFFFF

/-- The per-step fields of a slot cleared (R198, R202). -/
def WatchSlot.clearStep (w : WatchSlot) : WatchSlot :=
  { w with amax := 0, sat := 0, flush := 0, nonfinite := 0, flags := putBit w.flags 2 false }

/-- A tile posts its records and its marker for step `step`, and clears the per-step fields; late counts then
enter the next step (R200, R202). -/
def State.postWatch (s : State) (f : Fin 8) (step t : Nat) : State :=
  if (s.tile t).decl.watchLines = 0 then s else
  let used := s.usedSlots t
  let recs := used.map fun p =>
    let w := (s.tile t).watchSlot p.1
    WatchPost.record f.val t p.2 step w.flags w.amax w.sat w.flush w.nonfinite
  let s := { s with posting := s.posting ++ recs ++ [WatchPost.marker f.val t step used.length] }
  let s := used.foldl (fun s p => s.modSlot t p.1 WatchSlot.clearStep) s
  let s := (s.tile t).watch.late.foldl (fun (s : State) c => s.modSlot t c.slot fun w => w.enter c) s
  s.modTile t fun x => { x with watch := { x.watch with late := [] } }

/-! ### Flags of a release -/

/-- Scan-close: the OR of the scan bits carried, into OD 0x2602 and 0x2603 (R212). -/
def State.scanClose (s : State) (f : Fin 8) : State :=
  let ts := s.frameTiles f
  let found := ts.any fun t =>
    let x := s.tile t
    match x.arrival with
    | some a => a.scan
    | none => x.watch.scanBit
  let s := s.modTiles ts fun _ x =>
    if x.arrival.isSome then x else { x with watch := { x.watch with scanBit := false } }
  let step := (s.frame f).step
  let s := s.odSet 0x2602 (f.val + 1) (step % 2 ^ 24 + b2n found * 2 ^ 32)
  let s := if found then s.count32 0x2603 (f.val + 1) else s
  s.modFrame f fun y => { y with
    scans := match y.scans.find? fun p => p.1 == step with
      | some p => (step, p.2 || found) :: y.scans.erase p
      | none => (step, found) :: y.scans
    scanBad := if found && !(y.scanBad.contains step) then step :: y.scanBad else y.scanBad }

/-- An evaluation turn is due at this step (R400). -/
def evalDueAt (l : Latched) (step : Nat) : Bool :=
  (l.evalInterval != 0 && step != 0 && step % l.evalInterval == 0) ||
    (l.evalAt != 2 ^ 64 - 1 && step == l.evalAt)

/-- Step-advance: the posts of the step that ends, and the current step plus 1 (R163, R202, R400). -/
def State.stepAdvance (s : State) (f : Fin 8) : State :=
  let step := (s.frame f).step
  let s := (s.frameTiles f).foldl (fun s t => s.postWatch f step t) s
  let next := (step + 1) % 2 ^ 64
  (s.modFrame f fun y => { y with
    step := next
    evalDue := y.evalDue || (match y.latched with | some l => evalDueAt l next | none => false) }).checkEval f

/-- The subindex block of a frame's turns. -/
def turnIndex (f : Fin 8) : Nat := 0x2C10 + f.val

/-- Every tile of the frame is to switch to context `c` (R273). -/
def State.requestSwitch (s : State) (f : Fin 8) (c : Nat) : State :=
  (s.modTiles (s.frameTiles f) fun _ x => { x with switching := some c }).modFrame f fun y =>
    { y with turn := c, turnFrom := y.cycles }

/-- The tile cycles of the guest turn under way enter OD 0x2C1f.0B (R404). -/
def State.countTurn (s : State) (f : Fin 8) : State := s.odAdd 64 (turnIndex f) 0x0B (s.frame f).turnCycles

/-- A guest turn ends: its tile cycles, and the overrun of its budget (R398). -/
def State.endGuestTurn (s : State) (f : Fin 8) : State :=
  let n := (s.frame f).turnCycles
  let budget := s.odGet (turnIndex f) 0x04 4194304
  let s := s.countTurn f
  if budget ≠ 0 ∧ budget < n then
    ((s.count32 (turnIndex f) 0x0A).odSet (turnIndex f) 0x03 0).modFrame f fun y => { y with guestDisabled := true }
  else s

/-- Switch-point: a turn begins, or the turn ends (R273, R396). -/
def State.switchPoint (s0 : State) (f : Fin 8) : State :=
  let s := s0.checkEval f
  let y := s.frame f
  if y.turn ≠ 0 then (if y.turn = 2 then s.endGuestTurn f else s).requestSwitch f 0
  else if y.evalPending then
    ((s.modFrame f fun y => { y with evalPending := false }).count32 (turnIndex f) 0x08).requestSwitch f 1
  else if s.odGet (turnIndex f) 0x03 0 = 1 ∧ y.guestFaulted = false then
    (s.count32 (turnIndex f) 0x09).requestSwitch f 2
  else s

/-! ### Release (R107–R112, R134) -/

/-- A tile whose arrival at the next sync is implied shows it from the release on (R101, R137, R254, R267). -/
def Tile.showImplied (x : Tile) : Tile := if x.impliedArrival then { x with xch := x.xch.counted } else x

/-- A tile at a release: its core goes on; at an entry release its table begins (R107, R108, R123, R137). -/
def Tile.release (now : Nat) (opens : Option Nat) (x : Tile) : Tile :=
  let e := x.xch
  let entryWait := match x.arrival with
    | some a => if e.phase = 1 then min (now - a.cycle) 0xFFFF else e.entryWait
    | none => e.entryWait
  let e' : Exchange := match opens with
    | some k => { e with
        phase := 2 + k, running := if x.hasEnded then none else e.next, next := none, index := 0, rep := 0
        cycle := 0, entryWait := entryWait }
    | none => { e with phase := 0, entryWait := entryWait }
  { x with arrival := none, wait := if x.wait = .sync then .none else x.wait, xch := e' }

/-- The end of a superstep (R34, R110, R131). -/
def State.endSuperstep (s : State) (f : Fin 8) : State :=
  s.modFrame f fun y =>
    let y := if y.exchange = some 1 then
        { y with phase := (y.phase + 1) % 2 ^ 32, tokens := y.early, early := [], sent := [] } else y
    { y with
      supersteps := satAdd 64 y.supersteps 1, exchange := none
      st := if y.transition = some .stop then .stopped else y.st
      transition := if y.transition = some .stop then none else y.transition }

/-- Words and rows still on their way at an exit release have met the end of their tables (R117, R122). -/
def State.drainExchange (s : State) (f : Fin 8) : State :=
  Nat.repeat (fun s => if s.exchanging f then s.exchangeCycle f else s) 4 s

/-- The release of a sync whose arrivals agree (R110, R111, R163, R212, R273). -/
def State.release (s : State) (f : Fin 8) : State :=
  let n := s.syncNamed f
  let opens : Option Nat := if (s.frame f).exchange.isNone ∧ n.kind ≠ 2 then some n.kind else none
  let now := (s.frame f).cycles
  let s := if n.scanClose then s.scanClose f else s
  let s := if n.stepAdvance then s.stepAdvance f else s
  let s := s.modTiles (s.frameTiles f) fun _ => Tile.release now opens
  let s := s.modFrame f fun y => { y with firstArrival := none }
  let s := match opens with
    | some k => s.modFrame f fun y => { y with exchange := some k }
    | none => s.endSuperstep f
  let s := if n.switchPoint then s.switchPoint f else s
  s.modTiles (s.frameTiles f) fun _ => Tile.showImplied

/-- The frame stands at the exit sync of an external phase with a peer set (R134). -/
def State.atExternalExit (s : State) (f : Fin 8) : Bool :=
  (s.frame f).exchange == some 1 &&
    (match (s.frame f).latched with | some l => !l.peers.isEmpty | none => false)

/-- A sync at which every tile has arrived releases the frame, or finds a mismatch (R109, R111). -/
def State.trySync (s0 : State) (f : Fin 8) : State :=
  if !(s0.syncAgrees f) then s0.frameFault f 0x0002 0xFFFF 0
  else
    let s := if (s0.frame f).exchange.isSome then s0.drainExchange f else s0
    if (s.frame f).st = .running then s.release f else s

/-- SYNC_RELEASE: the release of a sync that waits on no tokens (R109–R111). -/
def execSyncRelease (f : Fin 8) (s : State) : Result :=
  if (s.frame f).st ≠ .running ∨ s.allArrived f = false then .next s
  else if s.syncAgrees f && s.atExternalExit f then .next s
  else .next (s.trySync f)

/-- SYNC_WATCHDOG_EXPIRY: the release has not come within the watchdog (R113). -/
def execSyncWatchdogExpiry (f : Fin 8) (s : State) : Result :=
  let y := s.frame f
  if y.st = .running ∧ y.firstArrival.isSome ∧ y.watchdog ≠ 0 then .next (s.frameFault f 0x0003 0xFFFF 0)
  else .next s

/-! ### Tokens (R131–R135) -/

/-- A peer of the peer set: device and frame. -/
def peerDevice (p : Nat) : Nat := p % 2 ^ 12
def peerFrame (p : Nat) : Nat := bits p 12 3

/-- A token reaches the frame it names (R133). -/
def State.acceptToken (s : State) (f : Fin 8) (job src sfr phase : Nat) : State :=
  let y := s.frame f
  let peer := src + sfr * 2 ^ 12
  let known := match y.latched with
    | some l => y.st != .empty && l.job == job && l.peers.contains peer
    | none => false
  if !known then s.count32 0x2305 0x01
  else if phase = y.phase then
    s.modFrame f fun y => { y with tokens := if y.tokens.contains peer then y.tokens else peer :: y.tokens }
  else if phase = (y.phase + 1) % 2 ^ 32 then
    (s.modFrame f fun y => { y with early := if y.early.contains peer then y.early else peer :: y.early }).count32
      0x2305 0x02
  else s.count32 0x2305 0x01

/-- An operation is a LINK_WRITE to a peer with rows still to send. -/
def EngOp.writesTo (o : EngOp) (peer : Nat) : Bool :=
  dmaOp o.desc == 5 && peerKey (dmaDev o.desc) (dmaDfr o.desc) == peerKey (peerDevice peer) (peerFrame peer) &&
    decide (o.requested < dmaRows o.desc)

/-- A tile's DMA engine has rows still to send to a peer. -/
def Tile.writesTo (x : Tile) (peer : Nat) : Bool :=
  x.dma.running.any (·.writesTo peer) || x.dma.waiting.any (·.writesTo peer)

/-- A token of phase p may go to a peer: every tile is at the exit sync, and every row the frame writes to the peer has
been sent and acknowledged as complete (R132). -/
def State.tokenReady (s : State) (f : Fin 8) (peer : Nat) : Bool :=
  let y := s.frame f
  y.st == .running && y.exchange == some 1 && s.allArrived f && !(y.sent.contains peer) &&
    sget 0 y.writesOut (peerKey (peerDevice peer) (peerFrame peer)) == 0 &&
    (s.frameTiles f).all fun t => !((s.tile t).writesTo peer)

/-- SYNC_TOKEN_SEND: the token of the current phase to one peer (R132); inside the device to a peer on it.
A token with no route, or for a link that takes nothing, is lost: R132 says nothing of it (log entry 120). -/
def execSyncTokenSend (f : Fin 8) (peer : Fin 32) (s : State) : Result :=
  match (s.frame f).latched with
  | none => .next s
  | some l =>
    match l.peers[peer.val]? with
    | none => .next s
    | some p =>
      if !(s.tokenReady f p) then .next s else
      let phase := (s.frame f).phase
      let s := s.modFrame f fun y => { y with sent := p :: y.sent }
      if peerDevice p = s.device then
        .next (s.acceptToken (frameIx (peerFrame p)) l.job s.device f.val phase)
      else match s.egress (peerDevice p) with
        | none => .next s
        | some k => .next (s.sendTxn k ⟨packTxn
            { kind := 7, dst := peerDevice p, src := s.device, dfr := peerFrame p, sfr := f.val
              hops := s.hopLimit, a := l.job + phase * 2 ^ 4 }, []⟩)

/-- SYNC_TOKEN_RECEIVE: a TOKEN for this device (R133, R374). -/
def execSyncTokenReceive (k : Fin 24) (x : Txn) (s : State) : Result :=
  let h := x.header
  if txnKind h ≠ 7 ∨ txnDst h ≠ s.device then .next s
  else .next ((s.takeTxn k x).acceptToken (frameIx (txnDfr h)) (bits (txnA h) 0 4) (txnSrc h) (txnSfr h)
    (bits (txnA h) 4 32))

/-- A token of the current phase has come from every peer (R134). -/
def State.allTokens (s : State) (f : Fin 8) : Bool :=
  match (s.frame f).latched with
  | some l => l.peers.all fun p => (s.frame f).tokens.contains p
  | none => false

/-- EXTERNAL_SYNC_RELEASE: the exit sync of an external phase releases once every tile has arrived and every
peer's token has come (R110, R131, R134). -/
def execExternalSyncRelease (f : Fin 8) (s : State) : Result :=
  if (s.frame f).st = .running ∧ s.atExternalExit f ∧ s.allArrived f ∧ s.allTokens f then .next (s.trySync f)
  else .next s

/-- EXTERNAL_TIMEOUT: the exit sync of an external phase has not released in time (R135). -/
def execExternalTimeout (f : Fin 8) (s : State) : Result :=
  if (s.frame f).st = .running ∧ (s.frame f).exchange = some 1 then .next (s.frameFault f 0x0004 0xFFFF 0)
  else .next s

/-! ### Tile events -/

/-- XCH_TABLE_END: the counter of a table whose last entry has ended rises (R262). -/
def execXchTableEnd (t : Nat) (s : State) : Result := onRunning s t fun _ => (s.signalTable t).wake t

/-- The tile is idle for a switch of context (R103): its engines, its DMA and its queues. -/
def Tile.switchReady (x : Tile) : Bool :=
  x.fwd.idle && x.bwd.idle && x.row.idle && x.dma.idle && x.edge.reads.isEmpty && x.edge.writes.isEmpty &&
    x.queues.toList.all fun q => q.tuples.isEmpty

/-- CONTEXT_SWITCH: the tile takes the register context its frame has turned to (R103, R273). -/
def execContextSwitch (t : Nat) (s : State) : Result :=
  onRunning s t fun _ =>
    match (s.tile t).switching with
    | none => s
    | some c =>
      if (s.tile t).switchReady then s.modTile t fun x => { x with active := c, switching := none, pair := none } else s

end Sys2Proof.Machine
end

