-- ==== Sys2Proof/Machine/Frames.lean ====
section
/-! DEFINITION. Frames: frame commands and the transitions they begin (R28–R36, R47–R50, R90, R105, R127, R163, R205,
R214, R227, R235, R268, R272, R408, R414, R501). -/

namespace Sys2Proof.Machine

/-! ### What LOAD latches (R32, R131, R165, R195, R239, R404) -/

/-- The enabled records of OD 0x2610 that name frame `f`, by TID. -/
def watchRecords (t : List Byte) (f : Fin 8) : List (Nat × Nat) :=
  ((chunks 16 t.length t).zipIdx).filterMap fun p =>
    let r := leNat p.1
    if bits r 0 3 = f.val ∧ bit r 3 then some (p.2, r) else none

/-- The entries of a frame as a LOAD latches them; the image set is read afterwards. -/
def State.latchEntries (s : State) (f : Fin 8) : Latched :=
  let i := frameIndex f
  let p := 0x2310 + f.val
  { shape := s.odGet i 0x04 0, first := s.odGet i 0x05 0, last := s.odGet i 0x06 0
    channels01 := s.odGet i 0x07 0, channels23 := s.odGet i 0x08 0, links := s.odGet i 0x09 0
    ref := s.odGet i 0x0A 0
    image := []
    job := s.odGet p 0x01 0
    peers := ((List.range (s.odGet p 0x02 0)).map fun n => s.odGet p (3 + n) 0xFFFF).filter fun q => q != 0xFFFF
    seed := s.odGet 0x2401 (f.val + 1) 0, initialStep := s.odGet 0x2402 (f.val + 1) 0
    sendStall := s.odGet 0x2701 (f.val + 1) 65536, receiveWait := s.odGet 0x2702 (f.val + 1) 16777216
    evalInterval := s.odGet (turnIndex f) 0x01 0, evalAt := s.odGet (turnIndex f) 0x02 (2 ^ 64 - 1)
    guest01 := s.odGet (turnIndex f) 0x05 0, guest23 := s.odGet (turnIndex f) 0x06 0
    watch := watchRecords (sget [] s.tables 0x2610) f }

/-! ### The checks of LOAD (R31, R33, R397) -/

/-- A frame holds its band and resources: it is not EMPTY, or a LOAD of it is in progress (R34). -/
def Frame.holds (y : Frame) : Bool := y.st != .empty || y.transition == some .load

/-- What the other frames hold. -/
def State.otherHolds (s : State) (f : Fin 8) : List Latched :=
  (allFrames.filter fun g => g != f && (s.frame g).holds).filterMap fun g => (s.frame g).latched

/-- Two bands share a tile (R29). -/
def Latched.overlaps (a b : Latched) : Bool :=
  decide (a.first ≤ b.last) && decide (b.first ≤ a.last) && decide (shapeFirstRow a.shape ≤ shapeLastRow b.shape) &&
    decide (shapeFirstRow b.shape ≤ shapeLastRow a.shape)

/-- A band of width-`w` columns reaches the edge port of a stack (R21, R31). -/
def Latched.reachesStack (l : Latched) (w stack : Nat) : Bool :=
  let row := if stack < 2 then 0 else 47
  decide (shapeFirstRow l.shape ≤ row) && decide (row ≤ shapeLastRow l.shape) &&
    (if stack % 2 = 0 then decide (l.first < w / 2) else decide (w / 2 ≤ l.last))

/-- A band includes the four tiles of a link (R22, R31). -/
def Latched.reachesLink (l : Latched) (w k : Nat) : Bool :=
  let row := 4 * (k % 12)
  let col := if k < 12 then 0 else w - 1
  decide (shapeFirstRow l.shape ≤ row) && decide (row + 3 ≤ shapeLastRow l.shape) && decide (l.first ≤ col) &&
    decide (col ≤ l.last)

/-- The channels of a stack that a frame holds, as 32 bits. -/
def Latched.channels (l : Latched) (stack : Nat) : Nat :=
  bits (if stack < 2 then l.channels01 else l.channels23) (32 * (stack % 2)) 32

/-- Every channel and link is reachable from the band, and the guest channels are among the frame's (R31, R397). -/
def Latched.reachable (l : Latched) (w : Nat) : Bool :=
  (List.range 4).all (fun n => l.channels n == 0 || l.reachesStack w n) &&
    (List.range 24).all (fun k => !(bit l.links k) || l.reachesLink w k) &&
    l.guest01 &&& l.channels01 == l.guest01 && l.guest23 &&& l.channels23 == l.guest23

/-- The first failing code of R33 that does not come from the image set; 0 passes. -/
def State.bandCode (s : State) (f : Fin 8) (l : Latched) : Nat :=
  let w := s.grid.width
  let os := s.otherHolds f
  if l.last < l.first ∨ w ≤ l.last then 2
  else if os.any (l.overlaps ·) then 3
  else if l.shape = 0 ∧ s.grid.split then 4
  else if os.any fun o => l.channels01 &&& o.channels01 != 0 || l.channels23 &&& o.channels23 != 0 then 5
  else if os.any fun o => l.links &&& o.links != 0 then 6
  else if !(l.reachable w) then 7 else 0

/-- A laid table of the set names a port that R118 forbids. -/
def State.portsLeave (s : State) (f : Fin 8) (l : Latched) (ts : List TileImage) : Bool :=
  let s' := s.setFrame f { st := .loaded, latched := some l }
  ((s'.frameTiles f).zip ts).any fun p => p.2.tables.any fun es => es.any fun e => s'.entryLeaves f p.1 e

/-- The band contains a column pending retirement (R24). -/
def State.bandPending (s : State) (l : Latched) : Bool :=
  (List.range l.bandWidth).any fun c => s.grid.columns.getD (s.physicalColumn (l.first + c)) .enabled == .pending

/-- The image set at a reference, read for LOAD: a code of R33 or its bytes, with the W field read first (R33, R269,
R271). A reference that is not a multiple of 4,096 is refused with 0x0008 before W is read, which no rule says (log
entry 114). -/
def State.readSet (s : State) (a : Nat) : Except Nat (List Byte) × State :=
  if a % 4096 ≠ 0 then (.error 8, s) else
  match s.readTable a 128 with
  | (none, s) => (.error 8, s)
  | (some h, s) =>
    let n := sliceNat h 24 8
    if sliceNat h 8 1 ≠ s.grid.width then (.error 0xC, s)
    else if n < 128 ∨ 2 ^ 28 < n then (.error 8, s)
    else match s.readTable a n with
      | (none, s) => (.error 8, s)
      | (some b, s) => (.ok b, s)

/-- The checks of LOAD: the code, the image set, and the state after its reads (R33). -/
def State.loadChecks (s : State) (f : Fin 8) (l : Latched) (ref : Nat) : Nat × List Byte × State :=
  let c := s.bandCode f l
  if c ≠ 0 then (c, [], s) else
  match s.readSet ref with
  | (.error c, s) => (c, [], s)
  | (.ok b, s) =>
    match tileImages l b with
    | none => (8, [], s)
    | some ts =>
      if !(tidsOk l b ts) then (8, [], s)
      else if s.portsLeave f l ts then (9, [], s)
      else if s.bandPending l then (0xA, [], s) else (0, b, s)

/-! ### Commands (R34, R35, R49) -/

/-- A refusal of a frame command: the code and the abort (R49). -/
def State.refuseFrame (s : State) (f : Fin 8) (code : Nat) : Nat × State :=
  (abortState, s.odSet (frameIndex f) 0x03 code)

/-- A frame command is taken up where the state allows it (R34, R35). -/
def State.frameCommand (s : State) (via : Path) (f : Fin 8) (v : Nat) (ok : Frame → Bool) (body : State → State) :
    Result :=
  s.command via (frameIndex f) 0x01 v fun s =>
    if (s.frame f).transition.isSome then s.refuseFrame f 0xB
    else if !(ok (s.frame f)) then s.refuseFrame f 1
    else (0, body (s.odSet (frameIndex f) 0x03 0))

/-- LOAD: the checks, and the placing of the images begins (R32, R33, R49). -/
def execLoad (via : Path) (f : Fin 8) (s : State) : Result :=
  s.frameCommand via f 1 (fun y => y.st == .empty) fun s =>
    let l := s.latchEntries f
    let r := s.loadChecks f l l.ref
    if r.1 ≠ 0 then r.2.2.odSet (frameIndex f) 0x03 r.1
    else r.2.2.modFrame f fun y => { y with latched := some { l with image := r.2.1 }, transition := some .load }

/-! ### Placement (R90, R105, R205, R272) -/

/-- The memories of a tile read zero and hold no error (R90). -/
def State.fillTile (s : State) (t : Nat) : State :=
  { s with
    mem := (s.mem.zero (mainAddr t 0) 0x70000).zero (scratchAddr t 0) 0x4000
    errs := errsClear (errsClear s.errs (mainAddr t 0) 0x70000) (scratchAddr t 0) 0x4000
    stat := s.stat.zero (statAddr t 0) 0x2000
    statErrs := errsClear s.statErrs (statAddr t 0) 0x2000 }

/-- A register context as LOAD and RESET leave it (R105). -/
def contextOf (p : Option ProgramImage) : RegContext :=
  match p with
  | none => {}
  | some p => ({ program := true, entry := p.entry, vector := p.vector } : RegContext).goTo (BitVec.ofNat 64 p.entry)

/-- The tile's registers as LOAD and RESET leave them: error counts, spares and routers are kept (R36, R105, R268). -/
def Tile.restart (x : Tile) (i : TileImage) (slots : SMap WatchSlot) : Tile :=
  { main := contextOf (i.programs.getD 0 none), eval := contextOf (i.programs.getD 1 none)
    guest := contextOf (i.programs.getD 2 none)
    net := x.net, tags := x.tags
    watch := { slots := slots }
    decl := i.decl
    cnt := { x.cnt with
      collisions := 0, lastCollisionRow := 0, lastCollisionCycle := 0, portWaits := 0, winRefusals := 0
      winPlace := 0, winMemory := 0, winContext := 0, nonfinite := 0 }
    spares := x.spares }

/-- The watch lines of a tile as the image places them (R197, R201; log entry 22). -/
def State.placeLines (s : State) (t : Nat) (i : TileImage) (b : List Byte) (n : Nat) : State :=
  (List.range i.decl.watchLines).foldl (fun s k =>
    let a := statAddr t (64 * (i.decl.watchFirst + k))
    let byte (j : Nat) : Byte := Config.imageWatchByte b n k j
    let m := s.stat.write a [byte 0, byte 1]
    { s with stat := m.write (a + 24) [byte 24, byte 25, byte 26, byte 27] }) s

/-- The slot registers after placement: the shadow-enabled flag as the record latched has it (R198). -/
def placedSlots (l : Latched) (b : List Byte) (n lines : Nat) : SMap WatchSlot :=
  (List.range lines).foldl (fun m k =>
    match l.watch.find? fun r => r.1 == imageTid b n k with
    | some r => if (shadowPeriod r.2).isSome then sput {} m k { flags := 1, dirty := true } else m
    | none => m) []

/-- The sections of a tile's programs and memory are placed (R272). -/
def State.placeSections (s : State) (t : Nat) (i : TileImage) : State :=
  let s := i.sections.foldl (fun s p => { s with mem := s.mem.write (mainAddr t (512 * p.1)) p.2 }) s
  (i.programs.filterMap id).foldl (fun s p => p.sections.foldl (fun s q =>
    { s with mem := s.mem.write (scratchAddr t q.1) q.2 }) s) s

/-- The scales in use reach both halves of a tile's scale page (R205). -/
def State.placeScales (s : State) (f : Fin 8) (t : Nat) : State :=
  (List.range (s.tile t).decl.watchLines).foldl (fun s i =>
    match s.watchRecord f (s.slotTid t i) with
    | none => s
    | some _ =>
      let e := (s.watchEntry (s.slotTid t i)).scale
      (s.writeScale t i 0 e).writeScale t i 1 e) s

/-- One tile of a frame is filled, placed and restarted (R90, R105, R272). -/
def State.placeTile (s : State) (f : Fin 8) (l : Latched) (t : Nat) (i : TileImage) (n : Nat) : State :=
  let s := ((s.closeQueues t).fillTile t).modTile t fun x =>
    x.restart i (placedSlots l l.image n i.decl.watchLines)
  ((s.placeSections t i).placeLines t i l.image n).placeScales f t

/-- A set of images with the declarations that LOAD latched (R90, R101, R270; log entry 71). -/
def State.keepDecls (s : State) (f : Fin 8) (ts : List TileImage) : List TileImage :=
  (ts.zip (s.frameTiles f)).map fun p => { p.1 with decl := (s.tile p.2).decl }

/-- Every tile of the frame is placed from the image set read; at a RESET the declarations stay as LOAD latched them
(R272). -/
def State.placeFrame (s : State) (f : Fin 8) (l : Latched) (again : Bool) : State :=
  match tileImages l l.image with
  | none => s
  | some ts =>
    let ts := if again then s.keepDecls f ts else ts
    (((s.frameTiles f).zip ts).zipIdx).foldl (fun s p => s.placeTile f l p.1.1 p.1.2 p.2) s

/-- An entry as a LOAD that latches record `r` leaves it, `before` the record that the LOAD before latched: cleared by a
new configuration, and its scale in use the record's initial scale where it holds no history (R207, R214; log entry
94). -/
def WatchEntry.latch (e : WatchEntry) (before : Option Nat) (r : Nat) : WatchEntry :=
  let e : WatchEntry := if before.isSome && before != some r then {} else e
  if watchScaled r && e.history.isEmpty then { e with scale := bits r 32 8 } else e

/-- The entries of the frame's tensors at LOAD (R207, R214). -/
def State.latchScales (s : State) (l : Latched) : State :=
  l.watch.foldl (fun s p =>
    let s := s.setWatch p.1 ((s.watchEntry p.1).latch (sget none s.watch p.1) p.2)
    { s with watch := sput none s.watch p.1 (some p.2) }) s

/-- Returns that have landed in part begin anew after the frame's rows have been cleared (R90, R353). -/
def State.dropLandings (s : State) (f : Fin 8) : State :=
  { s with landings := s.landings.filter fun l => l.frame != f.val || l.notified }

/-- The frame as LOAD and RESET leave it (R34, R110, R131, R163). -/
def Frame.restart (y : Frame) (l : Latched) : Frame :=
  { st := .loaded, latched := some l, step := l.initialStep, queue := y.queue
    waiting := y.waiting, guestDisabled := y.guestDisabled, scans := y.scans, downs := y.downs }

/-- The fault cause and record as they are with no fault recorded (R407, R433). -/
def State.clearCause (s : State) (f : Fin 8) : State :=
  ((((s.odSet (frameIndex f) 0x0C 0).odSet (0x2D10 + f.val) 0x01 0).odSet (0x2D10 + f.val) 0x02 0xFFFF).odSet
    (0x2D10 + f.val) 0x03 0).odSet (0x2D10 + f.val) 0x04 0

/-- A frame that loaded while a column of its band became pending faults (R24). -/
def State.checkPending (s : State) (f : Fin 8) (l : Latched) : State :=
  if s.bandPending l then s.frameFault f 0x000A 0xFFFF 0 else s

/-- LOAD_COMPLETE: every section is placed and the declarations are latched (R34, R90, R272). -/
def execLoadComplete (f : Fin 8) (s : State) : Result :=
  match (s.frame f).transition, (s.frame f).latched with
  | some .load, some l =>
    let s := ((s.dropLandings f).setFrame f ((s.frame f).restart l)).latchScales l
    let s := ((s.placeFrame f l false).clearCause f).odSet (0x2D10 + f.val) 0x05 0
    let s := ((s.odSet 0x2603 (f.val + 1) 0).odSet (turnIndex f) 0x08 0).odSet (turnIndex f) 0x09 0
    .next ((s.odSet (turnIndex f) 0x0B 0).checkPending f l)
  | _, _ => .next s

/-! ### START and STOP (R34, R227) -/

/-- A tile at START: the queues its image declares open are open; one without a main program counts as having executed
END, so its queues stay closed and it counts as arrived (R137, R227, R254). -/
def Tile.begin (x : Tile) : Tile :=
  if x.hasEnded then { x with xch := x.xch.counted }
  else { x with queues := Vector.ofFn fun i => { x.queues[i.val] with isOpen := bit x.decl.queues i.val } }

/-- START: from LOADED every tile begins at its entry point; from STOPPED the frame resumes (R34, R254, R272). -/
def execStart (via : Path) (f : Fin 8) (s : State) : Result :=
  s.frameCommand via f 2 (fun y => y.st == .loaded || (y.st == .stopped && !y.endedAll)) fun s =>
    let fresh := (s.frame f).st == .loaded
    let s := if fresh then s.modTiles (s.frameTiles f) fun _ => Tile.begin else s
    (s.modFrame f fun y => { y with st := .running }).stopIfEnded f

/-- STOP: the frame halts when its next superstep ends (R34, R110). -/
def execStop (via : Path) (f : Fin 8) (s : State) : Result :=
  s.frameCommand via f 3 (fun y => y.st == .running) fun s =>
    s.modFrame f fun y => { y with transition := some .stop }

/-- STOP_TIMEOUT: no sync has completed within the stop timeout (R34). -/
def execStopTimeout (f : Fin 8) (s : State) : Result :=
  if (s.frame f).st = .running ∧ (s.frame f).transition = some .stop then .next (s.frameFault f 0x0001 0xFFFF 0)
  else .next s

/-! ### RESET, SELFTEST and UNLOAD (R34, R127, R214, R414) -/

/-- The tile queues of a frame close (R227). -/
def State.closeTileQueues (s : State) (f : Fin 8) : State := (s.frameTiles f).foldl (fun s t => s.closeQueues t) s

/-- What RESET, SELFTEST and UNLOAD end at once: edge queues, staged and remote requests, watch posts (R127, R214,
R231). -/
def State.quietFrame (s : State) (f : Fin 8) : State :=
  let s := (s.frameTiles f).foldl (fun s t =>
    s.modTile t fun x => { x.abandonRemote with edge := {} }) s
  ((s.dropPosts f).abandonLinks f).modFrame f Frame.goesDown

/-- RESET: the tile state clears and the images are placed again (R34). -/
def execReset (via : Path) (f : Fin 8) (s : State) : Result :=
  s.frameCommand via f 4 (fun y => y.st == .stopped || y.st == .faulted) fun s =>
    ((s.closeTileQueues f).quietFrame f).modFrame f fun y => { y with transition := some .reset }

/-- The image set read again from the latched reference (R32, R34). Where what stands there is no set that LOAD would
take for its tiles, the set that LOAD read remains (log entry 71). -/
def State.reloadSet (s : State) (f : Fin 8) (l : Latched) : Latched × State :=
  match s.readSet l.ref with
  | (.error _, s) => (l, s)
  | (.ok b, s) =>
    match tileImages l b with
    | some ts => (if tidsOk l b ts && !(s.portsLeave f l ts) then { l with image := b } else l, s)
    | none => (l, s)

/-- The effects of RESET: the images placed again from the latched reference (R34, R90, R105, R163). -/
def State.restartFrame (s : State) (f : Fin 8) (l : Latched) : State :=
  let r := (s.countTurn f).reloadSet f l
  ((r.2.dropLandings f).setFrame f ((r.2.frame f).restart r.1)).placeFrame f r.1 true

/-- RESET_COMPLETE: the reload ends and the frame is LOADED (R34, R408). -/
def execResetComplete (f : Fin 8) (s : State) : Result :=
  match (s.frame f).transition, (s.frame f).latched with
  | some .reset, some l => .next (((s.restartFrame f l).clearCause f).checkPending f l)
  | _, _ => .next s

/-- SELFTEST: the frame's tiles are tested (R34, R235, R414). -/
def execSelftest (via : Path) (f : Fin 8) (s : State) : Result :=
  s.frameCommand via f 5 (fun y => y.st == .loaded || y.st == .stopped || y.st == .faulted) fun s =>
    ((s.quietFrame f).closeSupervisorQueue f).modFrame f fun y => { y with st := .selftest, endedAll := false }

/-- The rows that failed in a test: each is read through the corrector and takes a spare of its bank, and those that
find none remain (R87, R414). -/
def State.failRows (s : State) : List (Nat × Nat) → List (Nat × Nat) × State
  | [] => ([], s)
  | (t, row) :: rest =>
    if ((s.tile t).freeSpare (row / 128)).isSome then
      let d := s.draw
      let r := d.2.readRow t row (Config.openRequester d.1 % 8)
      (r.2.failRow t row r.1.data r.1.bad).failRows rest
    else
      let r := s.failRows rest
      ((t, 0) :: r.1, r.2)

/-- SELFTEST_COMPLETE: the frame is loaded again, or faults with cause 0x000C and its failing tiles are marked bad
(R34, R408, R414, R415). -/
def execSelftestComplete (f : Fin 8) (r : SelfTestResult) (s : State) : Result :=
  match (s.frame f).st, (s.frame f).latched with
  | .selftest, some l =>
    let own := r.rowFailures.filter fun p => s.frameHas f p.1 && decide (p.2 < 896)
    let q := s.failRows own
    let bad := q.1 ++ r.failed.toList
    match bad with
    | [] => .next ((q.2.restartFrame f l).checkPending f l)
    | p :: ps =>
      .next (bad.foldl (fun s p => (s.logEvent 0x0503 (p.1 + p.2 * 2 ^ 16)).markBad p.1)
        (q.2.frameFault f 0x000C (ps.foldl (fun m p => min m p.1) p.1) 0))
  | _, _ => .next s

/-- A tile as UNLOAD leaves it: idle, in the device-reset state but for its error counts, spares and bank modes (R34,
R90, R105). -/
def Tile.unload (x : Tile) : Tile :=
  { net := x.net, spares := x.spares, decl := { modes := x.decl.modes }, tags := x.tags, queues := x.queues
    cnt := { x.cnt with
      collisions := 0, lastCollisionRow := 0, lastCollisionCycle := 0, portWaits := 0, winRefusals := 0
      winPlace := 0, winMemory := 0, winContext := 0, nonfinite := 0 } }

/-- UNLOAD: the tiles are idled and the frame's resources released (R34, R127, R227, R235). -/
def execUnload (via : Path) (f : Fin 8) (s : State) : Result :=
  s.frameCommand via f 6 (fun y => y.st == .loaded || y.st == .stopped || y.st == .faulted) fun s =>
    let s := (((s.closeTileQueues f).quietFrame f).closeSupervisorQueue f).countTurn f
    let s := s.modTiles (s.frameTiles f) fun _ => Tile.unload
    s.modFrame f fun y =>
      { cycles := y.cycles, supersteps := y.supersteps, step := y.step, phase := y.phase
        guestDisabled := y.guestDisabled, downs := y.downs }

end Sys2Proof.Machine
end

