-- ==== Sys2Proof/Machine/Jtag.lean ====
section
/-! DEFINITION. Jtag: the test access port and its boundary register (R483, R485). -/

namespace Sys2Proof.Machine

/-- IDCODE: its version is the die stepping (R485; log entry 1). -/
def idcode : Nat := 1 + 0x2B7 * 2 + 0x0048 * 2 ^ 12 + dieStepping % 16 * 2 ^ 28

/-- BYPASS: the one-bit register takes TDI, and what it held leaves by TDO. -/
def execBypass (tdi : Bool) (s : State) : Result :=
  .next ({ s with jtag := { s.jtag with instr := 0, bypass := tdi, extest := false } }.emit (.tdo (b2n s.jtag.bypass)))

/-- IDCODE: the identification code leaves by TDO. -/
def execIdcode (s : State) : Result :=
  .next ({ s with jtag := { s.jtag with instr := 1, extest := false } }.emit (.tdo idcode))

/-- The sideband contacts as the boundary register samples them: [6:0] NODE_ID, [7] CLK_SEL, [8] PERST_N, [9] PWR_GOOD,
[10] THERM_ALERT_N (R483; log entry 17). -/
def State.contacts (s : State) : W64 :=
  BitVec.ofNat 64 (bits (s.odGet 0x3100 0x01 0) 0 7 + b2n s.clock.clkSel * 2 ^ 7 + b2n s.host.perstHigh * 2 ^ 8 +
    b2n s.power.pwrGood * 2 ^ 9 + b2n (!s.power.alert) * 2 ^ 10)

/-- SAMPLE_PRELOAD: the boundary register samples the contacts, or is preloaded. -/
def execSamplePreload (preload : Option W64) (s : State) : Result :=
  let s := { s with jtag := { s.jtag with instr := 2, extest := false } }
  match preload with
  | none => .next ({ s with jtag := { s.jtag with boundary := s.contacts } }.emit (.tdo s.contacts.toNat))
  | some w => .next { s with jtag := { s.jtag with boundary := w } }

/-- EXTEST: the contacts are driven from the boundary register. -/
def execExtest (s : State) : Result :=
  .next ({ s with jtag := { s.jtag with instr := 3, extest := true } }.emit (.contacts s.jtag.boundary.toNat))

end Sys2Proof.Machine
end

