-- ==== Sys2Proof/Machine/Monitors.lean ====
section
/-! DEFINITION. Monitors: the monitor points and their commands (R473–R476, R478). -/

namespace Sys2Proof.Machine

/-- The configuration record of a point (R473). -/
def State.pointRecord (s : State) (i : Nat) : Nat := leNat (s.tableBytes 0x3010 (16 * i) 16)

def State.setPoint (s : State) (i : Nat) (p : MonPoint) : State := { s with monitors := sput {} s.monitors i p }

/-- The bin of a sample under a record (R475). -/
def monitorBin (r : Nat) (v : Int) : Nat :=
  if bit r 8 then
    let sh := bits r 64 6
    if v < 2 ^ sh then 0 else min 31 (Nat.log2 v.toNat + 1 - sh)
  else
    let q := (v - signed 32 (bits r 64 32)) / ((bits r 96 32 : Nat) : Int)
    if q < 0 then 0 else min 31 q.toNat

/-- A sample of an ARMED point is recorded whole (R475). -/
def MonPoint.record (p : MonPoint) (r : Nat) (v : Int) : MonPoint :=
  let t := p.sum + v
  let hi : Int := 2 ^ 63 - 1
  let lo : Int := -(2 ^ 63)
  { p with
    count := satAdd 64 p.count 1, sum := Max.max lo (Min.min hi t), saturated := p.saturated || decide (hi < t) ||
      decide (t < lo)
    min := Min.min p.min v, max := Max.max p.max v, bins := smod 0 p.bins (monitorBin r v) fun n => satAdd 32 n 1 }

/-- floor(x × 2³²) of an FP32 amax, at most 2⁶³ − 1 (source 0x14 of R474). -/
def amaxSample (x : W32) : Int :=
  let m := fmtFP32.magnitude (x.toNat % 2 ^ 31)
  min (2 ^ 63 - 1) (if 0 ≤ m.2 + 32 then (m.1 * 2 ^ (m.2 + 32).toNat : Nat) else (m.1 / 2 ^ (-(m.2 + 32)).toNat : Nat))

/-- The governed clock of a deck in MHz, (f ÷ D) ÷ stretch (R468, R470, R474), as a quotient. In joined mode both decks
run by the divider of the upper one. -/
def State.governedClock (s : State) (lower : Bool) : Nat × Nat :=
  let d := s.odGet 0x2F03 (if s.lowerDomain lower then 2 else 1) 1
  (4 * s.tileMHz, d * (4 + s.stretch lower))

/-- The sample of a source (R474). The state holds the quantity of the sources 0x10 to 0x15; what the timing of the
hardware decides is the operand, which also rounds a clock that is no whole number of MHz (log entry 65). -/
def State.sampleOf (s : State) (source sel : Nat) (operand : Int) : Int :=
  if source = 0x10 then (Config.supplyMillivolts sel (sget 0 s.power.sag sel) : Nat)
  else if source = 0x11 then sget 0 s.power.junction sel
  else if source = 0x12 then signed 16 (s.odGet 0x2812 (1 + sel) 0)
  else if source = 0x13 then
    let q := s.governedClock (sel == 1)
    let lo : Int := (q.1 / q.2 : Nat)
    if q.1 % q.2 ≠ 0 ∧ operand = lo + 1 then operand else lo
  else if source = 0x14 then
    (match (s.watchEntry sel).history with
      | [] => operand
      | x :: _ => amaxSample x)
  else if source = 0x15 then (s.power.watts : Nat)
  else operand

/-- MONITOR_SAMPLE (R474, R475). -/
def execMonitorSample (point : Fin 64) (value : Int) (s : State) : Result :=
  let p := s.point point.val
  let r := s.pointRecord point.val
  .next (if p.state = 1 then s.setPoint point.val (p.record r (s.sampleOf (bits r 0 8) (bits r 16 12) value)) else s)

/-- The values of a point cleared; its state stays. -/
def MonPoint.clear (p : MonPoint) : MonPoint :=
  { p with count := 0, sum := 0, min := 2 ^ 63 - 1, max := -(2 ^ 63), bins := [], saturated := false }

/-- A command applies to every point of the mask with a source, at one instant (R476). -/
def State.monitorCommand (s : State) (via : Path) (v : Nat) (f : MonPoint → MonPoint) : Result :=
  s.command via 0x3000 0x04 v fun s =>
    let mask := s.odGet 0x3000 0x03 0
    let ps := (List.range 64).filter fun i => bit mask i && bits (s.pointRecord i) 0 8 != 0
    let s := ps.foldl (fun s i => s.setPoint i { f (s.point i) with stamp := s.supCycles }) s
    (0, s.odSet 0x3000 0x05 s.supCycles)

/-- MONITOR_ARM. -/
def execMonitorArm (via : Path) (s : State) : Result := s.monitorCommand via 1 fun p => { p with state := 1 }
/-- MONITOR_FREEZE. -/
def execMonitorFreeze (via : Path) (s : State) : Result := s.monitorCommand via 2 fun p => { p with state := 2 }
/-- MONITOR_CLEAR. -/
def execMonitorClear (via : Path) (s : State) : Result := s.monitorCommand via 3 MonPoint.clear
/-- MONITOR_CLEAR_AND_ARM. -/
def execMonitorClearAndArm (via : Path) (s : State) : Result :=
  s.monitorCommand via 4 fun p => { p.clear with state := 1 }

end Sys2Proof.Machine
end

