-- ==== Sys2Proof/Machine/DictRead.lean ====
section
/-! DEFINITION. DictRead: the values of the dictionary's entries as they are read: what is kept as a scalar or a table,
what the state of a unit gives, and the report objects (R41, R44, R54, R66–R69 and the entry tables of every
chapter). -/

namespace Sys2Proof.Machine

/-! ### Scalars that follow from the state of a unit -/

/-- OD 0x2010 (R38). -/
def ColStatus.code : ColStatus → Nat
  | .enabled => 0
  | .factoryGood => 1
  | .factoryBad => 2
  | .narrowed => 3
  | .retired => 4
  | .pending => 5

/-- OD 0x21f0.02 (R39). -/
def FrameState.code : FrameState → Nat
  | .empty => 0
  | .loaded => 1
  | .running => 2
  | .stopped => 3
  | .selftest => 4
  | .faulted => 5

def Frame.stateByte (y : Frame) : Nat := y.st.code + b2n y.endedAll * 2 ^ 3 + b2n y.transition.isSome * 2 ^ 7

/-- Entries of the communication area (R71–R82). -/
def State.readComm (s : State) (i sub : Nat) : Option Nat :=
  let c := s.can
  match i, sub with
  | 0x1001, 0 => some c.errorRegister
  | 0x1003, 0 => some c.history.length
  | 0x1003, n => some (match c.history[n - 1]? with | some p => p.1 + p.2 * 2 ^ 16 | none => 0)
  | 0x1014, 0 => some (0x80 + c.nodeId + b2n c.offBus * 2 ^ 31)
  | 0x1E41, 1 => some c.nodeId
  | 0x1E41, 4 => some (if c.offBus then 3 else if c.busOff then 2 else if c.passive then 1 else 0)
  | 0x1E41, 5 => some c.nmt.code
  | 0x1E41, 7 => some c.txErr
  | 0x1E41, 8 => some c.rxErr
  | 0x1E41, 9 => some ((List.range 4).foldl (fun a n => a + b2n (c.timedOut.contains n) * 2 ^ n) 0)
  | 0x1E42, 2 => some s.sessions.length
  | 0x1E42, 8 => some (b2n s.storing.isSome)
  | 0x1E42, 9 => some s.flash.savedStatus
  | _, _ => none

/-- The tiles of the grid. -/
def State.allTiles (s : State) : List Nat := List.range s.tileCount

/-- A sum over the tiles that have a state of their own. -/
def State.sumTiles (s : State) (f : Tile → Nat) : Nat :=
  s.tiles.foldl (fun a p => if p.1 < s.tileCount then a + f p.2 else a) 0

/-- Grade, columns, frames and tiles (R38, R39, R106, R138, R166, R239). -/
def State.readGrid (s : State) (i sub : Nat) : Option Nat :=
  let f := frameIx (i / 16)
  let g := frameIx (sub - 1)
  if i = 0x2001 then
    (if sub = 1 then some s.grid.part.width else if sub = 2 ∨ sub = 5 then some s.grid.width
     else if sub = 3 then some (b2n s.grid.part.liquid) else if sub = 4 then some s.grid.part.powerLimit
     else if sub = 6 then some s.tileCount else none)
  else if i = 0x2E00 ∧ sub = 3 then some s.grid.part.subsystem
  else if i = 0x3105 ∧ sub = 3 then some s.grid.part.inputPower
  else if i = 0x2010 ∧ 1 ≤ sub then some (s.grid.columns.getD (sub - 1) .factoryBad).code
  else if i = 0x2011 ∧ 1 ≤ sub then some (s.physicalColumn (sub - 1))
  else if i = 0x2012 ∧ sub = 1 then
    some ((List.range 50).foldl (fun a n => a + b2n (s.grid.columns.getD n .factoryBad == .pending) * 2 ^ n) 0)
  else if 0x2100 ≤ i ∧ i < 0x2180 ∧ sub = 2 then some (s.frame f).stateByte
  else if 0x2100 ≤ i ∧ i < 0x2180 ∧ sub = 0x0D then some (s.frame f).supersteps
  else if i = 0x2200 ∧ sub = 7 then
    some (s.sumTiles fun x => (List.range 7).foldl (fun a b => a + x.sparesUsed b) 0)
  else if i = 0x2200 ∧ sub = 8 then
    some (s.sumTiles fun x => (List.range 7).countP fun b => x.sparesUsed b == 4)
  else if i = 0x2304 then some (s.frame g).phase
  else if i = 0x2403 then some (s.frame g).step
  else if i = 0x2601 ∧ sub = 2 then
    some (((s.posts ++ s.posting).map fun p => (postFrame p, postStep p)).eraseDups.length)
  else if i = 0x2706 then
    some (((s.frame g).queue.foldl (fun a p => a + p.words.length) 0) + b2n (s.frame g).queueOpen * 2 ^ 15)
  else if i = 0x2711 then some (s.mailStatus g)
  else none

/-- Backed bytes of a stack (R303). -/
def State.stackCapacity (s : State) (k : Nat) : Nat :=
  stackSize - 0x60000000 * (List.range 64).countP fun i => !(s.pcBacked (64 * k + i))

/-- Stacks, tally and update engines (R305, R338, R339, R360, R361). -/
def State.readMemory (s : State) (i sub : Nat) : Option Nat :=
  if i = 0x2801 then
    (if sub ≤ 4 then some (s.stackCapacity (sub - 1))
     else if sub = 5 then some ((List.range 4).foldl (fun a k => a + s.stackCapacity k) 0)
     else some ((List.range 256).countP fun p => (s.pcOf p).state != 0))
  else if i = 0x2803 ∧ sub = 2 then some (b2n (s.pcs.any fun p => p.2.retiring.isSome))
  else if i = 0x2806 ∧ sub = 1 then
    some (s.sumTiles fun x => (List.range 7).foldl (fun a b => a + x.cnt.ce.getD b 0) 0)
  else if i = 0x2806 ∧ sub = 2 then some (s.sumTiles fun x => x.cnt.ue)
  else if i = 0x2901 ∧ sub = 1 then some (s.contexts.countP fun p => p.2.isSome)
  else if 0x2910 ≤ i ∧ i < 0x2920 ∧ sub = 0x1A then some (s.stepState (jobIx (i - 0x2910)))
  else if 0x2910 ≤ i ∧ i < 0x2920 ∧ sub = 0x1B then some (s.keeperOf (jobIx (i - 0x2910)))
  else if i = 0x2A03 then some (s.engineState (sub - 1))
  else if 0x2A10 ≤ i ∧ i < 0x2A20 ∧ sub = 9 then
    some (((s.returns.filter fun r => r.bucket.job == i - 0x2A10).map fun r => r.bucket.bucket).eraseDups.length)
  else if 0x2A10 ≤ i ∧ i < 0x2A20 ∧ sub = 0x0A then
    let j := i - 0x2A10
    some ((sget ({} : Roll) s.rolls j).sealedSteps.headD 0 % 2 ^ 24 + b2n (s.updatesOutstanding j) * 2 ^ 24)
  else none

/-- OD L+1.01 (R388). -/
def LinkState.code : LinkState → Nat
  | .disabled => 0
  | .training => 1
  | .up => 2
  | .testing => 3
  | .retraining => 4
  | .down => 5
  | .failed => 6

/-- The payload rate in MB/s by active lanes (R365). -/
def payloadRate : Nat → Nat
  | 4 => 43750
  | 3 => 32812
  | 2 => 21875
  | _ => 0

/-- The lane status word of L+2 (R388). -/
def LinkSt.laneWord (l : LinkSt) (p : Fin 4) : Nat :=
  let x := l.lanes[p.val]
  let active := bit l.active.toNat p.val
  let st := if bit l.retired.toNat p.val then 2 else if l.st == .testing then 1 else 0
  let order := (List.range 4).filter fun q => bit l.active.toNat q
  let logical := (if l.reversal then order.reverse else order).idxOf p.val
  st + b2n (bit l.inverted.toNat p.val) * 2 ^ 2 +
    (if active then logical % 4 * 2 ^ 4 else 0) + min x.passed 255 * 2 ^ 8 +
    min x.errors 0xFFFF * 2 ^ 16 + min x.horizontal 255 * 2 ^ 32 + min x.vertical 255 * 2 ^ 40

/-- Links (R388). -/
def State.readLink (s : State) (i sub : Nat) : Option Nat :=
  if i < 0x2B10 ∨ 0x2BD0 ≤ i then none else
  let l := s.link (linkIx ((i - 0x2B10) / 8))
  let up := l.st == .up
  match (i - 0x2B10) % 8, sub with
  | 1, 1 => some l.st.code
  | 1, 2 => some l.active.toNat
  | 1, 3 => some l.retired.toNat
  | 1, 4 => some (b2n l.reversal + l.inverted.toNat * 2 ^ 4)
  | 1, 5 => some l.cause
  | 1, 6 => some (if up then payloadRate (laneCount l.active) else 0)
  | 2, 1 => some (l.laneWord 0)
  | 2, 2 => some (l.laneWord 1)
  | 2, 3 => some (l.laneWord 2)
  | 2, 4 => some (l.laneWord 3)
  | 3, 9 => some (l.tags.countP fun p => p.2.isSome)
  | 4, 1 => some (if up then l.peerDevice else 0xFFFF)
  | 4, 2 => some (if up then l.peerLink else 0xFF)
  | 4, 3 => some l.peerRetired
  | 5, n => if 1 ≤ n then some (sget 0 l.credits (n - 1)) else none
  | _, _ => none

/-- Training turns and tests (R404, R433). -/
def State.readTurns (s : State) (i sub : Nat) : Option Nat :=
  if 0x2C10 ≤ i ∧ i < 0x2C18 ∧ sub = 7 then
    let y := s.frame (frameIx (i - 0x2C10))
    some (y.turn + b2n y.evalPending * 2 ^ 2 + b2n y.evalDue * 2 ^ 3 + b2n y.guestFaulted * 2 ^ 4 +
      b2n y.guestDisabled * 2 ^ 5)
  else if 0x2C10 ≤ i ∧ i < 0x2C18 ∧ sub = 0x0B then
    some (satAdd 64 (s.odGet i 0x0B 0) (s.frame (frameIx (i - 0x2C10))).turnCycles)
  else if i = 0x2D02 ∧ sub = 3 then some s.tests.rows.length
  else if i = 0x2D02 ∧ sub = 4 then some s.tests.pcs.length
  else none

/-- Clocks, power and the thermal governor (R461, R477). -/
def State.readPower (s : State) (i sub : Nat) : Option Nat :=
  match i, sub with
  | 0x2F00, 1 => some (b2n s.clock.clkSel)
  | 0x2F00, 2 => some (if s.clock.onInternal then 0 else 1 + b2n s.clock.clkSel)
  | 0x2F00, 7 => some (if s.clock.pcieRefclk then 0 else if s.clock.onInternal then 2 else 1)
  | 0x2F01, 1 => some (if s.clock.onInternal then s.clock.frozenRef else s.clock.reference)
  | 0x2F01, 5 => some (b2n s.clock.onInternal)
  | 0x2F02, 1 => some s.tileMHz
  | 0x2F02, 2 => some s.power.fCap
  | 0x2F02, 3 => some s.power.fTherm
  | 0x2F02, 4 => some (s.stretch false)
  | 0x2F02, 5 => some (s.stretch true)
  | 0x2F08, 1 => some (s.odGet 0x2F08 0x01 s.grid.part.powerLimit)
  | 0x2F08, 2 => some s.power.watts
  | 0x2F08, 3 => some s.power.input
  | 0x2F08, 7 => some (s.power.energy / 10000)
  | 0x2F0C, 4 => some (unsigned 16 s.power.hottest)
  | 0x2F0C, 5 => some (b2n s.power.throttled)
  | _, _ => none

/-- The flash and the images (R498). -/
def State.readFlash (s : State) (i sub : Nat) : Option Nat :=
  match i, sub with
  | 0x3100, 4 => some s.flash.powerUps
  | 0x3101, 1 => some (b2n s.sup.imageB)
  | 0x3101, 2 => some (b2n s.flash.preferredB)
  | 0x3101, 3 => some s.flash.imageA.version
  | 0x3101, 4 => some s.flash.imageB.version
  | 0x3101, 5 => some s.flash.imageA.state
  | 0x3101, 6 => some s.flash.imageB.state
  | 0x3101, 7 => some s.flash.security
  | 0x3101, 8 => some (b2n s.sup.fellBack)
  | _, _ => none

/-- The value of a scalar entry. -/
def State.readScalar (s : State) (e : Entry) (i sub : Nat) : Nat :=
  let derived := s.readComm i sub <|> s.readGrid i sub <|> s.readMemory i sub <|> s.readLink i sub <|>
    s.readTurns i sub <|>
    s.readPower i sub <|> s.readFlash i sub
  if e = countEntry i then e.default
  else derived.getD (s.odGet i sub e.default) % 2 ^ (8 * e.type.bytes)

/-! ### Strings -/

/-- The characters of a text that are at most 0x7F. -/
def textBytes (t : String) : List Byte := t.toList.map fun c => BitVec.ofNat 8 c.toNat

/-- The strings (R38, R82). The numbers in OD 0x1009 stand without leading zeros (log entry 115). -/
def State.readText (s : State) (i sub : Nat) : List Byte :=
  match i, sub with
  | 0x1008, _ => textBytes "Lormar L48"
  | 0x1009, _ => textBytes "S1B1"
  | 0x100A, _ => Config.softwareVersion (if s.sup.imageB then s.flash.imageB else s.flash.imageA).version
  | 0x2000, 1 => textBytes "Silwick Devices"
  | 0x2000, 2 => textBytes "Lormar L48"
  | 0x2000, _ => textBytes s.grid.part.label
  | _, _ => []

/-! ### Octet strings -/

/-- OD 0x2202.03 (R106). -/
def Tile.spareMap (x : Tile) : List Byte :=
  (List.range 32).map fun n =>
    let v := sget 0 x.spares n
    if n < 28 ∧ v ≠ 0 then BitVec.ofNat 8 (0x80 + (v - 1) % 128) else 0

/-- The octet strings (R106, R306). -/
def State.readOctets (s : State) (i sub : Nat) : List Byte :=
  if i = 0x2202 then
    let t := s.odGet 0x2202 0x01 0
    if sub = 2 then (List.range 64).flatMap fun ix => leBytes 8 (s.statusWord t ix) else (s.tile t).spareMap
  else
    let u := (s.scrub ⟨(i - 0x2820) % 5, Nat.mod_lt _ (by decide)⟩).repeats
    (List.range 16).flatMap fun n => leBytes 8 (u.getD n (2 ^ 64 - 1))

/-! ### Report objects (R66–R69) -/

/-- A report of layout 1. -/
def State.report (s : State) (size : Nat) (records : List (List Byte)) : List Byte :=
  leBytes 2 1 ++ leBytes 2 size ++ leBytes 4 records.length ++ leBytes 8 s.supCycles ++ records.flatten

/-- A report with a record for every tile; those outside every frame that is not EMPTY read as zero (R68). -/
def State.tileReport (s : State) (size : Nat) (f : Nat → List Byte) : List Byte :=
  s.report size (s.allTiles.map fun t => if (s.frameOf t).isSome then f t else zeroBytes size)

/-- Status words of a tile in order. -/
def State.words (s : State) (t : Nat) (ixs : List Nat) : List Byte := ixs.flatMap fun ix =>
  leBytes 8 (s.statusWord t ix)

/-- A tile health record (R106). -/
def State.healthRecord (s : State) (t : Nat) : List Byte :=
  (([16, 17, 18, 19, 20, 21, 22, 23, 26, 27, 6, 12, 14, 15].map fun ix =>
    leBytes 4 (s.statusWord t ix % 2 ^ (if ix = 6 then 21 else 32))).flatten) ++ zeroBytes 8

/-- A pseudo-channel status record (R305). -/
def PseudoChannel.statusRecord (q : PseudoChannel) : List Byte :=
  leBytes 1 (if q.state = 0 ∧ q.absent then 2 else q.state) ++ leBytes 1 q.lanes ++ zeroBytes 6 ++ leBytes 8 q.ce ++
    leBytes 4 q.ue ++ leBytes 4 q.onDie ++ leBytes 4 q.repeats ++ leBytes 4 q.lastError

/-- The states of a context (R338). -/
def CtxState.code : CtxState → Nat
  | .opened => 1
  | .retracting => 2
  | .closing => 3
  | .closed => 4

/-- A context record (R338). -/
def State.contextRecord (s : State) (k : Nat) : List Byte :=
  match sget none s.contexts k with
  | none => zeroBytes 32
  | some x =>
    let lease := usToCycles (s.odGet (0x2910 + x.job) 0x17 200000)
    leBytes 1 (x.st.code + b2n x.maxPhase * 2 ^ 3 + b2n x.discard * 2 ^ 4) ++
      leBytes 1 (x.revision % 16 + x.job * 2 ^ 4) ++
      leBytes 1 x.epoch ++ leBytes 1 0 ++ leBytes 2 x.bucket ++ leBytes 2 (x.step % 2 ^ 16) ++ leBytes 2 x.n ++
      leBytes 2 x.nExp ++ leBytes 2 (unsigned 16 x.m) ++ leBytes 2 (unsigned 16 x.e) ++
      leBytes 4 ((x.leaseFrom + lease - s.supCycles) / 800) ++ leBytes 4 x.accepted ++ leBytes 4 x.refused ++
        zeroBytes 4

/-- A record of the fault log (R431). -/
def logRecord (p : Nat × Nat × Nat × Nat) : List Byte :=
  leBytes 8 p.1 ++ leBytes 2 p.2.1 ++ leBytes 2 p.2.2.1 ++ leBytes 4 p.2.2.2

/-- A record of OD 0x2F10 (R477). -/
def State.sensorRecord (s : State) (n : Nat) : List Byte :=
  if n < 32 then
    let sag := sget 0 s.power.sag n
    leBytes 2 (Config.supplyMillivolts n sag) ++ leBytes 2 sag ++ zeroBytes 4
  else leBytes 2 (unsigned 16 (sget 0 s.power.junction (n - 32))) ++ zeroBytes 6

/-- A record of OD 0x3011 (R476). -/
def MonPoint.result (p : MonPoint) : List Byte :=
  leBytes 8 p.count ++ leBytes 8 (unsigned 64 p.sum) ++ leBytes 8 (unsigned 64 p.min) ++
    leBytes 8 (unsigned 64 p.max) ++
    ((List.range 32).flatMap fun b => leBytes 4 (sget 0 p.bins b)) ++ leBytes 1 (p.state + b2n p.saturated * 2 ^ 2) ++
    zeroBytes 7 ++ leBytes 8 p.stamp

/-- The product of two polynomials over GF(2). -/
def polyMul (a b : Nat) : Nat := (List.range 16).foldl (fun r i => if b.testBit i then r ^^^ (a <<< i) else r) 0

/-- The generator of the strong code, m₁(x)·m₃(x): the minimal polynomials of α and α³ in the field of
x⁸ + x⁴ + x³ + x² + 1 (R288). -/
def bchGenerator : Nat := polyMul 0x11D 0x177

/-- x^n modulo the generator. -/
def bchPower : Nat → Nat
  | 0 => 1
  | n + 1 => let y := 2 * bchPower n; if 2 ^ 16 ≤ y then y ^^^ bchGenerator else y

/-- The codeword bits, data first, that enter check bit `j` of the strong code: those data bits whose power of x leaves
it, and for the overall parity the other 144 bits (R288). -/
def strongMask (j : Nat) : Nat :=
  if j = 16 then 2 ^ 144 - 1
  else (List.range 128).foldl (fun m i => if (bchPower (i + 16)).testBit j then m + 2 ^ i else m) 0

/-- The codes of R288 with their check bits and their codeword bits, in the order of OD 0x2807. -/
def codeList : List (Nat × Nat × Nat) := [(0, 17, 145), (1, 9, 137), (2, 5, 13), (3, 8, 72), (4, 8, 72)]

/-- A record of the code matrices (R305): the code, the check bit, six zero bytes and the mask, which R288 gives for the
strong code and leaves open for the others (log entry 8). -/
def codeRecord (code j width : Nat) : List Byte :=
  [BitVec.ofNat 8 code, BitVec.ofNat 8 j] ++ zeroBytes 6 ++
    leBytes 24 (if code = 0 then strongMask j else Config.codeMask code j % 2 ^ width)

/-- The records of OD 0x2807. -/
def codeRecords : List (List Byte) :=
  codeList.flatMap fun c => (List.range c.2.1).map fun j => codeRecord c.1 j c.2.2

/-- The report objects. -/
def State.readReport (s : State) (i : Nat) : List Byte :=
  let tensors (size : Nat) (f : WatchEntry → List Byte) : List Byte :=
    s.report size ((List.range 4096).map fun t => f (s.watchEntry t))
  match i with
  | 0x2201 => s.tileReport 64 s.healthRecord
  | 0x2306 => s.tileReport 16 fun t => s.words t [44, 45]
  | 0x2404 => s.tileReport 8 fun t => leBytes 4 (s.statusWord t 28) ++ zeroBytes 4
  | 0x2502 => s.report 8 (constantRecords.map (leBytes 8))
  | 0x2503 => s.tileReport 32 fun t => s.words t [40, 41, 42, 43]
  | 0x2611 => tensors 64 WatchEntry.stateRecord
  | 0x2612 => tensors 128 WatchEntry.historyBytes
  | 0x2613 => tensors 128 WatchEntry.binBytes
  | 0x2704 => s.tileReport 64 fun t => s.words t [32, 33, 34, 35, 36, 37, 38, 39]
  | 0x2705 => s.tileReport 16 fun t => (sget [] s.stall t) ++ zeroBytes (16 - (sget [] s.stall t).length)
  | 0x2802 => s.report 32 ((List.range 256).map fun p => (s.pcOf p).statusRecord)
  | 0x2807 => s.report 32 codeRecords
  | 0x2902 => s.report 32 ((List.range 16384).map s.contextRecord)
  | 0x2D01 => s.report 16 (s.log.map logRecord)
  | 0x2F10 => s.report 8 ((List.range 48).map s.sensorRecord)
  | 0x3011 => s.report 176 ((List.range 64).map fun n => (s.point n).result)
  | _ => s.report 8 []

/-- The reports of the watch region are read from its stack: one that cannot be read aborts the access (R69, R194). -/
def State.watchRegionBad (s : State) : Bool × State :=
  let base := s.odGet 0x2601 0x01 0x17FFE00000
  (errsIn s.errs base 0x200000).foldl (fun (x : Bool × State) p =>
    let r := x.2.readBlock p.1
    (x.1 || r.1.bad, r.2)) (false, s)

/-! ### A read (R45, R54) -/

/-- The value of an entry; the abort code where a record cannot be read. -/
def State.entryValue (s : State) (e : Entry) (i sub : Nat) : Nat × List Byte × State :=
  if e.type.scalar then (0, leBytes e.type.bytes (s.readScalar e i sub), s)
  else if e.type = .str then (0, s.readText i sub, s)
  else if e.type = .octet then (0, s.readOctets i sub, s)
  else if e.access != .ro then (0, s.tableBytes i 0 e.length, s)
  else if 0x2611 ≤ i ∧ i ≤ 0x2613 then
    let r := s.watchRegionBad
    if r.1 then (0x06060000, [], r.2) else (0, r.2.readReport i, r.2)
  else (0, s.readReport i, s)

/-- A read through the checks of R45: abort code, value. -/
def State.readEntry (s : State) (via : Path) (i sub : Nat) : Nat × List Byte × State :=
  match s.checkEntry via false i sub with
  | .error c => (c, [], if s.protected via false i sub then s.count32 0x1E40 0x0D else s)
  | .ok e => s.entryValue e i sub

end Sys2Proof.Machine
end

