-- ==== Sys2Proof/Machine/Transfers.lean ====
section
/-! DEFINITION. Transfers: flits in and out, credits, and the transactions that a device serves or relays
(R366–R380). -/

namespace Sys2Proof.Machine

/-! ### Receiving (R366–R369, R371) -/

/-- The link takes flits. -/
def LinkSt.receives (l : LinkSt) : Bool := l.st == .up || l.st == .testing

/-- A NAK is due: it is set once until a DATA flit has been taken (R369). -/
def LinkSt.nak (l : LinkSt) : LinkSt := { l with nakDue := l.nakDue || !l.nakSent }

/-- A DATA flit is taken: its slots enter the receive buffers (R366, R369, R371). -/
def LinkSt.take (l : LinkSt) (f : List Byte) : LinkSt :=
  { l with
    rx := (List.range 5).foldl (fun m vc => smod [] m vc (· ++ flitSlots f vc)) l.rx
    rxSeq := (l.rxSeq + 1) % 4096, rxValid := true, nakSent := false }

/-- FLIT_RECEIVE (R363, R367, R369); a failed CRC-32C counts toward the burst of R383. -/
def execFlitReceive (k : Fin 24) (flit : List Byte) (s : State) : Result :=
  let l := s.link k
  if !l.receives || flit.length != 128 then .next s
  else if sliceNat flit 120 4 ≠ crc32c (flit.take 120) then
    .next (((s.count32 (linkIndex k + 3) 0x03).modLink k LinkSt.nak).noteBurst k 1 [])
  else if flitType flit ≠ 1 then .next s
  else if flitSeq flit = l.rxSeq then
    .next ((s.modLink k fun l => l.take flit).count64 (linkIndex k + 3) 0x02)
  else if (l.rxSeq + 4096 - flitSeq flit) % 4096 ≤ 2048 then .next s
  else .next (s.modLink k LinkSt.nak)

/-- The credit total of a sideband (R368, R371). -/
def LinkSt.credit (l : LinkSt) (vc total : Nat) : LinkSt :=
  if 5 ≤ vc then l else
  { l with
    credits := smod 0 l.credits vc (· + (total + 128 - sget 0 l.seen vc) % 128)
    seen := sput 0 l.seen vc total }

/-- SIDEBAND_RECEIVE: acknowledgement, credits, and the replay a NAK starts (R368, R370). -/
def execSidebandReceive (k : Fin 24) (w : W32) (s : State) : Result :=
  let n := w.toNat
  if !(s.link k).carries || sidebandCrc (bits n 0 24) != bits n 24 8 then .next s else
  let s := s.modLink k fun l =>
    let l := if bit n 12 then l.acked (bits n 0 12) else l
    l.credit (bits n 14 3) (bits n 17 7)
  .next (if bit n 13 && (s.link k).st == .up then s.startReplay k else s)

/-! ### Sending (R366, R367, R370–R372) -/

/-- A virtual channel has a slot ready and a credit. -/
def LinkSt.sendable (l : LinkSt) (vc : Nat) : Bool := !(sget [] l.tx vc).isEmpty && sget 0 l.credits vc != 0

/-- The slot weight of VC1, VC2 or VC3 (OD 0x2B02.09). -/
def slotWeight (weights vc : Nat) : Nat := bits weights (8 * (vc - 1)) 8

/-- The weighted round-robin over VC1 to VC3: the channel chosen and the state after it (R372). -/
def LinkSt.turn (l : LinkSt) (weights : Nat) : Option (Nat × (Fin 3 × Nat)) :=
  if l.wrr.2 != 0 && l.sendable (l.wrr.1.val + 1) then some (l.wrr.1.val + 1, (l.wrr.1, l.wrr.2 - 1))
  else
    (((List.finRange 3).map fun d => l.wrr.1 + d + 1).find? fun c => l.sendable (c.val + 1)).map fun c =>
      (c.val + 1, (c, slotWeight weights (c.val + 1) - 1))

/-- The egress arbiter at one slot: VC4, else VC0, else the round-robin (R372). -/
def LinkSt.arbitrate (l : LinkSt) (weights : Nat) : Option (Nat × (Fin 3 × Nat)) :=
  if l.sendable 4 then some (4, l.wrr)
  else if l.sendable 0 then some (0, l.wrr)
  else l.turn weights

/-- One slot leaves the queue of the channel chosen, with its credit. -/
def LinkSt.popSlot (l : LinkSt) (weights : Nat) : Option (Nat × Bool × List Byte) × LinkSt :=
  match l.arbitrate weights with
  | none => (none, l)
  | some (vc, w) =>
    match sget [] l.tx vc with
    | [] => (none, l)
    | x :: xs => (some (vc, x), { l with tx := sput [] l.tx vc xs, credits := smod 0 l.credits vc (· - 1), wrr := w })

/-- Up to seven slots for one flit. -/
def LinkSt.fill (l : LinkSt) (weights : Nat) : (n : Nat) → List (Nat × Bool × List Byte) × LinkSt
  | 0 => ([], l)
  | n + 1 => match l.popSlot weights with
    | (none, l) => ([], l)
    | (some x, l) =>
      let r := l.fill weights n
      (x :: r.1, r.2)

/-- The header of a DATA flit (R367). -/
def dataHeader (seq : Nat) (slots : List (Nat × Bool × List Byte)) : Nat :=
  (List.range 7).foldl (fun h i => match slots[i]? with
    | some (vc, sop, _) => h + vc * 2 ^ (16 + 3 * i) + b2n sop * 2 ^ (37 + i)
    | none => h + 7 * 2 ^ (16 + 3 * i)) (1 + seq * 2 ^ 4)

/-- A new DATA flit, kept for replay (R370). -/
def State.sendData (s : State) (k : Fin 24) (slots : List (Nat × Bool × List Byte)) : State :=
  let seq := (s.link k).txSeq
  let body := flitBody (dataHeader seq slots) (slots.flatMap (·.2.2))
  let s := s.modLink k fun l => { l with txSeq := (l.txSeq + 1) % 4096, retry := l.retry ++ [(seq, body)] }
  (s.count64 (linkIndex k + 3) 0x01).sendFlit k body

/-- A NULL flit (R367). -/
def State.sendNull (s : State) (k : Fin 24) : State := s.sendFlit k (flitBody noSlots [])

/-- FLIT_TRANSMIT: the next flit of a replay, a new DATA flit, or a NULL flit (R367, R370–R372, R383). -/
def execFlitTransmit (k : Fin 24) (s : State) : Result :=
  let l := s.link k
  if l.st = .testing ∧ l.prbs = false then .next (s.sendNull k)
  else if l.st ≠ .up then .next s
  else match l.replay with
    | (_, body) :: rest =>
      .next (((s.modLink k fun l => { l with replay := rest }).count64 (linkIndex k + 3) 0x01).sendFlit k body)
    | [] =>
      if 64 ≤ l.retry.length then .next (s.sendNull k) else
      match l.fill (s.odGet 0x2B02 0x09 0x00010304) 7 with
      | ([], _) => .next (s.sendNull k)
      | (slots, l) => .next ((s.setLink k l).sendData k slots)

/-! ### Serving WRITE and READ (R374, R378) -/

/-- The transaction is of this kind and for this device. -/
def State.mine (s : State) (x : Txn) (kind : Nat) : Bool := txnKind x.header == kind && txnDst x.header == s.device

/-- The frame a request names may be reached (R378). -/
def State.frameServes (s : State) (f : Fin 8) : Bool := [FrameState.loaded, .running, .stopped].contains (s.frame f).st

/-- The payload of a transaction as its LEN gives it. -/
def txnData (x : Txn) : List Byte :=
  let n := 16 * txnLen x.header
  slice x.payload 0 n ++ zeroBytes (n - x.payload.length)

/-- A range in one 4 KiB-aligned block, at a multiple of 64 (R374). -/
def blockRange (a n : Nat) : Bool := a % 64 == 0 && n % 64 == 0 && n != 0 && decide (a % 4096 + n ≤ 4096)

/-- A WRITE is checked and made (R374, R378): its status. -/
def State.serveWriteTxn (s : State) (x : Txn) : Nat × State :=
  let h := x.header
  let data := txnData x
  if txnFlag h 0 then
    (if blockRange (txnA h) data.length then s.writeHosted (txnSrc h) (txnA h) data (txnPoison h) else (5, s))
  else if !(s.frameServes (frameIx (txnDfr h))) then (4, s)
  else if !(blockRange (txnA h) data.length) then (5, s)
  else s.writeChecked (some (frameIx (txnDfr h))) (txnA h) data (txnPoison h)

/-- WRITE (R378). -/
def execWrite (k : Fin 24) (x : Txn) (s : State) : Result :=
  if !(s.mine x 1) then .next s else
  let r := (s.takeTxn k x).serveWriteTxn x
  .next (r.2.ackTxn x.header r.1)

/-- A READ is checked and made: status, data (R374, R378). -/
def State.serveReadTxn (s : State) (h : BitVec 128) : Nat × List Byte × State :=
  let n := 64 * (txnB h % 64 + 1)
  if txnA h % 64 ≠ 0 then (5, [], s)
  else if txnFlag h 0 then s.readHosted (txnSrc h) (txnA h) n
  else if !(s.frameServes (frameIx (txnDfr h))) then (4, [], s)
  else s.readChecked (some (frameIx (txnDfr h))) (txnA h) n

/-- READ (R378): an uncorrectable block is delivered poisoned with status 0x6; a refusal carries no data. -/
def execRead (k : Fin 24) (x : Txn) (s : State) : Result :=
  if !(s.mine x 3) then .next s else
  let r := (s.takeTxn k x).serveReadTxn x.header
  .next (r.2.2.respond x.header 4 r.1 (r.1 == 6) 0 0 r.2.1)

/-! ### Responses (R374, R375, R377) -/

/-- The link whose tag a response names: that it came by, that of the route to its sender, or the first that has the tag
taken (log entry 31). -/
def State.tagLink (s : State) (k : Fin 24) (h : BitVec 128) : Option (Fin 24) :=
  let route := s.routeTo (txnSrc h)
  ([k] ++ (if route < 24 then [linkIx route] else []) ++ List.finRange 24).find? fun q =>
    (sget none (s.link q).tags (txnTag h)).isSome

/-- A response reaches its requester and frees its tag. -/
def State.serveResponse (s : State) (k : Fin 24) (x : Txn) : State :=
  let h := x.header
  let s := s.takeTxn k x
  match s.tagLink k h with
  | none => s
  | some q =>
    match sget none (s.link q).tags (txnTag h) with
    | none => s
    | some who => (s.freeTag q (txnTag h)).completeRequest who
        (if txnStatus h = 0 ∧ txnPoison h = true then 6 else txnStatus h) (txnB h % 16) (bits (txnA h) 0 12) (txnData x)

/-- RDATA (R374, R377). -/
def execRdata (k : Fin 24) (x : Txn) (s : State) : Result := .next (if s.mine x 4 then s.serveResponse k x else s)
/-- ACK (R375, R377). -/
def execAck (k : Fin 24) (x : Txn) (s : State) : Result := .next (if s.mine x 5 then s.serveResponse k x else s)
/-- MRESP (R374, R377). -/
def execMresp (k : Fin 24) (x : Txn) (s : State) : Result := .next (if s.mine x 0xA then s.serveResponse k x else s)

/-- MSG: a message reaches the supervisor (R374). A service that has a row of its own acts by that row's command; the
three of the roll call that have none act here: a loss or lease report, and the standby's acknowledgement (R322, R329,
R333). -/
def execMsg (k : Fin 24) (x : Txn) (s : State) : Result :=
  if !(s.mine x 8) then .next s else
  let s := s.takeTxn k x
  let d := txnData x
  let j := jobIx (sliceNat d 0 1)
  let service := txnB x.header % 256
  let devs := (List.range (min 45 (sliceNat d 4 2))).map fun i => sliceNat d (6 + 2 * i) 2
  if service = svcLoss then .next (s.lossReport j (sliceNat d 1 3) devs)
  else if service = svcLease then .next (s.leaseReport j (sliceNat d 1 3) devs)
  else if service = svcAck ∧ txnSrc x.header = s.standbyOf j then .next (s.decisionAcked j)
  else .next s

/-- RESERVED_KIND: dropped from the channel it came on, and counted (R374). -/
def execReservedKind (k : Fin 24) (x : Txn) (s : State) : Result :=
  if [1, 2, 3, 4, 5, 6, 7, 8, 9, 0xA].contains (txnKind x.header) then .next s
  else .next ((s.takeTxnOn k ((s.headChannel k x).getD 0) x).count32 0x2B03 0x06)

/-! ### Relays (R380) -/

/-- `x` with its HOPS. -/
def withHops (x : Txn) (n : Nat) : Txn := { x with header := BitVec.ofNat 128 (putBits x.header.toNat 56 8 n) }

/-- Two links lie on the same side of the die. -/
def sameSide (a b : Fin 24) : Bool := decide (a.val < 12) == decide (b.val < 12)

/-- A transaction for another device, once it is out of the receive buffer (R380). -/
def State.relay (s : State) (k : Fin 24) (x : Txn) : State :=
  let h := x.header
  let hops := txnHops h - 1
  if hops = 0 then
    let s := s.count32 0x2B03 0x04
    if kindAnswered (txnKind h) then s.refuseTxn h 3 else s
  else
    let x := withHops x hops
    match s.egress (txnDst h) with
    | none => s.unroutable h
    | some q =>
      if sameSide k q then (s.sendTxn q x).count64 0x2B03 0x01
      else if kindVc (txnKind h) = 0 then s.crossDie k x
      else s.unroutable h

/-- TRANSACTION_RELAY (R380). A relay checks nothing but the route and HOPS. -/
def execTransactionRelay (k : Fin 24) (x : Txn) (s : State) : Result :=
  if txnDst x.header = s.device then .next s else .next ((s.takeTxn k x).relay k x)

end Sys2Proof.Machine
end

