-- ==== Sys2Proof/Machine/Service.lean ====
section
/-! DEFINITION. Service: the request queue of supervisor core 0, what serving an access does on each path, and the
segmented transfers (R45, R51–R60, R69, R73, R374, R445). -/

namespace Sys2Proof.Machine

/-! ### Writes (R45, R54) -/

/-- The frame commands (R34). -/
def frameRow (via : Path) (f : Fin 8) : Nat → Option (State → Result)
  | 1 => some (execLoad via f)
  | 2 => some (execStart via f)
  | 3 => some (execStop via f)
  | 4 => some (execReset via f)
  | 5 => some (execSelftest via f)
  | 6 => some (execUnload via f)
  | _ => none

/-- The link commands (R388). -/
def linkRow (via : Path) (k : Fin 24) : Nat → Option (State → Result)
  | 1 => some (execLinkTrain via k)
  | 2 => some (execLinkDisable via k)
  | 3 => some (execLinkRetrain via k)
  | 4 => some (execLaneTest via k)
  | _ => none

/-- The snapshot commands (R434). -/
def snapshotRow (via : Path) (j : Fin 16) : Nat → Option (State → Result)
  | 1 => some (execSnapshotTake via j)
  | 2 => some (execSnapshotAbort via j)
  | 3 => some (execClearPartnerLost via j)
  | _ => none

/-- The restore commands (R436). -/
def restoreRow (via : Path) (j : Fin 16) : Nat → Option (State → Result)
  | 1 => some (execRestore via j)
  | 2 => some (execRestoreAbort via j)
  | 3 => some (execTallyReset via j)
  | 4 => some (execWeightResend via j)
  | _ => none

/-- The monitor commands (R476). -/
def monitorRow (via : Path) : Nat → Option (State → Result)
  | 1 => some (execMonitorArm via)
  | 2 => some (execMonitorFreeze via)
  | 3 => some (execMonitorClear via)
  | 4 => some (execMonitorClearAndArm via)
  | _ => none

/-- The update commands (R498). -/
def firmwareRow (via : Path) : Nat → Option (State → Result)
  | 1 => some (execFirmwareProgram via)
  | 3 => some (execFirmwareRestart via)
  | 4 => some (execRaiseSecurityVersion via)
  | _ => none

/-- Whole-device commands. -/
def deviceRow (via : Path) (i sub v : Nat) : Option (State → Result) :=
  match i, sub with
  | 0x1003, 0 => some (execErrorHistoryClear via)
  | 0x1010, n => some (execStoreParameters via ⟨(n - 1) % 3, Nat.mod_lt _ (by decide)⟩)
  | 0x1011, n => some (execRestoreDefaults via ⟨(n - 1) % 3, Nat.mod_lt _ (by decide)⟩)
  | 0x2012, 2 => some (execApplyRetirements via)
  | 0x2012, 3 => some (execMarkColumnPending via (BitVec.ofNat 8 v))
  | 0x2803, 1 => some (execRetirePseudoChannel via (BitVec.ofNat 16 v))
  | 0x2D02, 5 => some (execRunPseudoChannelTests via)
  | 0x2F01, 4 => some (execReturnToSource via)
  | 0x3000, 4 => monitorRow via v
  | 0x3102, 1 => firmwareRow via v
  | _, _ => none

/-- The row of the table whose meaning a write of this entry has; none for an entry without a row of its own. -/
def ownRow (via : Path) (i sub v : Nat) : Option (State → Result) :=
  let j : Fin 16 := jobIx i
  if 0x2100 ≤ i ∧ i < 0x2180 ∧ i % 16 = 0 ∧ sub = 1 then frameRow via (frameIx ((i - 0x2100) / 16)) v
  else if 0x2820 ≤ i ∧ i < 0x2825 ∧ sub = 1 then
    let u : Fin 5 := ⟨(i - 0x2820) % 5, Nat.mod_lt _ (by decide)⟩
    if v = 1 then some (execScrubStart via u) else some (execScrubAbort via u)
  else if 0x2A10 ≤ i ∧ i < 0x2A20 ∧ sub = 8 then some (execRegenerateBucket via j (BitVec.ofNat 16 v))
  else if 0x2B10 ≤ i ∧ i < 0x2BD0 ∧ i % 8 = 0 ∧ sub = 1 then linkRow via (linkIx ((i - 0x2B10) / 8)) v
  else if 0x2B10 ≤ i ∧ i < 0x2BD0 ∧ i % 8 = 0 ∧ sub = 2 then some (execClearRetirements via (linkIx ((i - 0x2B10) / 8)))
  else if 0x2C20 ≤ i ∧ i < 0x2C30 ∧ sub = 5 then
    if v = 1 then some (execMoveStart via j) else some (execMoveAbort via j)
  else if 0x2D20 ≤ i ∧ i < 0x2D30 ∧ sub = 8 then snapshotRow via j v
  else if 0x2D40 ≤ i ∧ i < 0x2D50 ∧ sub = 6 then restoreRow via j v
  else deviceRow via i sub v

/-- What a write of a plain entry lets go on: the CLOSED notice once a job's updates are no longer held (R402), and the
former standby once its job names a standby anew (R333). -/
def State.noteWrite (s : State) (i sub : Nat) : State :=
  let j : Fin 16 := jobIx i
  if 0x2C20 ≤ i ∧ i < 0x2C30 ∧ sub = 1 then s.checkClosed j
  else if 0x2910 ≤ i ∧ i < 0x2920 ∧ sub = 0x13 then
    { s with rolls := smod {} s.rolls j.val fun r => { r with formerStandby := false } }
  else s

/-- A write through every check of R45, and its effect. -/
def State.writeEntry (s : State) (via : Path) (i sub : Nat) (data : List Byte) : State :=
  let plain := s.serveWrite via i sub data fun s => (0, match findEntry i sub with
    | .ok e => (s.applyWrite e i sub data).noteWrite i sub
    | .error _ => s)
  if s.writeCode via i sub data ≠ 0 ∨ !s.sup.ready then plain
  else match ownRow via i sub (leNat data) with
    | some f => afterwards s (f s)
    | none => plain

/-- DICTIONARY_WRITE (R45, R54). -/
def execDictionaryWrite (via : Path) (index : W16) (sub : Byte) (data : List Byte) (s : State) : Result :=
  .next (s.writeEntry via index.toNat sub.toNat data)

/-- The abort code a write was answered with, 0 for none: no answer yet while a store or restore is in progress
(R50). -/
def writeAnswer (before after : State) : Option Nat :=
  (after.out.take (after.out.length - before.out.length)).findSome? fun o =>
    match o with
    | .value _ _ code _ => some code
    | _ => none

/-- A write from the request queue, answered now or when its store has ended. -/
def State.writeQueued (s : State) (a : Access) (data : List Byte) : State :=
  let t := s.writeEntry a.path a.index.toNat a.sub.toNat data
  match writeAnswer s t with
  | some code => t.answerWrite a.path a.client (odKey a.index.toNat a.sub.toNat) code
  | none => { t with
      storing := t.storing.map fun x => { x with client := some a.client }
      dw := if a.path = .pcie ∧ windowLive a.client then { t.dw with stat := 2 } else t.dw }

/-! ### Sessions (R57–R59) -/

/-- The path of a session. -/
def sessionPath : SessionId → Path
  | .can _ => .can
  | .uzon src _ _ => .uzon src

/-- The number of bytes that one message of a session carries (R58). -/
def messageBytes : SessionId → Nat
  | .can _ => 56
  | .uzon _ _ _ => 64

/-- Two sessions share a limit: 4 on CAN, 8 on Uzon (R58). -/
def sameKind (a b : SessionId) : Bool :=
  match a, b with
  | .can _, .can _ => true
  | .uzon _ _ _, .uzon _ _ _ => true
  | _, _ => false

def State.session (s : State) (who : SessionId) : Option Session := s.sessions.find? fun x => x.who == who
def State.dropSession (s : State) (who : SessionId) : State :=
  { s with sessions := s.sessions.filter fun x => x.who != who }

/-- A place is free for a new session of this kind (R58). -/
def State.sessionFree (s : State) (who : SessionId) : Bool :=
  decide (s.sessions.countP (fun x => sameKind x.who who) < match who with | .can _ => 4 | .uzon _ _ _ => 8)

/-- An abort of the transfer protocol (step 1 of R45): the access has not been served. -/
def State.protocolAbort (s : State) (via : Path) (i sub code : Nat) : State :=
  (s.countAbort via i sub code).emit (.value via (odKey i sub) code [])

/-- The session ends with an abort; on CAN the client is told by a frame. -/
def State.abortSession (s : State) (x : Session) (code : Nat) : State :=
  let s := (s.dropSession x.who).protocolAbort (sessionPath x.who) x.index.toNat x.sub.toNat code
  match x.who with
  | .can client => s.sendUsdo client (odKey x.index.toNat x.sub.toNat) code []
  | .uzon _ _ _ => s

/-- Two sessions are of one client: on Uzon, of one source device (R59, R374). -/
def sameClient (a b : SessionId) : Bool :=
  match a, b with
  | .can x, .can y => x == y
  | .uzon x _ _, .uzon y _ _ => x == y
  | _, _ => false

/-- A new initiation aborts the session its client still holds (R59, R374). -/
def State.endOlder (s : State) (who : SessionId) : State :=
  match s.sessions.find? fun x => sameClient x.who who with
  | some x => s.abortSession x 0x05040000
  | none => s

/-- SESSION_TIMEOUT (R59). -/
def execSessionTimeout (who : SessionId) (s : State) : Result :=
  .next (match s.session who with
    | some x => s.abortSession x 0x05040000
    | none => s)

/-- The answer to a part of a segmented transfer, and to a refused request: on CAN a USDO response, on Uzon an MRESP to
the MREQ, where one is at hand. -/
def State.answerPart (s : State) (via : Path) (client i sub code : Nat) (data : List Byte) : State :=
  let s := if code = 0 then s.emit (.value via (odKey i sub) 0 data) else s.protocolAbort via i sub code
  match via with
  | .pcie => s
  | .can => s.sendUsdo client (odKey i sub) code data
  | .uzon src => s.sendMresp src client code data

/-! ### The request queue (R51, R52) -/

/-- Who would hold the session that an access opens. -/
def accessSession (a : Access) : Option SessionId :=
  match a.path with
  | .pcie => none
  | .can => some (.can a.client)
  | .uzon src => some (.uzon src a.index a.sub)

/-- An access that does not come through the window is refused (R52). -/
def State.refuseFull (s : State) (a : Access) : State :=
  s.answerPart a.path a.client a.index.toNat a.sub.toNat 0x05040005 []

/-- An access reaches the request queue, or is refused (R51, R52, R445). -/
def State.enqueueAccess (s : State) (a : Access) : State :=
  if a.path = .pcie then s.enqueueWindow a
  else if s.queueFull then s.refuseFull a
  else s.takePlace a

/-- A request that starts a transfer arrives; once it is accepted, its client's older session ends (R52, R59). -/
def State.enqueueNew (s : State) (a : Access) : State :=
  if s.queueFull then s.refuseFull a
  else match accessSession a with
    | some who => (s.endOlder who).enqueueAccess a
    | none => s.enqueueAccess a

/-- REQUEST_QUEUE_ARRIVAL (R51, R52). -/
def execRequestQueueArrival (a : Access) (s : State) : Result := .next (s.enqueueAccess a)

/-- A segmented write opens with its first bytes, once its initiation is served (R57, R58). The checks of R45, the peer
filter of R80 among them, are made on the whole access, when its final part has brought the value (log entry 117). -/
def State.openWrite (s : State) (a : Access) (who : SessionId) : State :=
  let t := s.endOlder who
  let x : Session := ⟨who, true, a.index, a.sub, a.data, a.data.length⟩
  if !(t.sessionFree who) then t.refuseFull a
  else ({ t with sessions := t.sessions ++ [x] }).answerPart a.path a.client a.index.toNat a.sub.toNat 0 []

/-! ### Segments (R57, R69) -/

/-- Bytes that a capture of a long report covers at once (R69). -/
def captureWindow : Nat := 0x40000

/-- The first record of a report that starts at or after byte `a`. -/
def recordFrom (report : List Byte) (a : Nat) : Nat :=
  let n := max 1 (sliceNat report 2 2)
  16 + n * ceilDiv (a - 16) n

/-- The capture from which bytes `[off, off + n)` of a long report are sent: from every window on, the records are
captured as the transfer reaches it (R69). -/
def State.recapture (s : State) (x : Session) (n : Nat) : Nat × List Byte × State :=
  let last := min (x.offset + n) x.buffer.length - 1
  if x.buffer.length ≤ captureWindow ∨ last / captureWindow = (x.offset - 1) / captureWindow then (0, x.buffer, s)
  else match findEntry x.index.toNat x.sub.toNat with
    | .error _ => (0, x.buffer, s)
    | .ok e =>
      let r := s.entryValue e x.index.toNat x.sub.toNat
      let b := recordFrom x.buffer (last / captureWindow * captureWindow)
      (r.1, x.buffer.take b ++ slice r.2.1 b (x.buffer.length - b), r.2.2)

/-- A frame of a CAN client is taken: the node is on the bus and serves USDO (R72, R74). -/
def State.hears (s : State) (via : Path) : Bool :=
  match via with
  | .can => s.can.onBus && s.can.servesUsdo
  | _ => true

/-- A segment of an open session; `client` is what an access of this client carries. -/
def State.segment (s : State) (g : Segment) (client : Nat) : State :=
  let via := sessionPath g.who
  let i := g.index.toNat
  let sub := g.sub.toNat
  match s.session g.who with
  | none => s.answerPart via client i sub 0x05040001 []
  | some x =>
    let ended := s.dropSession g.who
    let keep (y : Session) (t : State) : State :=
      { t with sessions := t.sessions.map fun z => if z.who = g.who then y else z }
    if x.write ≠ g.write ∨ x.index ≠ g.index ∨ x.sub ≠ g.sub then s.answerPart via client i sub 0x05040001 []
    else if !g.toggleOk then ended.answerPart via client i sub 0x05030000 []
    else if g.offset ≠ x.offset then ended.answerPart via client i sub 0x05040001 []
    else if g.write then
      let data := x.buffer ++ g.data
      if !g.final then
        (keep { x with buffer := data, offset := data.length } s).answerPart via client i sub 0 []
      else
        let a : Access := { path := via, write := true, index := g.index, sub := g.sub, data := data, client := client }
        if s.queueFull then s.refuseFull a else ended.enqueueAccess a
    else
      let n := messageBytes g.who
      let r := s.recapture x n
      if r.1 ≠ 0 then (r.2.2.dropSession g.who).answerPart via client i sub r.1 []
      else
        let t := if r.2.1.length ≤ x.offset + n then r.2.2.dropSession g.who
          else keep { x with buffer := r.2.1, offset := x.offset + n } r.2.2
        t.answerPart via client i sub 0 (slice r.2.1 x.offset n)

/-- The client that an access of a session carries where no request is at hand. -/
def sessionClient : SessionId → Nat
  | .can client => client
  | .uzon _ _ _ => 0

/-- SEGMENTED_TRANSFER_SEGMENT (R57, R59): ignored on CAN unless the node serves USDO (R74). -/
def execSegmentedTransferSegment (seg : Segment) (s : State) : Result :=
  .next (if s.hears (sessionPath seg.who) then s.segment seg (sessionClient seg.who) else s)

/-! ### Requests of CAN and Uzon (R73, R74, R374) -/

/-- USDO_REQUEST_RECEIVE: ignored unless the frame has the node's CAN-ID and the node serves USDO (R73, R74). -/
def execUsdoRequestReceive (req : UsdoRequest) (s : State) : Result :=
  if !(s.hears .can) ∨ req.id ≠ 0x600 + s.can.nodeId then .next s else
  let a (write : Bool) : Access :=
    { path := .can, write := write, index := req.index, sub := req.sub, data := if write then req.data else []
      client := req.client }
  .next (match req.command with
    | .read => s.enqueueNew (a false)
    | .initRead => s.enqueueNew (a false)
    | .write => s.enqueueNew (a true)
    | .initWrite => s.enqueueNew { a true with opens := true }
    | .unsupported => s.answerPart .can req.client req.index.toNat req.sub.toNat 0x05040001 []
    | .routed => s.answerPart .can req.client req.index.toNat req.sub.toNat 0x06010000 [])

/-- MREQ: at byte offset 0 a request starts a transfer; at any other it is a segment of one. -/
def execMreq (k : Fin 24) (x : Txn) (s : State) : Result :=
  if !(s.mine x 9) then .next s else
  let s := s.takeTxn k x
  let src := txnSrc x.header
  let index := BitVec.ofNat 16 (txnA x.header)
  let sub := BitVec.ofNat 8 (txnA x.header / 2 ^ 16)
  let offset := bits (txnA x.header) 24 22
  let write := txnFlag x.header 0
  let final := txnFlag x.header 1
  let data := if write then txnData x else []
  let a : Access := { path := .uzon src, write := write, index := index, sub := sub, data := data,
                      client := x.header.toNat }
  .next (if offset = 0 then s.enqueueNew { a with opens := write && !final }
    else s.segment ⟨.uzon src index sub, write, index, sub, offset, data, final, true⟩ x.header.toNat)

/-! ### Serving the head of the queue (R51, R53, R57) -/

/-- The value of a write whose payload is counted in slots of 16 bytes: the entry's length where the slots are those it
takes; a string ends before its trailing zero bytes. -/
def slotValue (i sub : Nat) (data : List Byte) : List Byte :=
  match findEntry i sub with
  | .error _ => data
  | .ok e =>
    if e.type = .str then (data.reverse.dropWhile (· == 0)).reverse
    else
      let n := if e.type.scalar then e.type.bytes else e.length
      if 16 * ceilDiv n 16 = data.length then data.take n else data

/-- A read on CAN or Uzon: the whole value in one message, or its first bytes and a session that holds its capture. -/
def State.readQueued (s : State) (a : Access) (who : SessionId) : State :=
  let i := a.index.toNat
  let sub := a.sub.toNat
  let n := messageBytes who
  let answer (t : State) (code : Nat) (data : List Byte) : State :=
    let t := t.served a.path i sub code data
    match a.path with
    | .pcie => t
    | .can => t.sendUsdo a.client (odKey i sub) code data
    | .uzon src => t.sendMresp src a.client code data
  let r := s.readEntry a.path i sub
  if r.1 ≠ 0 ∨ r.2.1.length ≤ n then answer r.2.2 r.1 r.2.1
  else
    let t := r.2.2.endOlder who
    if !(t.sessionFree who) then t.answerPart a.path a.client i sub 0x05040005 []
    else
      let x : Session := ⟨who, false, a.index, a.sub, r.2.1, n⟩
      answer { t with sessions := t.sessions ++ [x] } 0 (r.2.1.take n)

/-- The value of a window's write and the abort code of the window's own limits, checked with the length (R60, R445). A
word of the buffer that cannot be read aborts at step 9 of R45, after the checks of the bytes it delivers. -/
def State.windowInput (s : State) (a : Access) : Nat × List Byte × State :=
  let c := a.client
  match s.checkEntry .pcie true a.index.toNat a.sub.toNat with
  | .error _ => (0, a.data, s)
  | .ok e =>
    if !(windowBuffered c) then (if 224 < windowLen c then 0x06070010 else 0, a.data, s)
    else if !(windowBufferOk c) then (0x06070010, [], s)
    else if lengthCode e (windowLen c) ≠ 0 then (lengthCode e (windowLen c), [], s)
    else
      let r := s.readStaging (stagingBase + windowBuf c) (windowLen c)
      let code := if r.1.bad then r.2.writeCode .pcie a.index.toNat a.sub.toNat r.1.data else 0
      (if r.1.bad ∧ code = 0 then 0x06060000 else code, r.1.data, r.2)

/-- A window access is served and completes (R445). -/
def State.serveWindow (s : State) (a : Access) : State :=
  let i := a.index.toNat
  let sub := a.sub.toNat
  let c := a.client
  let stop (t : State) (code : Nat) : State := (t.served .pcie i sub code []).windowDone c code
  if a.write then
    let r := s.windowInput a
    if r.1 ≠ 0 then stop r.2.2 r.1 else r.2.2.writeQueued a r.2.1
  else
    let r := s.readEntry .pcie i sub
    let code := if r.1 ≠ 0 then r.1 else windowReadCode c r.2.1.length
    if code ≠ 0 then stop r.2.2 code
    else
      let w := r.2.2.windowValue c r.2.1
      if w.1 ≠ 0 then stop w.2 w.1 else (w.2.served .pcie i sub 0 r.2.1).windowDone c 0

/-- An access of CAN or Uzon is served; one of CAN is dropped where the node no longer serves USDO (R74). -/
def State.serveAccess (s : State) (a : Access) : State :=
  match a.path with
  | .pcie => s.serveWindow a
  | .can =>
    if !s.can.servesUsdo then s
    else if a.opens then s.openWrite a (.can a.client)
    else if a.write then s.writeQueued a a.data else s.readQueued a (.can a.client)
  | .uzon src =>
    if a.opens then s.openWrite a (.uzon src a.index a.sub)
    else if a.write then s.writeQueued a (slotValue a.index.toNat a.sub.toNat a.data)
    else s.readQueued a (.uzon src a.index a.sub)

/-- The supervisor turns to the head of the request queue: an access of CAN or Uzon is served; one of the window is in
service, and its end is a command (R51, R444). -/
def State.serveNext (s : State) : State :=
  match s.queue with
  | [] => s
  | a :: rest =>
    if !s.sup.ready then s
    else if a.path = .pcie then (if windowLive a.client then { s with dw := { s.dw with stat := 2 } } else s)
    else ({ s with queue := rest }).serveAccess a

/-- DW_COMPLETE (R445): the window access at the head of the queue is served. -/
def execDwComplete (s : State) : Result :=
  match s.queue with
  | [] => .next s
  | a :: rest => if s.sup.ready ∧ a.path = .pcie then .next (({ s with queue := rest }).serveWindow a) else .next s

end Sys2Proof.Machine
end

