-- ==== Sys2Proof/Machine/Dispatch.lean ====
section
/-! DEFINITION. Dispatch: one arm per command, each a direct call of its meaning. -/

namespace Sys2Proof.Machine

/-- The effect of a command on everything but the queue of waiting commands. -/
def exec (i : Instr) (s : State) : Host.Outcome State Fault Refusal :=
  match i with
  | .powerUp b => Sys2Proof.Machine.execPowerUp b s
  | .modReset b => Sys2Proof.Machine.execModReset b s
  | .brownOut => Sys2Proof.Machine.execBrownOut s
  | .inputOutOfLimits mv => Sys2Proof.Machine.execInputOutOfLimits mv s
  | .inputBackInLimits mv => Sys2Proof.Machine.execInputBackInLimits mv s
  | .hardwareTrip sensor temp => Sys2Proof.Machine.execHardwareTrip sensor temp s
  | .recoveryImageLoad b => Sys2Proof.Machine.execRecoveryImageLoad b s
  | .clockMonitorWindow edges => Sys2Proof.Machine.execClockMonitorWindow edges s
  | .returnToSource via => Sys2Proof.Machine.execReturnToSource via s
  | .powerCapAdjust watts => Sys2Proof.Machine.execPowerCapAdjust watts s
  | .fastPathLimit watts => Sys2Proof.Machine.execFastPathLimit watts s
  | .thermalAdjust sensor temp => Sys2Proof.Machine.execThermalAdjust sensor temp s
  | .droopStretch sensor sag => Sys2Proof.Machine.execDroopStretch sensor sag s
  | .droopHoldExpiry lower => Sys2Proof.Machine.execDroopHoldExpiry lower s
  | .monitorArm via => Sys2Proof.Machine.execMonitorArm via s
  | .monitorFreeze via => Sys2Proof.Machine.execMonitorFreeze via s
  | .monitorClear via => Sys2Proof.Machine.execMonitorClear via s
  | .monitorClearAndArm via => Sys2Proof.Machine.execMonitorClearAndArm via s
  | .monitorSample point value => Sys2Proof.Machine.execMonitorSample point value s
  | .requestQueueArrival a => Sys2Proof.Machine.execRequestQueueArrival a s
  | .dictionaryWrite via index sub data => Sys2Proof.Machine.execDictionaryWrite via index sub data s
  | .segmentedTransferSegment seg => Sys2Proof.Machine.execSegmentedTransferSegment seg s
  | .sessionTimeout who => Sys2Proof.Machine.execSessionTimeout who s
  | .storeParameters via group => Sys2Proof.Machine.execStoreParameters via group s
  | .storeComplete ok => Sys2Proof.Machine.execStoreComplete ok s
  | .restoreDefaults via group => Sys2Proof.Machine.execRestoreDefaults via group s
  | .restoreDefaultsComplete ok => Sys2Proof.Machine.execRestoreDefaultsComplete ok s
  | .errorHistoryClear via => Sys2Proof.Machine.execErrorHistoryClear via s
  | .emcySend => Sys2Proof.Machine.execEmcySend s
  | .startRemoteNode node => Sys2Proof.Machine.execStartRemoteNode node s
  | .stopRemoteNode node => Sys2Proof.Machine.execStopRemoteNode node s
  | .enterPreOperational node => Sys2Proof.Machine.execEnterPreOperational node s
  | .resetNode node b => Sys2Proof.Machine.execResetNode node b s
  | .resetCommunication node strap => Sys2Proof.Machine.execResetCommunication node strap s
  | .heartbeatProduce => Sys2Proof.Machine.execHeartbeatProduce s
  | .heartbeatReceive node => Sys2Proof.Machine.execHeartbeatReceive node s
  | .heartbeatConsumerTimeout c => Sys2Proof.Machine.execHeartbeatConsumerTimeout c s
  | .usdoRequestReceive req => Sys2Proof.Machine.execUsdoRequestReceive req s
  | .busOffRecovery => Sys2Proof.Machine.execBusOffRecovery s
  | .markColumnPending via col => Sys2Proof.Machine.execMarkColumnPending via col s
  | .applyRetirements via => Sys2Proof.Machine.execApplyRetirements via s
  | .load via f => Sys2Proof.Machine.execLoad via f s
  | .loadComplete f => Sys2Proof.Machine.execLoadComplete f s
  | .start via f => Sys2Proof.Machine.execStart via f s
  | .stop via f => Sys2Proof.Machine.execStop via f s
  | .stopTimeout f => Sys2Proof.Machine.execStopTimeout f s
  | .reset via f => Sys2Proof.Machine.execReset via f s
  | .resetComplete f => Sys2Proof.Machine.execResetComplete f s
  | .selftest via f => Sys2Proof.Machine.execSelftest via f s
  | .selftestComplete f r => Sys2Proof.Machine.execSelftestComplete f r s
  | .unload via f => Sys2Proof.Machine.execUnload via f s
  | .add t rd ra rb => Sys2Proof.Machine.execAdd t rd ra rb s
  | .sub t rd ra rb => Sys2Proof.Machine.execSub t rd ra rb s
  | .andR t rd ra rb => Sys2Proof.Machine.execAndR t rd ra rb s
  | .orR t rd ra rb => Sys2Proof.Machine.execOrR t rd ra rb s
  | .xorR t rd ra rb => Sys2Proof.Machine.execXorR t rd ra rb s
  | .shl t rd ra rb => Sys2Proof.Machine.execShl t rd ra rb s
  | .shr t rd ra rb => Sys2Proof.Machine.execShr t rd ra rb s
  | .sar t rd ra rb => Sys2Proof.Machine.execSar t rd ra rb s
  | .mul t rd ra rb => Sys2Proof.Machine.execMul t rd ra rb s
  | .mulhu t rd ra rb => Sys2Proof.Machine.execMulhu t rd ra rb s
  | .mulhs t rd ra rb => Sys2Proof.Machine.execMulhs t rd ra rb s
  | .minS t rd ra rb => Sys2Proof.Machine.execMinS t rd ra rb s
  | .minU t rd ra rb => Sys2Proof.Machine.execMinU t rd ra rb s
  | .maxS t rd ra rb => Sys2Proof.Machine.execMaxS t rd ra rb s
  | .maxU t rd ra rb => Sys2Proof.Machine.execMaxU t rd ra rb s
  | .cmp t ra rb => Sys2Proof.Machine.execCmp t ra rb s
  | .tst t ra rb => Sys2Proof.Machine.execTst t ra rb s
  | .jalr t rd ra => Sys2Proof.Machine.execJalr t rd ra s
  | .addi t rd ra imm => Sys2Proof.Machine.execAddi t rd ra imm s
  | .andi t rd ra imm => Sys2Proof.Machine.execAndi t rd ra imm s
  | .ori t rd ra imm => Sys2Proof.Machine.execOri t rd ra imm s
  | .xori t rd ra imm => Sys2Proof.Machine.execXori t rd ra imm s
  | .shi t rd ra op amount => Sys2Proof.Machine.execShi t rd ra op amount s
  | .cmpi t ra imm => Sys2Proof.Machine.execCmpi t ra imm s
  | .movi t rd imm => Sys2Proof.Machine.execMovi t rd imm s
  | .movk t rd hw imm => Sys2Proof.Machine.execMovk t rd hw imm s
  | .ldb t rd ra imm => Sys2Proof.Machine.execLdb t rd ra imm s
  | .ldbu t rd ra imm => Sys2Proof.Machine.execLdbu t rd ra imm s
  | .ldh t rd ra imm => Sys2Proof.Machine.execLdh t rd ra imm s
  | .ldhu t rd ra imm => Sys2Proof.Machine.execLdhu t rd ra imm s
  | .ldw t rd ra imm => Sys2Proof.Machine.execLdw t rd ra imm s
  | .ldwu t rd ra imm => Sys2Proof.Machine.execLdwu t rd ra imm s
  | .ldd t rd ra imm => Sys2Proof.Machine.execLdd t rd ra imm s
  | .stb t rs ra imm => Sys2Proof.Machine.execStb t rs ra imm s
  | .sth t rs ra imm => Sys2Proof.Machine.execSth t rs ra imm s
  | .stw t rs ra imm => Sys2Proof.Machine.execStw t rs ra imm s
  | .std t rs ra imm => Sys2Proof.Machine.execStd t rs ra imm s
  | .bCond t c off => Sys2Proof.Machine.execBCond t c off s
  | .jump t off => Sys2Proof.Machine.execJump t off s
  | .jal t off => Sys2Proof.Machine.execJal t off s
  | .issueFwd t ra imm => Sys2Proof.Machine.execIssueFwd t ra imm s
  | .issueBwd t ra imm => Sys2Proof.Machine.execIssueBwd t ra imm s
  | .issueXch t ra imm => Sys2Proof.Machine.execIssueXch t ra imm s
  | .rowMap t ra imm => Sys2Proof.Machine.execRowMap t ra imm s
  | .rowBinary t ra imm => Sys2Proof.Machine.execRowBinary t ra imm s
  | .rowConvert t ra imm => Sys2Proof.Machine.execRowConvert t ra imm s
  | .rowReduce t ra imm => Sys2Proof.Machine.execRowReduce t ra imm s
  | .normFwd t ra imm => Sys2Proof.Machine.execNormFwd t ra imm s
  | .normBwd t ra imm => Sys2Proof.Machine.execNormBwd t ra imm s
  | .softmaxFwd t ra imm => Sys2Proof.Machine.execSoftmaxFwd t ra imm s
  | .softmaxBwd t ra imm => Sys2Proof.Machine.execSoftmaxBwd t ra imm s
  | .attnProb t ra imm => Sys2Proof.Machine.execAttnProb t ra imm s
  | .attnDs t ra imm => Sys2Proof.Machine.execAttnDs t ra imm s
  | .actBwd t ra imm => Sys2Proof.Machine.execActBwd t ra imm s
  | .dropout t ra imm => Sys2Proof.Machine.execDropout t ra imm s
  | .dmaMove t ra imm => Sys2Proof.Machine.execDmaMove t ra imm s
  | .dmaTranspose t ra imm => Sys2Proof.Machine.execDmaTranspose t ra imm s
  | .dmaStagedRead t ra imm => Sys2Proof.Machine.execDmaStagedRead t ra imm s
  | .dmaStagedWrite t ra imm => Sys2Proof.Machine.execDmaStagedWrite t ra imm s
  | .dmaLinkWrite t ra imm => Sys2Proof.Machine.execDmaLinkWrite t ra imm s
  | .dmaZero t ra imm => Sys2Proof.Machine.execDmaZero t ra imm s
  | .waitk t c n => Sys2Proof.Machine.execWaitk t c n s
  | .sync t kind stepAdvance scanClose switchPoint => Sys2Proof.Machine.execSync t kind stepAdvance scanClose switchPoint s
  | .send t ra rb nq => Sys2Proof.Machine.execSend t ra rb nq s
  | .sendn t rd ra rb nq => Sys2Proof.Machine.execSendn t rd ra rb nq s
  | .recv t rd q => Sys2Proof.Machine.execRecv t rd q s
  | .recvn t rd ra q => Sys2Proof.Machine.execRecvn t rd ra q s
  | .tsr t rd ix => Sys2Proof.Machine.execTsr t rd ix s
  | .tsww t ra ix => Sys2Proof.Machine.execTsww t ra ix s
  | .rdk t rd c => Sys2Proof.Machine.execRdk t rd c s
  | .setk t ra c => Sys2Proof.Machine.execSetk t ra c s
  | .rstep t rd => Sys2Proof.Machine.execRstep t rd s
  | .trap t ix => Sys2Proof.Machine.execTrap t ix s
  | .rte t => Sys2Proof.Machine.execRte t s
  | .endProgram t => Sys2Proof.Machine.execEndProgram t s
  | .trapEntryComplete t => Sys2Proof.Machine.execTrapEntryComplete t s
  | .engineOperationComplete t e u => Sys2Proof.Machine.execEngineOperationComplete t e u s
  | .dmaComplete t u => Sys2Proof.Machine.execDmaComplete t u s
  | .stagedReadWordArrival t => Sys2Proof.Machine.execStagedReadWordArrival t s
  | .stagedWriteComplete t => Sys2Proof.Machine.execStagedWriteComplete t s
  | .counterWaitTimeout t => Sys2Proof.Machine.execCounterWaitTimeout t s
  | .laidTableEntry f => Sys2Proof.Machine.execLaidTableEntry f s
  | .xchTableEnd t => Sys2Proof.Machine.execXchTableEnd t s
  | .syncRelease f => Sys2Proof.Machine.execSyncRelease f s
  | .syncWatchdogExpiry f => Sys2Proof.Machine.execSyncWatchdogExpiry f s
  | .syncTokenSend f peer => Sys2Proof.Machine.execSyncTokenSend f peer s
  | .syncTokenReceive k x => Sys2Proof.Machine.execSyncTokenReceive k x s
  | .externalSyncRelease f => Sys2Proof.Machine.execExternalSyncRelease f s
  | .externalTimeout f => Sys2Proof.Machine.execExternalTimeout f s
  | .contextSwitch t => Sys2Proof.Machine.execContextSwitch t s
  | .packetHop t port cls badParity => Sys2Proof.Machine.execPacketHop t port cls badParity s
  | .tupleArrival t p => Sys2Proof.Machine.execTupleArrival t p s
  | .tupleEnterAfterWait t q => Sys2Proof.Machine.execTupleEnterAfterWait t q s
  | .refusalArrival t p => Sys2Proof.Machine.execRefusalArrival t p s
  | .sendStallTimeout t => Sys2Proof.Machine.execSendStallTimeout t s
  | .receiveWaitTimeout t => Sys2Proof.Machine.execReceiveWaitTimeout t s
  | .rowReadRequest t p u => Sys2Proof.Machine.execRowReadRequest t p u s
  | .rowWrite t p u => Sys2Proof.Machine.execRowWrite t p u s
  | .readResponse t p => Sys2Proof.Machine.execReadResponse t p s
  | .writeAcknowledgement t p => Sys2Proof.Machine.execWriteAcknowledgement t p s
  | .memoryGatewayRequest south p => Sys2Proof.Machine.execMemoryGatewayRequest south p s
  | .supervisorQueueArrival p => Sys2Proof.Machine.execSupervisorQueueArrival p s
  | .supervisorTupleService f => Sys2Proof.Machine.execSupervisorTupleService f s
  | .supervisorTupleSend t q words => Sys2Proof.Machine.execSupervisorTupleSend t q words s
  | .h2sData i0 w => Sys2Proof.Machine.execH2sData i0 w s
  | .s2hData i0 => Sys2Proof.Machine.execS2hData i0 s
  | .supervisorMailboxWrite i0 w => Sys2Proof.Machine.execSupervisorMailboxWrite i0 w s
  | .supervisorMailboxRead i0 => Sys2Proof.Machine.execSupervisorMailboxRead i0 s
  | .mbClear i0 host w => Sys2Proof.Machine.execMbClear i0 host w s
  | .mailboxTimeout i0 h2s => Sys2Proof.Machine.execMailboxTimeout i0 h2s s
  | .dbH2s w => Sys2Proof.Machine.execDbH2s w s
  | .dbS2h w => Sys2Proof.Machine.execDbS2h w s
  | .supervisorDoorbellSet w => Sys2Proof.Machine.execSupervisorDoorbellSet w s
  | .supervisorDoorbellClear w => Sys2Proof.Machine.execSupervisorDoorbellClear w s
  | .watchLineCopy t slot => Sys2Proof.Machine.execWatchLineCopy t slot s
  | .watchRecordArrival r poisoned => Sys2Proof.Machine.execWatchRecordArrival r poisoned s
  | .watchStepClose f => Sys2Proof.Machine.execWatchStepClose f s
  | .shadowJobComplete t => Sys2Proof.Machine.execShadowJobComplete t s
  | .scrubStart via u => Sys2Proof.Machine.execScrubStart via u s
  | .scrubAbort via u => Sys2Proof.Machine.execScrubAbort via u s
  | .scrubRead u => Sys2Proof.Machine.execScrubRead u s
  | .scrubPassDone u => Sys2Proof.Machine.execScrubPassDone u s
  | .stackRefresh stack => Sys2Proof.Machine.execStackRefresh stack s
  | .stackPeriodicCheck stack temp onDie => Sys2Proof.Machine.execStackPeriodicCheck stack temp onDie s
  | .retirePseudoChannel via value => Sys2Proof.Machine.execRetirePseudoChannel via value s
  | .pseudoChannelRetirementDrained pc => Sys2Proof.Machine.execPseudoChannelRetirementDrained pc s
  | .rowTest t row fails => Sys2Proof.Machine.execRowTest t row fails s
  | .runPseudoChannelTests via => Sys2Proof.Machine.execRunPseudoChannelTests via s
  | .pseudoChannelTest pc fails => Sys2Proof.Machine.execPseudoChannelTest pc fails s
  | .faultLogFlashCopy => Sys2Proof.Machine.execFaultLogFlashCopy s
  | .tallySendRecord j r => Sys2Proof.Machine.execTallySendRecord j r s
  | .tallySegmentArrival src header data => Sys2Proof.Machine.execTallySegmentArrival src header data s
  | .tallyAckReceive j r step revision status e => Sys2Proof.Machine.execTallyAckReceive j r step revision status e s
  | .tallyRetry j r => Sys2Proof.Machine.execTallyRetry j r s
  | .tallyContextClose c => Sys2Proof.Machine.execTallyContextClose c s
  | .tallyNoticeReceive header => Sys2Proof.Machine.execTallyNoticeReceive header s
  | .tallyLeaseExpiry c => Sys2Proof.Machine.execTallyLeaseExpiry c s
  | .tallyDiscardComplete c => Sys2Proof.Machine.execTallyDiscardComplete c s
  | .rollCallAnswer j => Sys2Proof.Machine.execRollCallAnswer j s
  | .rollAnswerReceive j dev step ready => Sys2Proof.Machine.execRollAnswerReceive j dev step ready s
  | .rollDeadlineExpiry j => Sys2Proof.Machine.execRollDeadlineExpiry j s
  | .membershipReceive j m => Sys2Proof.Machine.execMembershipReceive j m s
  | .reportReceive j dev step rev sent => Sys2Proof.Machine.execReportReceive j dev step rev sent s
  | .sealReceive j dev step => Sys2Proof.Machine.execSealReceive j dev step s
  | .withdrawLate j => Sys2Proof.Machine.execWithdrawLate j s
  | .withdrawLateReceive j dev step retractable floats => Sys2Proof.Machine.execWithdrawLateReceive j dev step retractable floats s
  | .keeperHeartbeat j dev => Sys2Proof.Machine.execKeeperHeartbeat j dev s
  | .keeperLeaseExpiry j => Sys2Proof.Machine.execKeeperLeaseExpiry j s
  | .takeoverReceive j dev => Sys2Proof.Machine.execTakeoverReceive j dev s
  | .updateBucket e => Sys2Proof.Machine.execUpdateBucket e s
  | .weightReturnReceive src x => Sys2Proof.Machine.execWeightReturnReceive src x s
  | .weightReturnResend e => Sys2Proof.Machine.execWeightReturnResend e s
  | .regenerateBucket via j bucket => Sys2Proof.Machine.execRegenerateBucket via j bucket s
  | .moveStart via j => Sys2Proof.Machine.execMoveStart via j s
  | .moveAbort via j => Sys2Proof.Machine.execMoveAbort via j s
  | .moveListDone j => Sys2Proof.Machine.execMoveListDone j s
  | .linkTrain via k => Sys2Proof.Machine.execLinkTrain via k s
  | .linkDisable via k => Sys2Proof.Machine.execLinkDisable via k s
  | .linkRetrain via k => Sys2Proof.Machine.execLinkRetrain via k s
  | .laneTest via k => Sys2Proof.Machine.execLaneTest via k s
  | .clearRetirements via k => Sys2Proof.Machine.execClearRetirements via k s
  | .trainingComplete k r => Sys2Proof.Machine.execTrainingComplete k r s
  | .trainingTimeout k => Sys2Proof.Machine.execTrainingTimeout k s
  | .retrainingTimeout k => Sys2Proof.Machine.execRetrainingTimeout k s
  | .retrainingComplete k => Sys2Proof.Machine.execRetrainingComplete k s
  | .autoRetrain k => Sys2Proof.Machine.execAutoRetrain k s
  | .peerSilent k => Sys2Proof.Machine.execPeerSilent k s
  | .flitReceive k flit => Sys2Proof.Machine.execFlitReceive k flit s
  | .sidebandReceive k w => Sys2Proof.Machine.execSidebandReceive k w s
  | .replayTimeout k => Sys2Proof.Machine.execReplayTimeout k s
  | .burstThreshold k codewords symbols => Sys2Proof.Machine.execBurstThreshold k codewords symbols s
  | .testReq k => Sys2Proof.Machine.execTestReq k s
  | .testAck k => Sys2Proof.Machine.execTestAck k s
  | .testReqTimeout k => Sys2Proof.Machine.execTestReqTimeout k s
  | .prbsTestComplete k lanes => Sys2Proof.Machine.execPrbsTestComplete k lanes s
  | .testResult k peer => Sys2Proof.Machine.execTestResult k peer s
  | .retrain k => Sys2Proof.Machine.execRetrain k s
  | .caps k c => Sys2Proof.Machine.execCaps k c s
  | .creditInit k => Sys2Proof.Machine.execCreditInit k s
  | .resume k ackSeq => Sys2Proof.Machine.execResume k ackSeq s
  | .write k x => Sys2Proof.Machine.execWrite k x s
  | .read k x => Sys2Proof.Machine.execRead k x s
  | .rdata k x => Sys2Proof.Machine.execRdata k x s
  | .ack k x => Sys2Proof.Machine.execAck k x s
  | .msg k x => Sys2Proof.Machine.execMsg k x s
  | .mreq k x => Sys2Proof.Machine.execMreq k x s
  | .mresp k x => Sys2Proof.Machine.execMresp k x s
  | .reservedKind k x => Sys2Proof.Machine.execReservedKind k x s
  | .transactionRelay k x => Sys2Proof.Machine.execTransactionRelay k x s
  | .snapshotTake via j => Sys2Proof.Machine.execSnapshotTake via j s
  | .snapshotAbort via j => Sys2Proof.Machine.execSnapshotAbort via j s
  | .clearPartnerLost via j => Sys2Proof.Machine.execClearPartnerLost via j s
  | .snapshotStart j => Sys2Proof.Machine.execSnapshotStart j s
  | .snapshotStatePartDone j => Sys2Proof.Machine.execSnapshotStatePartDone j s
  | .snapshotEnd j r => Sys2Proof.Machine.execSnapshotEnd j r s
  | .hostingLeaseExpiry slot gen => Sys2Proof.Machine.execHostingLeaseExpiry slot gen s
  | .restore via j => Sys2Proof.Machine.execRestore via j s
  | .restoreAbort via j => Sys2Proof.Machine.execRestoreAbort via j s
  | .tallyReset via j => Sys2Proof.Machine.execTallyReset via j s
  | .weightResend via j => Sys2Proof.Machine.execWeightResend via j s
  | .weightResendRequestReceive j dev => Sys2Proof.Machine.execWeightResendRequestReceive j dev s
  | .restoreVerifyDone j => Sys2Proof.Machine.execRestoreVerifyDone j s
  | .restoreDone j => Sys2Proof.Machine.execRestoreDone j s
  | .dwRead ctl => Sys2Proof.Machine.execDwRead ctl s
  | .dwWrite ctl => Sys2Proof.Machine.execDwWrite ctl s
  | .dwComplete => Sys2Proof.Machine.execDwComplete s
  | .ackResult seq => Sys2Proof.Machine.execAckResult seq s
  | .ringEnable r ctl => Sys2Proof.Machine.execRingEnable r ctl s
  | .ringDisable r ctl => Sys2Proof.Machine.execRingDisable r ctl s
  | .ringResume r ctl => Sys2Proof.Machine.execRingResume r ctl s
  | .prod r v => Sys2Proof.Machine.execProd r v s
  | .ringDescriptorProcess r desc data failed => Sys2Proof.Machine.execRingDescriptorProcess r desc data failed s
  | .ringDescriptorComplete r => Sys2Proof.Machine.execRingDescriptorComplete r s
  | .hostRegisterWrite off size v => Sys2Proof.Machine.execHostRegisterWrite off size v s
  | .stagingWrite off data => Sys2Proof.Machine.execStagingWrite off data s
  | .functionLevelReset => Sys2Proof.Machine.execFunctionLevelReset s
  | .hotReset => Sys2Proof.Machine.execHotReset s
  | .perstN high => Sys2Proof.Machine.execPerstN high s
  | .firmwareProgram via => Sys2Proof.Machine.execFirmwareProgram via s
  | .firmwareProgramComplete flash => Sys2Proof.Machine.execFirmwareProgramComplete flash s
  | .firmwareRestart via => Sys2Proof.Machine.execFirmwareRestart via s
  | .raiseSecurityVersion via => Sys2Proof.Machine.execRaiseSecurityVersion via s
  | .bypass tdi => Sys2Proof.Machine.execBypass tdi s
  | .idcode => Sys2Proof.Machine.execIdcode s
  | .samplePreload preload => Sys2Proof.Machine.execSamplePreload preload s
  | .extest => Sys2Proof.Machine.execExtest s
  | .canBusError tec recv => Sys2Proof.Machine.execCanBusError tec recv s
  | .canReceiveOverrun => Sys2Proof.Machine.execCanReceiveOverrun s
  | .pcieRefclkChange good => Sys2Proof.Machine.execPcieRefclkChange good s
  | .codewordLockLost k codewords => Sys2Proof.Machine.execCodewordLockLost k codewords s
  | .controlFlitResend k => Sys2Proof.Machine.execControlFlitResend k s
  | .flitTransmit k => Sys2Proof.Machine.execFlitTransmit k s
  | .outboundQueueDrain t => Sys2Proof.Machine.execOutboundQueueDrain t s
  | .standbyLeaseExpiry j => Sys2Proof.Machine.execStandbyLeaseExpiry j s
  | .pciePowerStateChange d3hot l2 => Sys2Proof.Machine.execPciePowerStateChange d3hot l2 s
  | .pcieLinkUp speed width maxPayload corrected => Sys2Proof.Machine.execPcieLinkUp speed width maxPayload corrected s
  | .msixTableWrite off v => Sys2Proof.Machine.execMsixTableWrite off v s
  | .supervisorRestartComplete => Sys2Proof.Machine.execSupervisorRestartComplete s
  | .illegalInstruction t word => Sys2Proof.Machine.execIllegalInstruction t word s

end Sys2Proof.Machine
end

