-- ==== Sys2Proof/Machine/Tick.lean ====
section
/-! DEFINITION. Tick: what a step does while no command waits (log entry 1). -/

namespace Sys2Proof.Machine

/-- One cycle of the clocks: the supervisor cycle count, and TSW2 of every frame that counts as RUNNING. -/
def State.tickClocks (s : State) : State :=
  { s with
    supCycles := s.supCycles + 1
    queueFresh := 0
    frames := s.frames.map fun x => if x.st = .running then { x with cycles := x.cycles + 1 } else x }

/-- While no command waits, the supervisor serves the head of the request queue (R51, R53) and the clocks tick. -/
def tick (s : State) : Result := .next s.serveNext.tickClocks

end Sys2Proof.Machine
end

