-- ==== Sys2Proof/Machine/Step.lean ====
section
/-! DEFINITION. Step: take the command at the front of the queue and run it with the queue's rest; with no
command waiting, let the clocks tick (log entry 1). -/

namespace Sys2Proof.Machine

/-- One step of the L48. -/
def step (s : State) : Host.Outcome State Fault Refusal :=
  match s.pending with
  | [] => tick s
  | c :: rest => exec c { s with pending := rest }

/-- `s` with the command a table word spells at the front of its queue; the table gives no bits. -/
def State.withFetchWord (s : State) (nbits w : Nat) : State :=
  match decodeTableWord nbits w with
  | some c => { s with pending := c :: s.pending }
  | none => s

end Sys2Proof.Machine
end

