-- ==== Sys2Proof/Safety.lean ====
section
/-! DEFINITION. Safety: what counts as a safe step and as a sound state, in the terms the claims use. -/

namespace Sys2Proof.Machine

/-- No image slot of the flash that counts as valid holds an image below the minimum security version (R490,
R494). -/
def Flash.ok (f : Flash) : Bool :=
  (f.imageA.state != 1 || decide (f.security ≤ f.imageA.security)) &&
    (f.imageB.state != 1 || decide (f.security ≤ f.imageB.security))

/-- The sparse tables that hold registers have strictly rising keys. -/
def State.rising (s : State) : Bool :=
  srising s.od && srising s.tables && srising s.tiles && srising s.pcs && srising s.scrubs && srising s.watch &&
    srising s.mail && srising s.rings && srising s.monitors && srising s.contexts && srising s.rolls &&
    srising s.moves && srising s.links && srising s.snaps && srising s.rests && srising s.sentExp

/-- A sound state: both memories in canonical form; 50 physical columns and at most 48 columns of tiles (R14,
R19); at most 256 entries in the fault log and in its flash copy (R431); at most 16 entries in the emergency
queue and in the error history (R76) and at most 32 requests in the request queue (R51); a result number from 1
to 0xFFFF_FFFF (R449); the flash as R494 has it; the sparse tables of the model in order. -/
def State.inv (s : State) : Bool :=
  s.mem.wf && s.stat.wf && decide (s.grid.columns.length = 50) && decide (s.grid.width ≤ 48) &&
    decide (s.log.length ≤ 256) && decide (s.flash.log.length ≤ 256) && decide (s.can.queue.length ≤ 16) &&
    decide (s.can.history.length ≤ 16) && decide (s.queue.length ≤ 32) && decide (1 ≤ s.host.nextSeq) &&
    decide (s.host.nextSeq ≤ 0xFFFFFFFF) && s.flash.ok && s.rising

end Sys2Proof.Machine

namespace Sys2Proof.Safety

open Sys2Proof.Machine

/-- The outcome is a next state. -/
def IsNext : Result → Prop
  | .next _ => True
  | .fault _ => False
  | .refused _ => False

/-- A step from `s` answers a next state. -/
def SafeStep (s : State) : Prop := IsNext (step s)

/-! ### Cores: when an instruction runs, and what it leaves alone -/

/-- The core of tile `t`, of frame `f`, may issue, fetches its next word with no trap (R246, R247), and instruction `i`
is what the word stands for (R242, R243); `u` is the state after the fetch, with its pair held and the errors it met
counted (R96, R246). -/
structure Fetched (s : State) (t : Nat) (f : Fin 8) (i : Instr) (u : State) : Prop where
  tile : t < s.tileCount
  ready : s.coreReady t = some f
  word : ∃ w, s.fetchWord t f = (some w, u) ∧ coreInstr t w = some i

/-- The core of tile `t`, of frame `f`, may issue, and its next word is `n`, fetched with no trap; `u` is the state
after the fetch. -/
structure FetchedWord (s : State) (t : Nat) (f : Fin 8) (n : Nat) (u : State) : Prop where
  tile : t < s.tileCount
  ready : s.coreReady t = some f
  word : s.fetchWord t f = (some n, u)

/-- Only the tile table differs, and of it only the entry of tile `t`. -/
def OnlyTile (u w : State) (t : Nat) : Prop :=
  { w with tiles := u.tiles } = u ∧ ∀ j, j ≠ t → w.tile j = u.tile j

/-- Only the active register context of tile `t` differs. -/
def OnlyCore (u w : State) (t : Nat) : Prop :=
  OnlyTile u w t ∧ w.tile t = (u.tile t).setCtx (u.tile t).active (w.tile t).core

/-- `w` is `u` with `v` in register `rd` of tile `t` and its PC at the next instruction; a write of g0 is
discarded (R240). Flags, counters, every other register and all else stand as in `u`. -/
def Wrote (u : State) (t : Nat) (rd : Reg) (v : W64) (w : State) : Prop :=
  OnlyCore u w t ∧ w.reg t rd = (if rd = 0 then 0 else v) ∧ (∀ q, q ≠ rd → w.reg t q = u.reg t q) ∧
    (w.tile t).core = { (u.tile t).core.advance with g := (w.tile t).core.g }

/-- `w` is `u` with tile `t`'s active context replaced by `c`. -/
def CoreIs (u : State) (t : Nat) (c : RegContext) (w : State) : Prop :=
  OnlyCore u w t ∧ (w.tile t).core = c

/-- The flags of `a − b` in 64 bits (R244): Z of the result, N its bit [63], C for a ≥ b unsigned, V for a signed
difference that 64 bits do not hold. -/
def IsDifference (a b : W64) (fl : Flags) : Prop :=
  (fl.z = true ↔ a = b) ∧ fl.n = (a - b).getLsbD 63 ∧ (fl.c = true ↔ b.toNat ≤ a.toNat) ∧
    (fl.v = true ↔ (a - b).toInt ≠ a.toInt - b.toInt)

/-- The condition table of R244 by condition number. -/
def branchTaken (fl : Flags) : Nat → Bool
  | 0x0 => fl.z
  | 0x1 => !fl.z
  | 0x2 => fl.c
  | 0x3 => !fl.c
  | 0x4 => fl.n
  | 0x5 => !fl.n
  | 0x6 => fl.v
  | 0x7 => !fl.v
  | 0x8 => fl.c && !fl.z
  | 0x9 => !fl.c || fl.z
  | 0xA => fl.n == fl.v
  | 0xB => !(fl.n == fl.v)
  | 0xC => !fl.z && (fl.n == fl.v)
  | 0xD => fl.z || !(fl.n == fl.v)
  | 0xE => true
  | _ => false

/-- A data read of `n` bytes at scratch offset `a` meets the tests of R247: `d` is what it delivers and `v` the
state after it, with the errors it met counted. -/
structure CoreReads (u : State) (t a n : Nat) (v : State) (d : List Byte) : Prop where
  range : a ≤ 0x3FFF
  aligned : a % n = 0
  window : (u.tile t).decl.allows (u.tile t).active false 1 (a / 256) = true
  read : u.readScratch t a n = (⟨d, false⟩, none, v)

/-- A data write of `n` bytes at scratch offset `a` meets the tests of R247. -/
structure CoreWrites (u : State) (t a n : Nat) : Prop where
  range : a ≤ 0x3FFF
  aligned : a % n = 0
  window : (u.tile t).decl.allows (u.tile t).active true 1 (a / 256) = true

/-- `w` is `u` with the low `n` bytes of `x` at scratch offset `a` of tile `t` and the core at its next instruction:
no other byte of memory, no other tile and nothing else of the state differs. -/
def Stored (u : State) (t a n : Nat) (x : W64) (w : State) : Prop :=
  (∀ i, i < n → w.mem.byte (scratchAddr t a + i) = BitVec.ofNat 8 (x.toNat / 256 ^ i)) ∧
    (∀ b, b < scratchAddr t a ∨ scratchAddr t a + n ≤ b → w.mem.byte b = u.mem.byte b) ∧
    OnlyCore { u with mem := w.mem, errs := w.errs } w t ∧
    (w.tile t).core = (u.tile t).core.advance

/-- The core of tile `t` is entering a trap of the given cause and detail (R264, R265, R268): TSW48 (TSW53 in the
guest context) holds the cause, TSW49 the PC, TSW51 the detail, the count of traps taken is one higher, no general
register, counter or flag has changed, no byte outside the save area has, and every other tile is as it was. -/
def Trapped (u : State) (t cause detail : Nat) (w : State) : Prop :=
  (w.tile t).trap.entry.map (·.cause) = some cause ∧
    (if (u.tile t).active = 2 then (w.tile t).trap.guest else (w.tile t).trap.main).cause = cause ∧
    (if (u.tile t).active = 2 then (w.tile t).trap.guest else (w.tile t).trap.main).taken =
      satAdd 32 (if (u.tile t).active = 2 then (u.tile t).trap.guest else (u.tile t).trap.main).taken 1 ∧
    (w.tile t).trap.pc = (u.tile t).core.pc.toNat % 2 ^ 14 ∧ (w.tile t).trap.detail = detail ∧
    (w.tile t).core = (u.tile t).core ∧
    (∀ b, b < scratchAddr t ((u.tile t).saveArea (u.tile t).active) ∨
      scratchAddr t ((u.tile t).saveArea (u.tile t).active) + 256 ≤ b → w.mem.byte b = u.mem.byte b) ∧
    ∀ j, j ≠ t → w.tile j = u.tile j

/-- Of `s`, only the free-value counter and the error counts of tile `t` differ. -/
def OnlyCounts (s u : State) (t : Nat) : Prop :=
  { u with freeCtr := s.freeCtr, tiles := s.tiles } = s ∧ (∀ j, j ≠ t → u.tile j = s.tile j) ∧
    u.tile t = { s.tile t with cnt := (u.tile t).cnt }

/-- Of `s`, only the free-value counter and, of tile `t`, the error counts and the pair it holds differ. -/
def OnlyFetch (s u : State) (t : Nat) : Prop :=
  { u with freeCtr := s.freeCtr, tiles := s.tiles } = s ∧ (∀ j, j ≠ t → u.tile j = s.tile j) ∧
    u.tile t = { s.tile t with cnt := (u.tile t).cnt, pair := (u.tile t).pair }

/-- The save area of R265 for context `c` of tile `t`, from scratch offset `a`: PC, word, detail, flags and context,
TSW2, step, k0–k7 and g1–g20. -/
def SaveArea (w : State) (t a : Nat) (c : RegContext) (ctx word detail cycle step : Nat) : Prop :=
  w.mem.read (scratchAddr t (a + 0x08)) 8 = leBytes 8 (c.pc.toNat % 2 ^ 14) ∧
    w.mem.read (scratchAddr t (a + 0x10)) 8 = leBytes 8 word ∧
    w.mem.read (scratchAddr t (a + 0x18)) 8 = leBytes 8 detail ∧
    w.mem.read (scratchAddr t (a + 0x20)) 8 =
      leBytes 8 (b2n c.flags.z + 2 * b2n c.flags.n + 4 * b2n c.flags.c + 8 * b2n c.flags.v + 16 * ctx) ∧
    w.mem.read (scratchAddr t (a + 0x28)) 8 = leBytes 8 cycle ∧
    w.mem.read (scratchAddr t (a + 0x30)) 8 = leBytes 8 step ∧
    (∀ i : Fin 8, w.mem.read (scratchAddr t (a + 0x40 + 4 * i.val)) 4 = leBytes 4 (c.k[i.val]).toNat) ∧
    ∀ i : Fin 20, w.mem.read (scratchAddr t (a + 0x60 + 8 * i.val)) 8 = leBytes 8 (c.g[i.val + 1]).toNat

/-- A SYNC that R253 and R397 allow where the tile now stands. -/
def SyncLegal (x : Tile) (kind : Fin 4) (stepAdvance scanClose switchPoint : Bool) : Prop :=
  kind ≠ 3 ∧ (switchPoint = true → 2 ≤ x.xch.phase ∨ kind = 2) ∧
    (x.active = 2 → kind ≠ 1 ∧ stepAdvance = false ∧ scanClose = false)

/-- The frame a tile's event belongs to, while it counts as RUNNING. -/
def TileRuns (s : State) (t : Nat) (f : Fin 8) : Prop := t < s.tileCount ∧ s.runningFrame t = some f
/-- An ISSUE, the command `i`, on tile `t` is fetched, its descriptor address `a` meets R249, and the engine port reads
the 64 bytes `d` with no trap; `v` is the state after the read. -/
structure DescriptorRead (s : State) (t : Nat) (f : Fin 8) (i : Instr) (ra : Reg) (imm : W16) (a : Nat) (v : State)
  (d : List Byte) :
    Prop where
  fetched : ∃ u, Fetched s t f i u ∧ a = (BitVec.ofInt 64 ((u.reg t ra).toInt + imm.toInt)).toNat ∧
    (u.tile t).decl.allows (u.tile t).active false 1 (a / 256) = true ∧ u.readScratch t a 64 = (⟨d, false⟩, none, v)
  aligned : a % 64 = 0
  range : a ≤ 0x3EC0

/-- Engine `e` of tile `t` (1 FWD, 2 BWD, 3 ROW, 4 DMA) has a place free (R177). -/
def PlaceFree (v : State) (t e : Nat) : Prop :=
  ((v.tile t).engine e).running = none ∨ ((v.tile t).engine e).waiting = none

/-- The engine has taken the descriptor `d` at `a`, with the active context and the current step, into its running
place, or into its waiting place where an operation runs (R98, R163, R177), and the core goes on. -/
def HandedOver (v w : State) (t : Nat) (f : Fin 8) (e a : Nat) (d : List Byte) : Prop :=
  (w.tile t).core = (v.tile t).core.advance ∧
    ∃ op : EngOp, op.desc = d ∧ op.addr = a ∧ op.context = (v.tile t).active ∧ op.step = (v.frame f).step ∧
      (((v.tile t).engine e).running = none → ((w.tile t).engine e).running = some op) ∧
      (((v.tile t).engine e).running ≠ none → ((w.tile t).engine e).waiting = some op)

/-- The DMA engine has taken descriptor `d`: its running place holds it, with what it has requested so far, or its
waiting place where another operation ran. -/
def DmaHolds (v w : State) (t : Nat) (f : Fin 8) (a : Nat) (d : List Byte) : Prop :=
  ∃ op : EngOp, op.desc = d ∧ op.addr = a ∧ op.context = (v.tile t).active ∧ op.step = (v.frame f).step ∧
    ((v.tile t).dma.running = none → (w.tile t).dma.running = some op) ∧
    ((v.tile t).dma.running ≠ none → (w.tile t).dma.waiting = some op)
/-- Of `s`, only memory, the dictionary, what logging an event changes, and the error counts and the watch unit of tile
`t` may differ: no other tile, no frame, and of tile `t` no register, engine, queue or trap. -/
def OnlyRecords (s x : State) (t : Nat) : Prop :=
  (∀ j, j ≠ t → x.tile j = s.tile j) ∧ x.frames = s.frames ∧ x.grid = s.grid ∧
    x.tile t = { s.tile t with cnt := (x.tile t).cnt, watch := (x.tile t).watch }

/-- The entry of a tensor in the watch region stands in stack memory that can be written: its blocks are backed, and no
pseudo-channel of theirs is retiring (R194, R302). -/
def WatchPlaced (s : State) (tid : Nat) : Prop :=
  s.watchPlace tid + 512 ≤ 4 * stackSize ∧ s.rangeBacked (s.watchPlace tid) 512 = true ∧
    ∀ i, i < 8 → s.placeRetiring (s.watchPlace tid + 64 * i) = false

/-- Completion counter `k` of context `c` of tile `t` is one higher in `v` than in `s`; at all ones it stays there and
TSW54 sets its bit (R241). -/
def Signalled (s v : State) (t c k : Nat) : Prop :=
  if ((s.tile t).ctx c).k.getD k 0 = 0xFFFFFFFF
  then ((v.tile t).ctx c).k = ((s.tile t).ctx c).k ∧ (v.tile t).trap.saturated.testBit k = true
  else ((v.tile t).ctx c).k = ((s.tile t).ctx c).k.setIfInBounds k (((s.tile t).ctx c).k.getD k 0 + 1)

/-! ### Commands that reach the dictionary as a write, and what is logged -/

/-- The supervisor serves the dictionary, and the write of `v` to the entry passes the checks of R45. -/
def Accepts (s : State) (via : Path) (i sub v : Nat) : Prop :=
  s.sup.ready = true ∧
    s.writeCode via i sub (leBytes (match entryAt i sub with | some e => e.type.bytes | none => 1) v) = 0

/-- The access is answered with success (abort code 0), as the newest thing that leaves the block. -/
def Answered (w : State) (via : Path) (i sub : Nat) : Prop := w.out.head? = some (.value via (odKey i sub) 0 [])

/-- The newest entry of the fault log is the event, with its detail, at the present cycle (R431, R432). -/
def Logged (s w : State) (event detail : Nat) : Prop :=
  w.log.head? = some (s.supCycles, event, eventEmcy event detail, detail)

/-! ### Start-up -/

/-- A boot that finds nothing wrong: the regulators start, the flash reads, the clock source is accepted, and every self-test passes. -/
structure BootsClean (s : State) (b : BootInputs) : Prop where
  input : 10800 < b.inputMillivolts
  flash : b.flashGood = true
  clock : (acceptedRun b.clkSel [] (b.sourceWindows.take 5000)).isSome = true
  memory : b.badStacks = [] ∧ b.untrainable = [] ∧ b.lanesRepaired = []
  tests : b.rowFailures = [] ∧ b.tileFailures = [] ∧ b.philoxGood = true
  columns : ∀ c ∈ s.grid.columns, c ≠ .pending

/-- The device as start-up leaves it after a boot that found nothing wrong (R34, R105, R381, R495, R496): the image
`image` runs, every frame is EMPTY, the tiles hold nothing but their spare rows, the links are DISABLED with their
retired lanes, and the node has booted up: where no vector was waiting and no trip is to be logged, its boot-up frame is
the last thing to leave. -/
def Booted (s w : State) (b : BootInputs) (cause : Nat) (image fell : Bool) : Prop :=
  w.sup = { ready := true, imageB := image, fellBack := fell } ∧ (∀ f : Fin 8, w.frame f = {}) ∧
    (∀ t, w.tile t = { spares := (s.tile t).spares }) ∧ (∀ k : Fin 24, w.link k = { retired := (s.link k).retired }) ∧
    w.can.nmt = .preOperational ∧ w.can.nodeId = b.nodeId.toNat ∧ w.odGet 0x3100 0x01 0 = b.nodeId.toNat ∧
    w.odGet 0x3100 0x02 0 = cause ∧ w.power.on = true ∧ w.supCycles = 0 ∧ w.queue = [] ∧ w.sessions = [] ∧
    w.stat = [] ∧ w.rings = [] ∧ w.mail = [] ∧ w.pending = s.pending ∧
    (b.nodeId ≠ 0 → s.host.msixPending = [] → s.power.tripped = none →
      w.out.head? = some (.can (0x700 + b.nodeId.toNat) [0]))

/-- Only the boot logic runs (R492): no dictionary, no CAN, no link. -/
def InRecovery (w : State) : Prop :=
  w.sup.recovery = true ∧ w.sup.ready = false ∧ w.can.nmt = .initialisation ∧ ∀ k : Fin 24, (w.link k).st = .disabled

/-- Only link `k` differs in the link table of `w` from that of `s`; it stands as `x`. -/
def LinkIs (s w : State) (k : Fin 24) (x : LinkSt) : Prop :=
  w.link k = x ∧ ∀ j, j ≠ k → w.link j = s.link j

/-- What the loss of a link that stood as `l` makes of `u` (R379): each transaction queued for it or held in its retry
buffer is lost, and each request that holds one of its tags or waits for one completes with status 0x9 (R419). -/
def Lost (l : LinkSt) (u : State) : State :=
  (l.tags.filterMap (·.2) ++ l.waits.map (·.1)).foldl (fun s w => s.completeRequest w 9 0 0 [])
    (l.heldHeaders.foldl State.lostTxn u)

/-- Link `k` has left its state for `st` with all it held (R379, R381): no lane is active, nothing waits, is sent again
or holds a tag, and an exit from UP is logged with its cause. -/
def Dropped (s u : State) (k : Fin 24) (st : LinkState) (cause : Nat) : Prop :=
  (u.link k).st = st ∧ (u.link k).cause = cause ∧ (u.link k).active = 0 ∧ (u.link k).tags = [] ∧ (u.link k).waits = [] ∧
    (u.link k).tx = [] ∧ (u.link k).retry = [] ∧ (u.link k).replay = [] ∧ (u.link k).control = none ∧
    (u.link k).retired = (s.link k).retired ∧ (∀ j, j ≠ k → u.link j = s.link j) ∧
    ((s.link k).st = .up → Logged s u 0x0403 (k.val + cause * 2 ^ 8)) ∧ ((s.link k).st ≠ .up → u.log = s.log)

/-- Link `k` has left UP for a retrain with a cause, and sends CONTROL `code` until it is answered (R381, R382): it
keeps its retry buffer, receive buffers, credits and tags. -/
def Retrains (s w : State) (k : Fin 24) (cause code : Nat) : Prop :=
  LinkIs s w k { s.link k with
    st := .retraining, cause := cause, replays := 0, prbs := false, measured := [], control := some code
    nakDue := (w.link k).nakDue, nakSent := (w.link k).nakSent, cvc := (w.link k).cvc } ∧
  Logged s w 0x0403 (k.val + cause * 2 ^ 8) ∧
  w.odGet (linkIndex k + 3) 0x07 0 = satAdd 32 (s.odGet (linkIndex k + 3) 0x07 0) 1

/-- The lane passes the test at both ends, and not for the fourth time within 60 s (R384). -/
def LaneKept (s : State) (l : LinkSt) (peer : List LaneMeasure) (i : Fin 4) : Prop :=
  (∀ ms, ms = l.measured ∨ ms = peer → ∃ m, ms.find? (fun m => m.lane.val == i.val) = some m ∧
    m.errors ≤ s.odGet 0x2B02 0x05 64 ∧ s.odGet 0x2B02 0x06 26 ≤ m.horizontal ∧ s.odGet 0x2B02 0x07 8 ≤ m.vertical) ∧
  ((l.lanes[i.val]).passes.filter fun t => decide (s.supCycles < t + 60000000 * 800)).length < 3

end Sys2Proof.Safety
end

