-- ==== Sys2Proof/Certificates/Slice0/Obligations.lean ====
section
/-! DEFINITION. Obligations: the statements for the provers, from the rules of the spec. -/

open Sys2Proof Sys2Proof.Machine Sys2Proof.Safety

/-- A step takes the command at the front of the queue and runs it with the queue's rest. -/
def Obligations.StepRunsFrontCommand : Prop :=
  ∀ (s : State) (c : Instr) (rest : List Instr), s.pending = c :: rest → step s = exec c { s with pending := rest }

/-- While no command waits the clocks tick (the model's choice, log entry 1): the supervisor's cycle count
rises, and the cycle count of every frame that counts as RUNNING; with no dictionary access waiting, or none
that a supervisor in reset could serve, nothing else changes but that the cycle's new requests are no longer
of one cycle (R51). -/
def Obligations.EmptyQueueTicks : Prop :=
  ∀ s : State, s.pending = [] → s.queue = [] ∨ s.sup.ready = false → ∃ w, step s = .next w ∧
    w.supCycles = s.supCycles + 1 ∧
    (∀ f : Fin 8, w.frame f =
      if (s.frame f).st = .running then { s.frame f with cycles := (s.frame f).cycles + 1 } else s.frame f) ∧
    w.queueFresh = 0 ∧ { w with supCycles := s.supCycles, frames := s.frames, queueFresh := s.queueFresh } = s

/-- The machine right after reset: every frame EMPTY, every link DISABLED, tiles, stacks, queues, mailboxes,
doorbells, rings, monitors and logs empty (R34, R238, R381, R388, R431, R476); the node is pre-operational
(R71). That the device is an L48-2304-LC with NODE_ID 127 is the model's choice (log entry 4). -/
def Obligations.ResetState : Prop :=
  let s := State.reset
  (∀ f : Fin 8, (s.frame f).st = .empty ∧ (s.frame f).latched = none ∧ (s.frame f).step = 0) ∧
  (∀ k : Fin 24, (s.link k).st = .disabled ∧ (s.link k).active = 0 ∧ (s.link k).cause = 0) ∧
  (∀ t, s.tile t = {}) ∧ s.mem = [] ∧ s.queue = [] ∧ s.sessions = [] ∧ s.pending = [] ∧
  (∀ i : Fin 8, (s.mailPair i).h2s.words = [] ∧ (s.mailPair i).s2h.words = []) ∧
  s.host.dbH2s = 0 ∧ s.host.dbS2h = 0 ∧ s.rings = [] ∧ s.log = [] ∧ s.contexts = [] ∧
  (∀ i : Fin 64, (s.point i.val).state = 0 ∧ (s.point i.val).count = 0) ∧ s.can.nmt = .preOperational ∧
  s.can.nodeId = 127 ∧ s.grid.width = 48 ∧ s.tileCount = 2304 ∧ s.sup.ready = true

/-- The state after reset is sound. -/
def Obligations.ResetIsSound : Prop :=  State.reset.inv = true

/-- Every step keeps a sound state sound (State.inv): memories and register tables in canonical form, 50
physical columns and at most 48 of tiles (R14, R19), the limits of the fault log (R431), of the emergency
queue and error history (R76) and of the request queue (R51), a result number that is never 0 (R449), and no
valid flash image below the minimum security version (R494). -/
def Obligations.StepKeepsSound : Prop :=
  ∀ s t : State, s.inv = true → step s = .next t → t.inv = true

/-- Every command answers a next state and leaves the queue of waiting commands as it was, but for one that
names a tile that does not exist, which stops (log entry 5); no command is refused. -/
def Obligations.CommandsAnswer : Prop :=
  (∀ (c : Instr) (s : State), (∃ t : State, exec c s = .next t ∧ t.pending = s.pending) ∨
    exec c s = .fault .noSuchTile) ∧
  ∀ (s : State) (t : Nat), s.tileCount ≤ t →
    ∀ use, ∀ c, c ∈ [Instr.endProgram t, .dmaComplete t use, .trapEntryComplete t] →
    exec c s = .fault .noSuchTile

/-- A core that may not issue runs nothing, and a command that claims another instruction than the word at the
PC stands for does nothing (the model's choice, log entry 5). The fetch leaves all but the error counts, the
free-value counter and the pair held alone; where the pair is held it leaves these too, and where the pair in
memory holds no error it changes no more than the pair held (R96, R246). -/
def Obligations.FetchLeavesState : Prop :=
  (∀ (s : State) (t : Nat) (rd ra rb : Reg), t < s.tileCount → s.coreReady t = none →
    exec (.add t rd ra rb) s = .next s ∧ exec (.endProgram t) s = .next s ∧ exec (.rte t) s = .next s) ∧
  (∀ (s u : State) (t : Nat) (f : Fin 8) (n : Nat) (rd ra rb : Reg), FetchedWord s t f n u →
    coreInstr t n ≠ some (.add t rd ra rb) → exec (.add t rd ra rb) s = .next s) ∧
  ∀ (s u : State) (t : Nat) (f : Fin 8) (n : Nat), s.inv = true → FetchedWord s t f n u →
    let a := (s.tile t).core.pc.toNat / 8 * 8
    OnlyFetch s u t ∧ ((s.tile t).heldPair ≠ none → u = s) ∧
    ((s.tile t).heldPair = none → errsIn s.errs (scratchAddr t a) 8 = [] →
      u = s.modTile t fun x => { x with pair := some (a, s.mem.read (scratchAddr t a) 8) }) ∧
    (s.tile t).core.stray = none ∧ (s.frame f).st = .running ∧ (s.tile t).wait = .none ∧
    (s.tile t).trap.entry = none

/-- Register operations (R245, the rows of MAJ 0x00): each writes its result to rd and goes on. Immediate
operations (R245): ADDI, ANDI, ORI, XORI, SHI, MOVI and MOVK. -/
def Obligations.ComputeInstructions : Prop :=
  (∀ (s u : State) (t : Nat) (f : Fin 8) (rd ra rb : Reg), s.inv = true →
    (Fetched s t f (.add t rd ra rb) u → ∃ w, exec (.add t rd ra rb) s = .next w ∧
      Wrote u t rd (u.reg t ra + u.reg t rb) w) ∧
    (Fetched s t f (.sub t rd ra rb) u → ∃ w, exec (.sub t rd ra rb) s = .next w ∧
      Wrote u t rd (u.reg t ra - u.reg t rb) w) ∧
    (Fetched s t f (.andR t rd ra rb) u → ∃ w, exec (.andR t rd ra rb) s = .next w ∧
      Wrote u t rd (u.reg t ra &&& u.reg t rb) w) ∧
    (Fetched s t f (.orR t rd ra rb) u → ∃ w, exec (.orR t rd ra rb) s = .next w ∧
      Wrote u t rd (u.reg t ra ||| u.reg t rb) w) ∧
    (Fetched s t f (.xorR t rd ra rb) u → ∃ w, exec (.xorR t rd ra rb) s = .next w ∧
      Wrote u t rd (u.reg t ra ^^^ u.reg t rb) w) ∧
    (Fetched s t f (.shl t rd ra rb) u → ∃ w, exec (.shl t rd ra rb) s = .next w ∧
      Wrote u t rd (BitVec.ofNat 64 ((u.reg t ra).toNat * 2 ^ ((u.reg t rb).toNat % 64))) w) ∧
    (Fetched s t f (.shr t rd ra rb) u → ∃ w, exec (.shr t rd ra rb) s = .next w ∧
      Wrote u t rd (BitVec.ofNat 64 ((u.reg t ra).toNat / 2 ^ ((u.reg t rb).toNat % 64))) w) ∧
    (Fetched s t f (.sar t rd ra rb) u → ∃ w, exec (.sar t rd ra rb) s = .next w ∧
      Wrote u t rd (BitVec.ofInt 64 ((u.reg t ra).toInt / 2 ^ ((u.reg t rb).toNat % 64))) w) ∧
    (Fetched s t f (.mul t rd ra rb) u → ∃ w, exec (.mul t rd ra rb) s = .next w ∧
      Wrote u t rd (BitVec.ofNat 64 ((u.reg t ra).toNat * (u.reg t rb).toNat)) w) ∧
    (Fetched s t f (.mulhu t rd ra rb) u → ∃ w, exec (.mulhu t rd ra rb) s = .next w ∧
      Wrote u t rd (BitVec.ofNat 64 ((u.reg t ra).toNat * (u.reg t rb).toNat / 2 ^ 64)) w) ∧
    (Fetched s t f (.mulhs t rd ra rb) u → ∃ w, exec (.mulhs t rd ra rb) s = .next w ∧
      Wrote u t rd (BitVec.ofInt 64 ((u.reg t ra).toInt * (u.reg t rb).toInt / 2 ^ 64)) w) ∧
    (Fetched s t f (.minS t rd ra rb) u → ∃ w, exec (.minS t rd ra rb) s = .next w ∧
      Wrote u t rd (BitVec.ofInt 64 (min (u.reg t ra).toInt (u.reg t rb).toInt)) w) ∧
    (Fetched s t f (.minU t rd ra rb) u → ∃ w, exec (.minU t rd ra rb) s = .next w ∧
      Wrote u t rd (BitVec.ofNat 64 (min (u.reg t ra).toNat (u.reg t rb).toNat)) w) ∧
    (Fetched s t f (.maxS t rd ra rb) u → ∃ w, exec (.maxS t rd ra rb) s = .next w ∧
      Wrote u t rd (BitVec.ofInt 64 (max (u.reg t ra).toInt (u.reg t rb).toInt)) w) ∧
    (Fetched s t f (.maxU t rd ra rb) u → ∃ w, exec (.maxU t rd ra rb) s = .next w ∧
      Wrote u t rd (BitVec.ofNat 64 (max (u.reg t ra).toNat (u.reg t rb).toNat)) w)) ∧
  ∀ (s u : State) (t : Nat) (f : Fin 8) (rd ra : Reg) (imm : W16), s.inv = true →
    (Fetched s t f (.addi t rd ra imm) u → ∃ w, exec (.addi t rd ra imm) s = .next w ∧
      Wrote u t rd (BitVec.ofInt 64 ((u.reg t ra).toInt + imm.toInt)) w) ∧
    (Fetched s t f (.andi t rd ra imm) u → ∃ w, exec (.andi t rd ra imm) s = .next w ∧
      Wrote u t rd (u.reg t ra &&& BitVec.ofNat 64 imm.toNat) w) ∧
    (Fetched s t f (.ori t rd ra imm) u → ∃ w, exec (.ori t rd ra imm) s = .next w ∧
      Wrote u t rd (u.reg t ra ||| BitVec.ofNat 64 imm.toNat) w) ∧
    (Fetched s t f (.xori t rd ra imm) u → ∃ w, exec (.xori t rd ra imm) s = .next w ∧
      Wrote u t rd (u.reg t ra ^^^ BitVec.ofNat 64 imm.toNat) w) ∧
    (∀ n : BitVec 6,
      (Fetched s t f (.shi t rd ra .shl n) u → ∃ w, exec (.shi t rd ra .shl n) s = .next w ∧
        Wrote u t rd (BitVec.ofNat 64 ((u.reg t ra).toNat * 2 ^ n.toNat)) w) ∧
      (Fetched s t f (.shi t rd ra .shr n) u → ∃ w, exec (.shi t rd ra .shr n) s = .next w ∧
        Wrote u t rd (BitVec.ofNat 64 ((u.reg t ra).toNat / 2 ^ n.toNat)) w) ∧
      (Fetched s t f (.shi t rd ra .sar n) u → ∃ w, exec (.shi t rd ra .sar n) s = .next w ∧
        Wrote u t rd (BitVec.ofInt 64 ((u.reg t ra).toInt / 2 ^ n.toNat)) w)) ∧
    (Fetched s t f (.movi t rd imm) u → ∃ w, exec (.movi t rd imm) s = .next w ∧
      Wrote u t rd (BitVec.ofInt 64 imm.toInt) w) ∧
    (∀ hw : Fin 4, Fetched s t f (.movk t rd hw imm) u → ∃ w v, exec (.movk t rd hw imm) s = .next w ∧
      Wrote u t rd v w ∧
      ∀ i < 64, v.getLsbD i =
        if 16 * hw.val ≤ i ∧ i < 16 * hw.val + 16 then imm.getLsbD (i - 16 * hw.val) else (u.reg t rd).getLsbD i)

/-- The flags of CMP, CMPI and TST, and the branch that each condition of B.cond takes on them (R244); a word
whose condition is 0xF is an illegal instruction. -/
def Obligations.FlagsAndBranches : Prop :=
  ∀ (s u : State) (t : Nat) (f : Fin 8) (ra rb : Reg) (imm : W16) (off : BitVec 22), s.inv = true →
    let c := (u.tile t).core
    (Fetched s t f (.cmp t ra rb) u → ∃ w, exec (.cmp t ra rb) s = .next w ∧
      ∃ fl, IsDifference (u.reg t ra) (u.reg t rb) fl ∧ CoreIs u t { c.advance with flags := fl } w) ∧
    (Fetched s t f (.cmpi t ra imm) u → ∃ w, exec (.cmpi t ra imm) s = .next w ∧
      ∃ fl, IsDifference (u.reg t ra) (BitVec.ofInt 64 imm.toInt) fl ∧ CoreIs u t { c.advance with flags := fl } w) ∧
    (Fetched s t f (.tst t ra rb) u → ∃ w, exec (.tst t ra rb) s = .next w ∧
      CoreIs u t { c.advance with
        flags := { z := decide (u.reg t ra &&& u.reg t rb = 0), n := (u.reg t ra &&& u.reg t rb).getLsbD 63
                   c := false, v := false } } w) ∧
    (∀ b : Fin 15, Fetched s t f (.bCond t b off) u → ∃ w, exec (.bCond t b off) s = .next w ∧
      CoreIs u t (if branchTaken c.flags b.val then c.goTo (BitVec.ofInt 64 (c.pc.toNat + 4 * off.toInt))
        else c.advance) w) ∧
    (∀ word : W32, word.toNat / 2 ^ 26 = 0x20 → word.toNat / 2 ^ 22 % 16 = 0xF → FetchedWord s t f word.toNat u →
      ∃ w, exec (.illegalInstruction t word) s = .next w ∧
        (w.tile t).trap.entry.isSome ∧ (c.handler = false → (w.tile t).trap.entry.map (·.cause) = some 1))

/-- Jumps (R242, R245, R247, R248): J, JAL and JALR. The target is the 64-bit sum or register; one at most
0x3EFC that is a multiple of 4 becomes the PC, and any other is kept for the address trap of the next fetch.
-/
def Obligations.JumpsAndLinks : Prop :=
  ∀ (s u : State) (t : Nat) (f : Fin 8) (rd ra : Reg) (off : BitVec 26), s.inv = true →
    let c := (u.tile t).core
    let link := BitVec.ofNat 64 (c.pc.toNat + 4)
    (Fetched s t f (.jump t off) u → ∃ w, exec (.jump t off) s = .next w ∧
      CoreIs u t (c.goTo (BitVec.ofInt 64 (c.pc.toNat + 4 * off.toInt))) w) ∧
    (Fetched s t f (.jal t off) u → ∃ w, exec (.jal t off) s = .next w ∧
      CoreIs u t { c.goTo (BitVec.ofInt 64 (c.pc.toNat + 4 * off.toInt)) with g := c.g.set 31 link } w) ∧
    (Fetched s t f (.jalr t rd ra) u → ∃ w, exec (.jalr t rd ra) s = .next w ∧ OnlyCore u w t ∧
      (w.tile t).core = { c.goTo (u.reg t ra) with g := (w.tile t).core.g } ∧
      w.reg t rd = (if rd = 0 then 0 else link) ∧ ∀ q, q ≠ rd → w.reg t q = u.reg t q) ∧
    c.advance = c.goTo link ∧
    ∀ a : W64, { c.goTo a with pc := c.pc, stray := c.stray } = c ∧
      (a.toNat ≤ 0x3EFC → a.toNat % 4 = 0 → (c.goTo a).pc.toNat = a.toNat ∧ (c.goTo a).stray = none) ∧
      (0x3EFC < a.toNat ∨ a.toNat % 4 ≠ 0 → (c.goTo a).stray = some a)

/-- Loads (R245, R247): LDB, LDBU, LDH, LDHU, LDW, LDWU and LDD of an address that meets the tests of R247.
Stores (R245, R247): STB, STH, STW and STD write the low 1, 2, 4 or 8 bytes of rs at the address and change no
other byte of memory. -/
def Obligations.LoadAndStoreResults : Prop :=
  (∀ (s u v : State) (t : Nat) (f : Fin 8) (rd ra : Reg) (imm : W16) (d : List Byte),
    s.inv = true →
    let a := (BitVec.ofInt 64 ((u.reg t ra).toInt + imm.toInt)).toNat
    (CoreReads u t a 1 v d →
      (Fetched s t f (.ldb t rd ra imm) u → ∃ w, exec (.ldb t rd ra imm) s = .next w ∧
        Wrote v t rd ((BitVec.ofNat 8 (leNat d)).signExtend 64) w) ∧
      Fetched s t f (.ldbu t rd ra imm) u → ∃ w, exec (.ldbu t rd ra imm) s = .next w ∧
        Wrote v t rd (BitVec.ofNat 64 (leNat d)) w) ∧
    (CoreReads u t a 2 v d →
      (Fetched s t f (.ldh t rd ra imm) u → ∃ w, exec (.ldh t rd ra imm) s = .next w ∧
        Wrote v t rd ((BitVec.ofNat 16 (leNat d)).signExtend 64) w) ∧
      Fetched s t f (.ldhu t rd ra imm) u → ∃ w, exec (.ldhu t rd ra imm) s = .next w ∧
        Wrote v t rd (BitVec.ofNat 64 (leNat d)) w) ∧
    (CoreReads u t a 4 v d →
      (Fetched s t f (.ldw t rd ra imm) u → ∃ w, exec (.ldw t rd ra imm) s = .next w ∧
        Wrote v t rd ((BitVec.ofNat 32 (leNat d)).signExtend 64) w) ∧
      Fetched s t f (.ldwu t rd ra imm) u → ∃ w, exec (.ldwu t rd ra imm) s = .next w ∧
        Wrote v t rd (BitVec.ofNat 64 (leNat d)) w) ∧
    (CoreReads u t a 8 v d →
      Fetched s t f (.ldd t rd ra imm) u → ∃ w, exec (.ldd t rd ra imm) s = .next w ∧
        Wrote v t rd (BitVec.ofNat 64 (leNat d)) w)) ∧
  ∀ (s u : State) (t : Nat) (f : Fin 8) (rs ra : Reg) (imm : W16), s.inv = true →
    let a := (BitVec.ofInt 64 ((u.reg t ra).toInt + imm.toInt)).toNat
    (CoreWrites u t a 1 → Fetched s t f (.stb t rs ra imm) u → ∃ w, exec (.stb t rs ra imm) s = .next w ∧
        Stored u t a 1 (u.reg t rs) w) ∧
    (CoreWrites u t a 2 → Fetched s t f (.sth t rs ra imm) u → ∃ w, exec (.sth t rs ra imm) s = .next w ∧
        Stored u t a 2 (u.reg t rs) w) ∧
    (CoreWrites u t a 4 → Fetched s t f (.stw t rs ra imm) u → ∃ w, exec (.stw t rs ra imm) s = .next w ∧
        Stored u t a 4 (u.reg t rs) w) ∧
    (CoreWrites u t a 8 → Fetched s t f (.std t rs ra imm) u → ∃ w, exec (.std t rs ra imm) s = .next w ∧
        Stored u t a 8 (u.reg t rs) w)

/-- The checks of loads, stores and fetches (R247): an address out of range, or no multiple of the access
size, takes the address trap; one outside the windows of the active context is counted and takes the window
trap; a double-bit error takes the scratch-error trap; nothing is written outside the save area, which loads
and stores reach as any other place. A fetch is of the aligned pair of words at the PC, unless the core holds
that pair (R246), and its trap is the same whatever instruction was to run. -/
def Obligations.AccessChecks : Prop :=
  ∀ (s u : State) (t : Nat) (f : Fin 8) (r ra : Reg) (imm : W16), s.inv = true →
    ((u.tile t).core.handler = false →
      let a := (BitVec.ofInt 64 ((u.reg t ra).toInt + imm.toInt)).toNat
      let checked := fun (c : Instr) (n : Nat) (write : Bool) =>
        (0x3FFF < a ∨ a % n ≠ 0 → ∃ w, exec c s = .next w ∧ Trapped u t 2 a w) ∧
        (a ≤ 0x3FFF → a % n = 0 → (u.tile t).decl.allows (u.tile t).active write 1 (a / 256) = false →
          ∃ w, exec c s = .next w ∧ Trapped u t 4 a w ∧
            (w.tile t).cnt.winRefusals = satAdd 32 (u.tile t).cnt.winRefusals 1)
      (∀ c n, (c, n) ∈ [(Instr.ldb t r ra imm, 1), (.ldbu t r ra imm, 1), (.ldh t r ra imm, 2), (.ldhu t r ra imm, 2),
          (.ldw t r ra imm, 4), (.ldwu t r ra imm, 4), (.ldd t r ra imm, 8)] → Fetched s t f c u → checked c n false ∧
        ∀ o d v, a ≤ 0x3FFF → a % n = 0 → (u.tile t).decl.allows (u.tile t).active false 1 (a / 256) = true →
          u.readScratch t a n = (d, some o, v) → ∃ w, exec c s = .next w ∧ Trapped v t 3 o w) ∧
      (∀ c n, (c, n) ∈ [(Instr.stb t r ra imm, 1), (.sth t r ra imm, 2), (.stw t r ra imm, 4), (.std t r ra imm, 8)] →
        Fetched s t f c u → checked c n true) ∧
      (0x3F00 ≤ a → a ≤ 0x3FFF → (u.tile t).decl.allows (u.tile t).active true 1 (a / 256) = true →
        Fetched s t f (.stb t r ra imm) u →
        ∃ w, exec (.stb t r ra imm) s = .next w ∧ Stored u t a 1 (u.reg t r) w)) ∧
    (t < s.tileCount → s.coreReady t = some f → (s.tile t).core.handler = false →
      let x := s.tile t
      let a := x.core.pc.toNat / 8 * 8
      ∀ c, c ∈ [Instr.add t r ra ra, .addi t r ra imm, .shi t r ra .shl 0, .cmp t r ra, .tst t r ra, .cmpi t r imm,
          .movi t r imm, .movk t r 0 imm, .ldd t r ra imm, .ldb t r ra imm, .std t r ra imm, .stb t r ra imm,
          .bCond t 0 0, .jump t 0, .jal t 0, .jalr t r ra, .waitk t 0 imm, .sync t 0 false false false,
          .send t r ra 0, .sendn t r r ra 0, .recv t r 0, .recvn t r ra 0, .tsr t r 0, .tsww t r 0, .rdk t r 0,
          .setk t r 0, .rstep t r, .trap t 0, .rte t, .endProgram t, .issueFwd t ra imm, .issueBwd t ra imm,
          .issueXch t ra imm, .rowMap t ra imm, .dmaMove t ra imm, .illegalInstruction t 0] →
        (∀ p, x.core.stray = some p → ∃ w, exec c s = .next w ∧ Trapped s t 2 p.toNat w) ∧
        (x.core.stray = none → x.heldPair = none →
          (x.decl.allows x.active false 1 (a / 256) = false → ∃ w, exec c s = .next w ∧
            Trapped s t 4 x.core.pc.toNat w ∧ (w.tile t).cnt.winRefusals = satAdd 32 x.cnt.winRefusals 1) ∧
          ∀ o d v, x.decl.allows x.active false 1 (a / 256) = true → s.readScratch t a 8 = (d, some o, v) →
            ∃ w, exec c s = .next w ∧ Trapped v t 3 o w))

/-- The counter, status-word and step instructions (R241, R245, R251): RDK, SETK, TSR, RSTEP, TSWW of a
software word, and WAITK, which takes n from the counter once it holds n and otherwise waits. TSWW clears an
R/C word and is an illegal instruction on a word the core may only read (R104, R251). -/
def Obligations.CountersAndStatusWords : Prop :=
  (∀ (s u : State) (t : Nat) (f : Fin 8) (rd ra : Reg) (k : Fin 8) (n : W16), s.inv = true →
    let c := (u.tile t).core
    (Fetched s t f (.rdk t rd k) u →
      ∃ w, exec (.rdk t rd k) s = .next w ∧ Wrote u t rd (BitVec.ofNat 64 (c.k[k.val]).toNat) w) ∧
    (Fetched s t f (.setk t ra k) u → ∃ w, exec (.setk t ra k) s = .next w ∧
      CoreIs u t { c.advance with k := c.k.set k.val (BitVec.ofNat 32 (u.reg t ra).toNat) } w) ∧
    (∀ ix : Fin 64, Fetched s t f (.tsr t rd ix) u → ∃ w, exec (.tsr t rd ix) s = .next w ∧
      Wrote u t rd (BitVec.ofNat 64 (u.statusWord t ix.val)) w) ∧
    (Fetched s t f (.rstep t rd) u →
      ∃ w, exec (.rstep t rd) s = .next w ∧ Wrote u t rd (BitVec.ofNat 64 (u.frame f).step) w) ∧
    (∀ i : Fin 8, Fetched s t f (.tsww t ra ⟨56 + i.val, by omega⟩) u →
      ∃ w, exec (.tsww t ra ⟨56 + i.val, by omega⟩) s = .next w ∧
        CoreIs u t { c.advance with sw := c.sw.set i.val (u.reg t ra) } w) ∧
    (Fetched s t f (.waitk t k n) u →
      (n.toNat ≤ (c.k[k.val]).toNat → ∃ w, exec (.waitk t k n) s = .next w ∧
        CoreIs u t { c.advance with k := c.k.set k.val (c.k[k.val] - BitVec.ofNat 32 n.toNat) } w) ∧
      ((c.k[k.val]).toNat < n.toNat → ∃ w, exec (.waitk t k n) s = .next w ∧ OnlyTile u w t ∧
        w.tile t = { u.tile t with wait := .waitk k.val n.toNat, waitFrom := (u.frame f).cycles }))) ∧
  ∀ (s u : State) (t : Nat) (f : Fin 8) (ra : Reg) (ix : Fin 64), s.inv = true → Fetched s t f (.tsww t ra ix) u →
    ((ix.val = 12 ∨ ix.val = 14 ∨ ix.val = 15 ∨ ix.val = 28) →
      ∃ w, exec (.tsww t ra ix) s = .next w ∧ OnlyTile u w t ∧ w.statusWord t ix.val = 0 ∧
        (w.tile t).core = (u.tile t).core.advance) ∧
    (ix.val < 56 → ix.val ≠ 12 → ix.val ≠ 14 → ix.val ≠ 15 → ix.val ≠ 28 → (u.tile t).core.handler = false →
      ∃ w, exec (.tsww t ra ix) s = .next w ∧ Trapped u t 1 0 w)

/-- SYNC (R108, R113, R212, R253): the tile arrives with its kind and flags and waits; the first core to
arrive starts the sync's watchdog; at an exit sync a tile whose table still runs has not arrived, and its scan
bit is not yet taken. A SYNC that R253 or R397 forbids is an illegal instruction. -/
def Obligations.SyncArrival : Prop :=
  ∀ (s u : State) (t : Nat) (f : Fin 8) (kind : Fin 4) (step scan switch : Bool), s.inv = true →
    Fetched s t f (.sync t kind step scan switch) u →
    (SyncLegal (u.tile t) kind step scan switch → ∃ w, exec (.sync t kind step scan switch) s = .next w ∧
      (w.tile t).wait = .sync ∧ (w.tile t).xch.kind = kind.val ∧ (w.tile t).core = (u.tile t).core.advance ∧
      (∀ j, j ≠ t → w.tile j = u.tile j) ∧ w.mem = u.mem ∧ w.od = u.od ∧ (∀ g, g ≠ f → w.frame g = u.frame g) ∧
      (2 ≤ (u.tile t).xch.phase → (u.tile t).xch.running ≠ none →
        (w.tile t).arrival = some ⟨kind.val, step, scan, switch, (u.frame f).cycles, false⟩ ∧
        (w.tile t).watch = (u.tile t).watch ∧ w.frame f = u.frame f) ∧
      ((u.tile t).xch.phase < 2 ∨ (u.tile t).xch.running = none →
        (w.tile t).arrival =
          some ⟨kind.val, step, scan, switch, (u.frame f).cycles, scan && (u.tile t).watch.scanBit⟩ ∧
        (w.tile t).watch.scanBit = (!scan && (u.tile t).watch.scanBit) ∧
        ((u.frame f).firstArrival ≠ none → w.frame f = u.frame f) ∧
        ((u.frame f).firstArrival = none →
          w.frame f = { u.frame f with
            firstArrival := some (u.frame f).cycles
            watchdog := u.odGet 0x2302 (f.val + 1) 0x40000000 }))) ∧
    (¬ SyncLegal (u.tile t) kind step scan switch → (u.tile t).core.handler = false →
      ∃ w, exec (.sync t kind step scan switch) s = .next w ∧ Trapped u t 1 0 w)

/-- SEND and SENDN (R230, R248, R252): a tuple of registers ra to ra + NQ to a tile of the frame or to its
supervisor queue enters the tile's input of the message mesh where there is room; a destination R252 does not
allow is refused at the source; without room SENDN reports 0 and SEND waits; registers beyond g31 make an
illegal instruction. RECV and RECVN (R226, R248, R252): the head word of the queue goes to rd and leaves the
queue; on an empty queue RECVN writes 0 to ra and RECV waits; RECVN with one register named twice is an
illegal instruction. -/
def Obligations.SendsAndReceives : Prop :=
  (∀ (s u : State) (t : Nat) (f : Fin 8) (rd ra rb : Reg) (nq : Fin 4), s.inv = true →
    let d := sendDest (u.reg t rb)
    (ra.val + nq.val ≤ 31 →
      (u.sendAllowed f d = true → u.injectRoom t d.cls (nq.val + 2) = true →
        ∃ p : Packet, p.data.length = nq.val + 1 ∧ p.marked = false ∧
          (∀ (i : Nat) (h : i < 32), ra.val ≤ i → i ≤ ra.val + nq.val →
            p.data[i - ra.val]? = some (u.reg t ⟨i, h⟩)) ∧
          p.header = packHeader { kind := d.kind, row := d.row, col := d.col, queue := d.queue, cls := d.cls, op := 0
                                  len := nq.val + 1, srow := u.tileRow t, scol := u.tileCol t, frame := f.val } ∧
          (Fetched s t f (.sendn t rd ra rb nq) u →
            ∃ w, exec (.sendn t rd ra rb nq) s = .next w ∧ Wrote (u.inject t p) t rd 1 w) ∧
          (Fetched s t f (.send t ra rb nq) u → ∃ w, exec (.send t ra rb nq) s = .next w ∧
            CoreIs (u.inject t p) t (u.tile t).core.advance w)) ∧
      (u.sendAllowed f d = false →
        (Fetched s t f (.sendn t rd ra rb nq) u →
          ∃ w, exec (.sendn t rd ra rb nq) s = .next w ∧ Wrote (u.refuseAtSource t d) t rd 2 w) ∧
        (Fetched s t f (.send t ra rb nq) u → ∃ w, exec (.send t ra rb nq) s = .next w ∧
          CoreIs (u.refuseAtSource t d) t (u.tile t).core.advance w)) ∧
      (u.sendAllowed f d = true → u.injectRoom t d.cls (nq.val + 2) = false →
        (Fetched s t f (.sendn t rd ra rb nq) u →
          ∃ w, exec (.sendn t rd ra rb nq) s = .next w ∧ Wrote u t rd 0 w) ∧
        (Fetched s t f (.send t ra rb nq) u → ∃ w, exec (.send t ra rb nq) s = .next w ∧ OnlyTile u w t ∧
          w.tile t = { u.tile t with wait := .send ra.val rb.val nq.val, waitFrom := (u.frame f).cycles }))) ∧
    (31 < ra.val + nq.val → (u.tile t).core.handler = false →
      (Fetched s t f (.sendn t rd ra rb nq) u →
        ∃ w, exec (.sendn t rd ra rb nq) s = .next w ∧ Trapped u t 1 0 w) ∧
      (Fetched s t f (.send t ra rb nq) u → ∃ w, exec (.send t ra rb nq) s = .next w ∧ Trapped u t 1 0 w))) ∧
  ∀ (s u : State) (t : Nat) (f : Fin 8) (rd ra : Reg) (q : Fin 4), s.inv = true →
    (∀ (p : Tuple) (x : W64) (xs : List W64) (rest : List Tuple),
      ((u.tile t).queues[q.val]).tuples = p :: rest → p.words = x :: xs →
      let left := if xs = [] then rest else { p with words := xs } :: rest
      (Fetched s t f (.recv t rd q) u → ∃ w, exec (.recv t rd q) s = .next w ∧
        ((w.tile t).queues[q.val]).tuples = left ∧
        w.reg t rd = (if rd = 0 then 0 else x) ∧ (∀ r, r ≠ rd → w.reg t r = u.reg t r) ∧
        (w.tile t).core.pc = (u.tile t).core.advance.pc ∧ OnlyTile u w t) ∧
      (rd ≠ ra → Fetched s t f (.recvn t rd ra q) u → ∃ w, exec (.recvn t rd ra q) s = .next w ∧
        ((w.tile t).queues[q.val]).tuples = left ∧
        w.reg t rd = (if rd = 0 then 0 else x) ∧ w.reg t ra = (if ra = 0 then 0 else 1) ∧
        (∀ r, r ≠ rd → r ≠ ra → w.reg t r = u.reg t r) ∧
        (w.tile t).core.pc = (u.tile t).core.advance.pc ∧ OnlyTile u w t)) ∧
    (((u.tile t).queues[q.val]).tuples = [] →
      (rd ≠ ra → Fetched s t f (.recvn t rd ra q) u →
        ∃ w, exec (.recvn t rd ra q) s = .next w ∧ Wrote u t ra 0 w) ∧
      (Fetched s t f (.recv t rd q) u → ∃ w, exec (.recv t rd q) s = .next w ∧ OnlyTile u w t ∧
        w.tile t = { u.tile t with wait := .recv q.val rd.val, waitFrom := (u.frame f).cycles })) ∧
    ((u.tile t).core.handler = false → Fetched s t f (.recvn t rd rd q) u →
      ∃ w, exec (.recvn t rd rd q) s = .next w ∧ Trapped u t 1 0 w)

/-- Taking a trap (R264, R265, R268): TRAP enters with cause 0x07 and its IX, a word that is no instruction
with cause 0x01, and the save area holds what R265 lists, the word fetched among it. The end of a trap's entry
and the return from a handler (R265–R267): a software trap with a vector sets the handler flag and jumps to
the vector; in the main and evaluation contexts every other trap faults the frame; in the guest context the
tile's guest halts and the frame's guest image is faulted. RTE restores the flags, clears the handler flag and
goes on at the saved PC + 4; outside a handler it is an illegal instruction. -/
def Obligations.TrapEntryAndReturn : Prop :=
  (∀ (s u : State) (t : Nat) (f : Fin 8) (ix : Fin 64) (word : W32), s.inv = true →
    FetchedWord s t f word.toNat u → (u.tile t).core.handler = false →
    (coreInstr t word.toNat = some (.trap t ix) → ∃ w, exec (.trap t ix) s = .next w ∧ Trapped u t 7 ix.val w ∧
      SaveArea w t ((u.tile t).saveArea (u.tile t).active) (u.tile t).core (u.tile t).active word.toNat ix.val
        (u.frame f).cycles (u.frame f).step) ∧
    (coreInstr t word.toNat = none → ∃ w, exec (.illegalInstruction t word) s = .next w ∧ Trapped u t 1 0 w ∧
      SaveArea w t ((u.tile t).saveArea (u.tile t).active) (u.tile t).core (u.tile t).active word.toNat 0
        (u.frame f).cycles (u.frame f).step)) ∧
  ∀ (s : State) (t : Nat) (f : Fin 8), s.inv = true →
    (∀ q, TileRuns s t f → (s.tile t).trap.entry = some q →
      (∀ v, (s.tile t).active ≠ 2 → (s.tile t).core.vector = some v → q.cause = 7 → (s.tile t).trap.held = [] →
        ∃ w, exec (.trapEntryComplete t) s = .next w ∧ OnlyTile s w t ∧ (w.tile t).trap.entry = none ∧
          (w.tile t).core = { (s.tile t).core.goTo (BitVec.ofNat 64 v) with
            handler := true, handlerIx := q.ix }) ∧
      ((s.tile t).active ≠ 2 → ((s.tile t).core.vector = none ∨ q.cause ≠ 7) →
        ∃ w, exec (.trapEntryComplete t) s = .next w ∧ (w.frame f).st = .faulted ∧
          (∀ g, g ≠ f → w.frame g = s.frame g) ∧
          ((s.frame f).causeHeld = false → w.odGet (frameIndex f) 0x0C 0 = 0x0009)) ∧
      ((s.tile t).active = 2 → ∃ w, exec (.trapEntryComplete t) s = .next w ∧ (w.tile t).guestHalted = true ∧
        (w.tile t).trap.entry = none ∧ (w.frame f).guestFaulted = true ∧ (w.frame f).st = (s.frame f).st ∧
        ∀ j, j ≠ t → w.tile j = s.tile j)) ∧
    ∀ u : State, Fetched s t f (.rte t) u →
      (∀ (v x : State) (pc fl : List Byte), (u.tile t).core.handler = true →
        u.readScratch t ((u.tile t).saveArea (u.tile t).active + 0x08) 8 = (⟨pc, false⟩, none, v) →
        v.readScratch t ((u.tile t).saveArea (u.tile t).active + 0x20) 8 = (⟨fl, false⟩, none, x) →
        ∃ w, exec (.rte t) s = .next w ∧
          CoreIs x t { (u.tile t).core.goTo (BitVec.ofNat 64 (leNat pc) + 4) with
            flags := ⟨(leNat fl).testBit 0, (leNat fl).testBit 1, (leNat fl).testBit 2, (leNat fl).testBit 3⟩
            handler := false } w) ∧
      ((u.tile t).core.handler = false → ∃ w, exec (.rte t) s = .next w ∧ Trapped u t 1 0 w)

/-- END (R34, R128, R227, R254): with every engine idle, no table running and every staged read placed, the
program ends: a staged write whose words are not all pushed faults the frame, and otherwise the tile's queues
close, the core issues nothing more and of other tiles no more than the credits of the message mesh change;
when every tile of the frame has ended the frame is STOPPED. Until then END waits. -/
def Obligations.EndOfProgram : Prop :=
  ∀ (s u : State) (t : Nat) (f : Fin 8), s.inv = true → Fetched s t f (.endProgram t) u →
    (((u.tile t).fwd.running = none ∧ (u.tile t).bwd.running = none ∧ (u.tile t).row.running = none ∧
        (u.tile t).dma.running = none ∧ (u.tile t).xch.running = none ∧ (u.tile t).edge.reads = []) →
      ((u.tile t).edge.room = 0 → ∃ w, exec (.endProgram t) s = .next w ∧ (w.tile t).core.ended = true ∧
        (w.tile t).core.pc = (u.tile t).core.pc ∧
        (∀ q : Fin 4, ((w.tile t).queues[q.val]).isOpen = false ∧ ((w.tile t).queues[q.val]).tuples = []) ∧
        (w.tile t).xch.next = none ∧ (∀ j, j ≠ t → w.tile j = { u.tile j with net := (w.tile j).net }) ∧
        (∀ g, g ≠ f → w.frame g = u.frame g) ∧
        ((∀ j ∈ u.frameTiles f, (w.tile j).hasEnded = true) → (w.frame f).st = .stopped ∧
          (w.frame f).endedAll = true) ∧
        ((∃ j ∈ u.frameTiles f, (w.tile j).hasEnded = false) → w.frame f = u.frame f)) ∧
      (0 < (u.tile t).edge.room → ∃ w, exec (.endProgram t) s = .next w ∧ (w.frame f).st = .faulted ∧
        ((u.frame f).causeHeld = false → w.odGet (frameIndex f) 0x0C 0 = 0x0005))) ∧
    (((u.tile t).fwd.running ≠ none ∨ (u.tile t).bwd.running ≠ none ∨ (u.tile t).row.running ≠ none ∨
        (u.tile t).dma.running ≠ none ∨ (u.tile t).xch.running ≠ none ∨ (u.tile t).edge.reads ≠ []) →
      ∃ w, exec (.endProgram t) s = .next w ∧ OnlyTile u w t ∧
        w.tile t = { u.tile t with wait := .ended, waitFrom := (u.frame f).cycles })

/-- ISSUE to the row engine (R176, R177, R179, R249): a descriptor that passes the row engine's checks enters
its running or waiting place; everything but the tile is unchanged. One clause per operation of R179: the word
of the instruction names the engine only, and is read as ROW_MAP; the operation stands in the descriptor.
ISSUE to the forward, backward, DMA and exchange engines (R126, R176, R177, R249, R250, R257, R261, R262): an
accepted descriptor enters the engine; a staged request joins the tile's posted requests; an accepted laid
table becomes the next table of the exchange engine. On every engine a descriptor that fails a check takes the
issue-refused trap, counted in OD 0x2501.06, and one whose engine has no place free makes the core wait. -/
def Obligations.EngineIssues : Prop :=
  (∀ (s v : State) (t : Nat) (f : Fin 8) (ra : Reg) (imm : W16) (a : Nat) (d : List Byte), s.inv = true →
    DescriptorRead s t f (.rowMap t ra imm) ra imm a v d → PlaceFree v t 3 → checkRow d = 0 →
    let op := (header (s.mem.read (scratchAddr t a) 64)).op
    let taken := fun w => HandedOver v w t f 3 a d ∧ OnlyTile v w t
    (op = 0x01 → ∃ w, exec (.rowMap t ra imm) s = .next w ∧ taken w) ∧
    (op = 0x02 → ∃ w, exec (.rowBinary t ra imm) s = .next w ∧ taken w) ∧
    (op = 0x03 → ∃ w, exec (.rowConvert t ra imm) s = .next w ∧ taken w) ∧
    (op = 0x04 → ∃ w, exec (.rowReduce t ra imm) s = .next w ∧ taken w) ∧
    (op = 0x05 → ∃ w, exec (.normFwd t ra imm) s = .next w ∧ taken w) ∧
    (op = 0x06 → ∃ w, exec (.normBwd t ra imm) s = .next w ∧ taken w) ∧
    (op = 0x07 → ∃ w, exec (.softmaxFwd t ra imm) s = .next w ∧ taken w) ∧
    (op = 0x08 → ∃ w, exec (.softmaxBwd t ra imm) s = .next w ∧ taken w) ∧
    (op = 0x09 → ∃ w, exec (.attnProb t ra imm) s = .next w ∧ taken w) ∧
    (op = 0x0A → ∃ w, exec (.attnDs t ra imm) s = .next w ∧ taken w) ∧
    (op = 0x0B → ∃ w, exec (.actBwd t ra imm) s = .next w ∧ taken w) ∧
    (op = 0x0C → ∃ w, exec (.dropout t ra imm) s = .next w ∧ taken w)) ∧
  ∀ (s v : State) (t : Nat) (f : Fin 8) (ra : Reg) (imm : W16) (a : Nat) (d : List Byte), s.inv = true →
    let op := (header (s.mem.read (scratchAddr t a) 64)).op
    let goes := fun w : State => (w.tile t).core = (v.tile t).core.advance
    (DescriptorRead s t f (.issueFwd t ra imm) ra imm a v d → PlaceFree v t 1 → checkFwd d = 0 →
      ∃ w, exec (.issueFwd t ra imm) s = .next w ∧ HandedOver v w t f 1 a d) ∧
    (DescriptorRead s t f (.issueBwd t ra imm) ra imm a v d → PlaceFree v t 2 → checkBwd d = 0 →
      ∃ w, exec (.issueBwd t ra imm) s = .next w ∧ HandedOver v w t f 2 a d ∧ (w.tile t).watch.job = none) ∧
    (DescriptorRead s t f (.dmaMove t ra imm) ra imm a v d → v.checkDma t f d = 0 →
      (PlaceFree v t 4 →
        (dmaOp d = 1 → op = 1 → ∃ w, exec (.dmaMove t ra imm) s = .next w ∧ goes w ∧ DmaHolds v w t f a d) ∧
        (dmaOp d = 2 → op = 2 → ∃ w, exec (.dmaTranspose t ra imm) s = .next w ∧ goes w ∧ DmaHolds v w t f a d) ∧
        (dmaOp d = 5 → op = 5 → ∃ w, exec (.dmaLinkWrite t ra imm) s = .next w ∧ goes w ∧ DmaHolds v w t f a d) ∧
        (dmaOp d = 6 → op = 6 → ∃ w, exec (.dmaZero t ra imm) s = .next w ∧ goes w ∧ DmaHolds v w t f a d)) ∧
      (dmaOp d = 3 → op = 3 → (v.tile t).edge.posted + dmaLen d / 64 ≤ 64 →
        ∃ w, exec (.dmaStagedRead t ra imm) s = .next w ∧ goes w ∧ OnlyTile v w t ∧
          (w.tile t).edge = { (v.tile t).edge with reads := (v.tile t).edge.reads ++
            [{ write := false, addr := dmaSrc d, words := dmaLen d / 64, kc := bits (slot d 0) 16 3
               context := (v.tile t).active, desc := a }] }) ∧
      (dmaOp d = 4 → op = 4 →
        ∃ w, exec (.dmaStagedWrite t ra imm) s = .next w ∧ goes w ∧ OnlyTile v w t ∧
          (w.tile t).edge = { (v.tile t).edge with writes := (v.tile t).edge.writes ++
            [{ write := true, addr := dmaDst d, words := dmaLen d / 64, kc := bits (slot d 0) 16 3
               context := (v.tile t).active, desc := a }] })) ∧
    (DescriptorRead s t f (.issueXch t ra imm) ra imm a v d → (v.tile t).checkXch d = 0 →
      ∃ w l, exec (.issueXch t ra imm) s = .next w ∧ goes w ∧
        (w.tile t).xch.next = some l ∧ l.row = xchRow d ∧ l.entries = xchEntries d ∧
        l.kc = bits (slot d 0) 16 3 ∧ l.context = (v.tile t).active) ∧
    ∀ c e, (c, e) ∈ [(Instr.issueFwd t ra imm, 1), (.issueBwd t ra imm, 2), (.rowMap t ra imm, 3), (.dmaMove t ra imm,
      4),
        (.issueXch t ra imm, 5)] → (e = 3 ∨ e = 4 → op = 1) →
      (∀ code, DescriptorRead s t f c ra imm a v d → (e ≤ 4 → PlaceFree v t e) → v.checkIssue t f e d = code →
        code ≠ 0 →
        (v.tile t).core.handler = false → ∃ w, exec c s = .next w ∧ Trapped v t 5 a w ∧
          w.odGet 0x2501 0x06 0 = satAdd 32 (v.odGet 0x2501 0x06 0) 1 ∧
          (if (v.tile t).active = 2 then (w.tile t).trap.guest else (w.tile t).trap.main).refusal = code) ∧
      ∀ u, Fetched s t f c u → a = (BitVec.ofInt 64 ((u.reg t ra).toInt + imm.toInt)).toNat → a % 64 = 0 → a ≤ 0x3EC0 →
        e ≤ 4 → ¬ PlaceFree u t e →
        ∃ w n, exec c s = .next w ∧ OnlyTile u w t ∧
          w.tile t = { u.tile t with wait := .issue e a n, waitFrom := (u.frame f).cycles }

/-- The end of an array engine's or a DMA operation (R93, R94, R98, R177, R241, R257): its place goes to the
operation that waits, its completion counter rises in the context it was issued in, what the ports made of it
is counted, and no other tile, no frame and no queue of the tile changes; then whatever the tile's core waits
for is tried again. Staged words (R126, R128, R129): a word of the oldest staged read joins the inbound queue
and its last word signals the read's counter; a word of the outbound queue is written to its block for the
staged write that is open; a staged write whose last word has been written signals its counter. A word whose
pseudo-channel retires waits (R302), and one of an address that R257 makes a bus error is read as all ones and
not written. -/
def Obligations.EngineCompletion : Prop :=
  (∀ (s : State) (t : Nat) (f : Fin 8) (op : EngOp) (use : PortUse), s.inv = true → TileRuns s t f →
    (∀ e : ArrayEngine, ((s.tile t).engine (arrayEngineCode e)).running = some op →
      ∃ v, exec (.engineOperationComplete t e use) s = .next (v.wake t) ∧
        ((v.tile t).engine (arrayEngineCode e)).running = ((s.tile t).engine (arrayEngineCode e)).waiting ∧
        ((v.tile t).engine (arrayEngineCode e)).waiting = none ∧
        Signalled s v t op.context (bits (slot op.desc 0) 16 3) ∧ (v.tile t).queues = (s.tile t).queues ∧
        (v.tile t).cnt.portWaits = satAdd 32 (s.tile t).cnt.portWaits use.waits ∧
        v.frames = s.frames ∧ ∀ j, j ≠ t → v.tile j = s.tile j) ∧
    ((s.tile t).dma.running = some op → (dmaRemote op.desc = true → dmaRows op.desc ≤ op.completed) →
      ∃ v, exec (.dmaComplete t use) s = .next ((v.pumpDma t f).wake t) ∧
        (v.tile t).dma.running = (s.tile t).dma.waiting ∧ (v.tile t).dma.waiting = none ∧
        Signalled s v t op.context (bits (slot op.desc 0) 16 3) ∧ (v.tile t).queues = (s.tile t).queues ∧
        (v.tile t).cnt.portWaits = satAdd 32 (s.tile t).cnt.portWaits use.waits ∧
        v.frames = s.frames ∧ ∀ j, j ≠ t → v.tile j = s.tile j)) ∧
  ∀ (s : State) (t : Nat) (f : Fin 8) (r : Staged) (rest : List Staged), s.inv = true → TileRuns s t f →
    ((s.tile t).edge.reads = r :: rest → (s.stagedCheck f r = none → s.placeRetiring r.at = false) →
      ∃ v b, exec (.stagedReadWordArrival t) s = .next (v.wake t) ∧
        (v.tile t).edge.inbound = (s.tile t).edge.inbound ++ [b] ∧
        (s.stagedCheck f r = none → errsIn s.errs r.at 64 = [] → b = s.blockBytes r.at) ∧
        (s.stagedCheck f r ≠ none → b = List.replicate 64 0xFF) ∧
        (r.done + 1 = r.words → (v.tile t).edge.reads = rest ∧ Signalled s v t r.context r.kc) ∧
        (r.done + 1 ≠ r.words → ∃ r', (v.tile t).edge.reads = r' :: rest ∧ r'.done = r.done + 1)) ∧
    (∀ (b : List Byte) (left : List (List Byte)), (s.tile t).edge.outbound = b :: left →
      (s.tile t).edge.writes.find? (fun x => decide (x.done < x.words)) = some r →
      (s.stagedCheck f r = none → s.placeRetiring r.at = false) →
      ∃ w, exec (.outboundQueueDrain t) s = .next w ∧ (w.tile t).edge.outbound = left ∧
        (s.stagedCheck f r = none → w.mem.read r.at b.length = b ∧
          ∀ a, a < r.at ∨ r.at + b.length ≤ a → w.mem.byte a = s.mem.byte a) ∧
        (s.stagedCheck f r ≠ none → w.mem = s.mem) ∧
        ∀ j, j ≠ t → w.tile j = s.tile j) ∧
    ((s.tile t).edge.writes = r :: rest → r.words ≤ r.done →
      ∃ v, exec (.stagedWriteComplete t) s = .next (v.wake t) ∧ (v.tile t).edge.writes = rest ∧
        Signalled s v t r.context r.kc ∧ (v.tile t).edge.inbound = (s.tile t).edge.inbound ∧
        ∀ j, j ≠ t → v.tile j = s.tile j)

/-- Timeouts of waits (R230, R255, R264): a WAITK or an ISSUE that reaches the frame's receive-wait timeout
takes the wait-timeout trap; a waiting send or read that passes its timeout is recorded in OD 0x2703.04 and
faults the frame. -/
def Obligations.WaitTimeouts : Prop :=
  ∀ (s : State) (t : Nat) (f : Fin 8) (l : Latched), s.inv = true → TileRuns s t f → (s.frame f).latched = some l →
    (l.receiveWait ≠ 0 → (s.tile t).trap.entry = none → (s.tile t).core.handler = false →
      (∀ k n, (s.tile t).wait = .waitk k n →
        ∃ w, exec (.counterWaitTimeout t) s = .next w ∧ Trapped s t 8 (1 + k * 2 ^ 3) w) ∧
      ∀ e a x, (s.tile t).wait = .issue e a x →
        ∃ w, exec (.counterWaitTimeout t) s = .next w ∧ Trapped s t 8 (2 + e * 2 ^ 3) w) ∧
    (l.receiveWait ≠ 0 → ∀ q rd, (s.tile t).wait = .recv q rd →
      ∃ w, exec (.receiveWaitTimeout t) s = .next w ∧ (w.frame f).st = .faulted ∧
        w.odGet 0x2703 0x04 0 = t + 0xFFFF * 2 ^ 16 + q * 2 ^ 32 + 2 ^ 34 + f.val * 2 ^ 35 ∧
        ((s.frame f).causeHeld = false → w.odGet (frameIndex f) 0x0C 0 = 0x0008)) ∧
    (l.sendStall ≠ 0 → ∀ ra rb nq, (s.tile t).wait = .send ra rb nq →
      ∃ w, exec (.sendStallTimeout t) s = .next w ∧ (w.frame f).st = .faulted ∧
        w.odGet 0x2703 0x04 0 =
          t + s.stallDest t rb * 2 ^ 16 + (s.tile t).sendQueue rb * 2 ^ 32 + f.val * 2 ^ 35 ∧
        ((s.frame f).causeHeld = false → w.odGet (frameIndex f) 0x0C 0 = 0x0008))

/-- The release of a sync on which the arrivals agree (R107, R110, R111, R163, R34): an entry sync of kind 0
or 1 opens the exchange phase of that kind, every other sync ends a superstep; a step-advance sync moves the
current step; a STOP in progress then ends; every tile of the frame leaves the sync, and a tile whose arrival
at the next one is implied shows it at once (R137, R254). Arrivals that disagree fault the frame (R109). -/
def Obligations.SyncReleases : Prop :=
  ∀ (s u : State) (f : Fin 8), s.inv = true → (s.frame f).st = .running → s.allArrived f = true →
    (s.syncAgrees f = true → s.atExternalExit f = false →
      u = (if (s.frame f).exchange = none then s else s.drainExchange f) → (u.frame f).st = .running →
      ∃ w, exec (.syncRelease f) s = .next w ∧ (w.frame f).firstArrival = none ∧
        (∀ t ∈ u.frameTiles f, (w.tile t).arrival = none ∧ (w.tile t).wait ≠ .sync) ∧
        (w.frame f).step = (if (u.syncNamed f).stepAdvance then ((u.frame f).step + 1) % 2 ^ 64 else (u.frame f).step) ∧
        ((u.frame f).exchange = none → (u.syncNamed f).kind ≠ 2 →
          (w.frame f).exchange = some (u.syncNamed f).kind ∧ (w.frame f).supersteps = (u.frame f).supersteps ∧
          (w.frame f).st = .running ∧ ∀ t ∈ u.frameTiles f, (w.tile t).xch.phase =
            if (w.tile t).impliedArrival then 4 else 2 + (u.syncNamed f).kind) ∧
        ((u.frame f).exchange ≠ none ∨ (u.syncNamed f).kind = 2 →
          (w.frame f).exchange = none ∧ (w.frame f).supersteps = satAdd 64 (u.frame f).supersteps 1 ∧
          ((u.frame f).transition = some .stop → (w.frame f).st = .stopped ∧ (w.frame f).transition = none) ∧
          ((u.frame f).transition ≠ some .stop → (w.frame f).st = .running) ∧
          ∀ t ∈ u.frameTiles f, (w.tile t).xch.phase = if (w.tile t).impliedArrival then 1 else 0)) ∧
    (s.syncAgrees f = false → ∃ w, exec (.syncRelease f) s = .next w ∧ (w.frame f).st = .faulted ∧
      ((s.frame f).causeHeld = false → w.odGet (frameIndex f) 0x0C 0 = 0x0002))

/-- External phases (R131, R134, R135): the exit sync of an external phase releases once every tile has
arrived and every peer's token is there; the phase number rises by one and the early tokens count for the new
phase. A phase that does not release in time faults the frame with cause 0x0004, and a sync past its watchdog
with cause 0x0003 (R113). Sync tokens (R132, R133): a frame whose tiles stand at the exit sync of an external
phase, and whose writes to a peer are acknowledged, sends that peer one token of its phase; a token that comes
from a peer of the frame's job counts for the frame's present phase, or early for the next, and every other
token is counted in OD 0x2305.01. -/
def Obligations.ExternalPhases : Prop :=
  (∀ (s u : State) (f : Fin 8) (l : Latched), s.inv = true → (s.frame f).st = .running →
    ((s.frame f).exchange = some 1 → (s.frame f).latched = some l → l.peers ≠ [] → s.allArrived f = true →
      s.syncAgrees f = true → (∀ p ∈ l.peers, p ∈ (s.frame f).tokens) →
      u = s.drainExchange f → (u.frame f).st = .running → (u.frame f).exchange = some 1 →
      ∃ w, exec (.externalSyncRelease f) s = .next w ∧
        (w.frame f).phase = ((u.frame f).phase + 1) % 2 ^ 32 ∧ (w.frame f).tokens = (u.frame f).early ∧
        (w.frame f).early = [] ∧ (w.frame f).sent = [] ∧ (w.frame f).exchange = none ∧
        (w.frame f).supersteps = satAdd 64 (u.frame f).supersteps 1) ∧
    ((s.frame f).exchange = some 1 → ∃ w, exec (.externalTimeout f) s = .next w ∧ (w.frame f).st = .faulted ∧
      ((s.frame f).causeHeld = false → w.odGet (frameIndex f) 0x0C 0 = 0x0004)) ∧
    ((s.frame f).firstArrival ≠ none → (s.frame f).watchdog ≠ 0 →
      ∃ w, exec (.syncWatchdogExpiry f) s = .next w ∧ (w.frame f).st = .faulted ∧
        ((s.frame f).causeHeld = false → w.odGet (frameIndex f) 0x0C 0 = 0x0003))) ∧
  ∀ (s : State) (f : Fin 8) (peer : Fin 32) (l : Latched) (p : Nat), s.inv = true → (s.frame f).latched = some l →
    (l.peers[peer.val]? = some p → s.tokenReady f p = true →
      (∀ k, peerDevice p ≠ s.device → s.egress (peerDevice p) = some k →
        exec (.syncTokenSend f peer) s = .next ((s.modFrame f fun y => { y with sent := p :: y.sent }).sendTxn k
          ⟨packTxn { kind := 7, dst := peerDevice p, src := s.device, dfr := peerFrame p, sfr := f.val
                     hops := s.hopLimit, a := l.job + (s.frame f).phase * 2 ^ 4 }, []⟩)) ∧
      (peerDevice p = s.device → exec (.syncTokenSend f peer) s =
        .next ((s.modFrame f fun y => { y with sent := p :: y.sent }).acceptToken (frameIx (peerFrame p)) l.job
          s.device f.val (s.frame f).phase))) ∧
    ∀ (k : Fin 24) (x : Txn), txnKind x.header = 7 → txnDst x.header = s.device → frameIx (txnDfr x.header) = f →
      let from_ := txnSrc x.header + txnSfr x.header * 2 ^ 12
      let phase := bits (txnA x.header) 4 32
      ∃ w, exec (.syncTokenReceive k x) s = .next w ∧
        ((s.frame f).st ≠ .empty → l.job = bits (txnA x.header) 0 4 → from_ ∈ l.peers →
          (phase = (s.frame f).phase → from_ ∈ (w.frame f).tokens ∧ w.od = s.od) ∧
          (phase ≠ (s.frame f).phase → phase = ((s.frame f).phase + 1) % 2 ^ 32 → from_ ∈ (w.frame f).early ∧
            (w.frame f).tokens = (s.frame f).tokens ∧
            w.odGet 0x2305 0x02 0 = satAdd 32 (s.odGet 0x2305 0x02 0) 1) ∧
          (phase ≠ (s.frame f).phase → phase ≠ ((s.frame f).phase + 1) % 2 ^ 32 →
            (w.frame f).tokens = (s.frame f).tokens ∧ (w.frame f).early = (s.frame f).early ∧
            w.odGet 0x2305 0x01 0 = satAdd 32 (s.odGet 0x2305 0x01 0) 1)) ∧
        ((s.frame f).st = .empty ∨ l.job ≠ bits (txnA x.header) 0 4 ∨ from_ ∉ l.peers →
          (w.frame f).tokens = (s.frame f).tokens ∧ (w.frame f).early = (s.frame f).early ∧
          w.odGet 0x2305 0x01 0 = satAdd 32 (s.odGet 0x2305 0x01 0) 1)

/-- A tile cycle of a frame's laid tables (R119, R122, R262): every tile's exchange cycle counts one, and a
table that runs goes on to the next repetition of its entry, to its next entry, or to its end, where its
counter is still to be signalled; XCH_TABLE_END signals it. A tile that is idle takes the context its frame
has turned to, and fetches anew (R103, R246). -/
def Obligations.LaidTablesAndContexts : Prop :=
  ∀ (s : State) (f : Fin 8) (t : Nat), s.inv = true →
    ((s.frame f).st = .running → (s.frameTiles f).Nodup → t ∈ s.frameTiles f → s.exchanging f = true →
      ∃ v : State, exec (.laidTableEntry f) s = .next (v.wakeFrame f) ∧
        (v.tile t).xch.cycle = (s.tile t).xch.cycle + 1 ∧
        ∀ tb, (s.tile t).xch.running = some tb →
          let x := (s.tile t).xch
          let e := tableEntry tb.code x.index
          (x.rep + 1 < entryCycles e → (v.tile t).xch.rep = x.rep + 1 ∧ (v.tile t).xch.index = x.index) ∧
          (entryCycles e ≤ x.rep + 1 → entryEnd e = false → x.index + 1 < tb.entries →
            (v.tile t).xch.rep = 0 ∧ (v.tile t).xch.index = x.index + 1) ∧
          (entryCycles e ≤ x.rep + 1 → (entryEnd e = true ∨ tb.entries ≤ x.index + 1) →
            (v.tile t).xch.running = none ∧ (v.tile t).xch.tableDone = some (tb.kc, tb.context))) ∧
    (∀ kc c, TileRuns s t f → (s.tile t).xch.tableDone = some (kc, c) →
      ∃ v : State, exec (.xchTableEnd t) s = .next (v.wake t) ∧ Signalled s v t c kc ∧ (v.tile t).xch.tableDone = none ∧
        ∀ j, j ≠ t → v.tile j = s.tile j) ∧
    ∀ c, TileRuns s t f → (s.tile t).switching = some c → (s.tile t).switchReady = true →
      ∃ w, exec (.contextSwitch t) s = .next w ∧ OnlyTile s w t ∧
        w.tile t = { s.tile t with active := c, switching := none, pair := none }

/-- A hop of the message mesh (R218, R221, R225, R380): the flit that a router grants leaves its input, where
one that waits outside takes its place, and joins the ejection stage or the facing input of the next tile in
its direction; one whose parity is bad poisons its packet, goes on with good parity, and is counted and
logged. A packet across the die that becomes whole at its apron then leaves by its link. Tuples at their tile
(R225, R226, R228, R229, R234): a poisoned one is discarded and counted, one for a closed queue is counted and
answered with a refusal of code 0x1, one that finds room enters its queue whole, and one that does not waits,
its header in the ejection stage, and enters later; a refusal that comes back is recorded in the status of the
queue its send named. The flits of a tuple already in the stage reach it first. -/
def Obligations.MeshAndTuples : Prop :=
  (∀ (s : State) (t : Nat) (port : Fin 5) (cls : Fin 4) (o : Nat) (fl : Flit) (rest : List Flit) (fault : Bool),
    s.inv = true → t < s.tileCount → (s.tile t).net.input port.val cls.val = fl :: rest →
    s.wants t port.val cls.val = some o → s.grant t o = some (port.val, cls.val) →
    let g := (fl.arrive fault).forward
    let bad := (fl.arrive fault).parityBad
    (bad = true → g.poison = true ∧ (fl.head = true → pktPoison g.data = true) ∧ g.parityBad = false) ∧
    (bad = false → g = fl.arrive fault) ∧
    ∃ v : State, exec (.packetHop t port cls fault) s = .next ((if o = 4 then v else v.crossed t o).wake t) ∧
      (v.tile t).net.inp = (Router.fillInput { (s.tile t).net with
        inp := sput [] (s.tile t).net.inp (port.val * 4 + cls.val) rest } port.val cls.val).inp ∧
      (o = 4 → (v.tile t).net.eject = smod [] (s.tile t).net.eject cls.val (· ++ [g])) ∧
      (∀ n, o ≠ 4 → s.neighbour t o = some n →
        (v.tile n).net.inp = smod [] (s.tile n).net.inp (facing o * 4 + cls.val) (· ++ [g])) ∧
      (o ≠ 4 → s.neighbour t o = none →
        (v.tile t).net.eject = smod [] (s.tile t).net.eject (4 * (o + 1) + cls.val) (· ++ [g])) ∧
      (bad = true → v.odGet 0x2703 0x03 0 = satAdd 32 (s.odGet 0x2703 0x03 0) 1) ∧ (bad = false → v.od = s.od)) ∧
  ∀ (s : State) (t : Nat) (p : Packet) (q : Fin 4), s.inv = true → t < s.tileCount → s.forTile t p.header = true →
    pktQueue p.header = q.val →
    let u := s.drainStage t
    let old := (s.tile t).queues[q.val]
    let tup : Tuple := ⟨s.pktSource p.header, pktSrcApron p.header, p.data⟩
    (pktOp p.header = 0 → ∃ v : State, exec (.tupleArrival t p) s = .next (v.wake t) ∧
      (isPoisoned p = true ∨ old.isOpen = false →
        (v.tile t).queues[q.val] = { old with refusedArrivals := satAdd 8 old.refusedArrivals 1 } ∧
        v.odGet 0x2703 0x01 0 = satAdd 32 (s.odGet 0x2703 0x01 0) 1) ∧
      (isPoisoned p = false → old.isOpen = false →
        (v.tile t).net = (((u.takeEjected t p).inject t (sentPacket (packHeader
          { kind := b2n (pktSrcApron p.header), row := pktSrcRow p.header, col := pktSrcCol p.header
            queue := if pktSrcApron p.header then 0 else q.val, cls := 2, op := 5, len := 0
            srow := s.tileRow t, scol := s.tileCol t, frame := pktFrame p.header, status := 1 }) [])).tile t).net) ∧
      (isPoisoned p = false → old.isOpen = true → old.held + p.data.length ≤ 32 →
        (v.tile t).queues[q.val] = { old with tuples := old.tuples ++ [tup] } ∧ v.od = s.od) ∧
      (isPoisoned p = false → old.isOpen = true → 32 < old.held + p.data.length →
        (v.tile t).queues[q.val] = old ∧ v.od = s.od ∧
        (sget [] (u.tile t).net.eject (pktClass p.header) = [] →
          (v.tile t).net.eject = sput [] (u.tile t).net.eject (pktClass p.header) ((flitsOf p).take 1))) ∧
      ∀ j, j ≠ t → v.tile j = u.tile j) ∧
    ((u.tile t).net.ejected 0 = some p → pktOp p.header = 0 → isPoisoned p = false → pktClass p.header = 0 →
      old.isOpen = true → old.held + p.data.length ≤ 32 →
      ∃ v : State, exec (.tupleEnterAfterWait t q) s = .next (v.wake t) ∧
        (v.tile t).queues[q.val] = { old with tuples := old.tuples ++ [tup] } ∧
        (v.tile t).net.eject = sput [] (u.tile t).net.eject 0 []) ∧
    (pktOp p.header = 5 → pktStatus p.header < 4 → ∃ w, exec (.refusalArrival t p) s = .next w ∧
      (w.tile t).queues[q.val] = { old with
        refusalsReceived := satAdd 16 old.refusalsReceived 1, lastCode := pktStatus p.header
        lastDest := if pktSrcApron p.header then 0xFFF else s.pktSource p.header } ∧
      ∀ j, j ≠ t → w.tile j = s.tile j)

/-- Rows asked for at a tile (R84, R93, R94, R102, R225, R231, R233, R501): a row read answers with the row, a
row write stores the row, as poisoned all ones where its sender poisoned it, and acknowledges; an address that
is no row of the tile, a window that forbids it, and a request that a router marked or a poisoned read are
refused with the codes 0x5, 0x4 and 0x6, and a tile of a FAULTED frame keeps its memory and refuses with 0x4
(log entry 97). Rows that a tile asked for (R225, R231, R501): the response frees its tag and completes a row
of the DMA operation that runs, landing the data in the destination row of a MOVE; the acknowledgement of a
row write does the same; a poisoned or refused answer is a bus error; the answer to an abandoned request frees
its tag and does nothing else. -/
def Obligations.RemoteRows : Prop :=
  (∀ (s : State) (t : Nat) (p : Packet) (use : PortUse), s.inv = true → t < s.tileCount → s.forTile t p.header = true →
    let u := s.takeEjected t p
    (pktOp p.header = 1 → isPoisoned p = true →
      exec (.rowReadRequest t p use) s = .next (u.answer t p.header 4 6 [])) ∧
    (pktOp p.header = 2 → p.marked = true → exec (.rowWrite t p use) s = .next (u.answer t p.header 5 6 [])) ∧
    (s.tileHalted t = true →
      (pktOp p.header = 1 → isPoisoned p = false →
        exec (.rowReadRequest t p use) s = .next (u.answer t p.header 4 4 [])) ∧
      (pktOp p.header = 2 → p.marked = false →
        exec (.rowWrite t p use) s = .next (u.answer t p.header 5 4 []))) ∧
    (s.tileHalted t = false →
      (pktOp p.header = 1 → isPoisoned p = false → p.data.length = 1 →
        (requestRow t p = none → exec (.rowReadRequest t p use) s = .next (u.answer t p.header 4 5 [])) ∧
        ∀ r, requestRow t p = some r →
          ((s.tile t).decl.allows (s.tile t).active false 0 r = false →
            exec (.rowReadRequest t p use) s =
              .next ((u.windowRefusal t (s.tile t).active 0 r).answer t p.header 4 4 [])) ∧
          ((s.tile t).decl.allows (s.tile t).active false 0 r = true →
            errsIn s.errs (mainAddr t (r * 512)) 512 = [] →
            exec (.rowReadRequest t p use) s = .next ((u.usePorts t use).answer t p.header 4 0
              (rowFlits (s.mem.read (mainAddr t (r * 512)) 512))))) ∧
      (pktOp p.header = 2 → p.marked = false → p.data.length = 65 →
        (requestRow t p = none → exec (.rowWrite t p use) s = .next (u.answer t p.header 5 5 [])) ∧
        ∀ r, requestRow t p = some r →
          ((s.tile t).decl.allows (s.tile t).active true 0 r = false →
            exec (.rowWrite t p use) s =
              .next ((u.windowRefusal t (s.tile t).active 0 r).answer t p.header 5 4 [])) ∧
          ((s.tile t).decl.allows (s.tile t).active true 0 r = true →
            ∃ w, exec (.rowWrite t p use) s = .next w ∧
              (pktPoison p.header = false → w.mem.read (mainAddr t (r * 512)) 512 = flitsRow (p.data.drop 1)) ∧
              (pktPoison p.header = true → w.mem.read (mainAddr t (r * 512)) 512 = List.replicate 512 0xFF) ∧
              (∀ a, a < mainAddr t (r * 512) ∨ mainAddr t (r * 512) + 512 ≤ a → w.mem.byte a = s.mem.byte a) ∧
              (errsIn w.errs (mainAddr t (r * 512)) 512 = [] ↔ pktPoison p.header = false) ∧
              ∃ v : State, w = v.answer t p.header 3 0 [] ∧ v.tiles = (u.usePorts t use).tiles)))) ∧
  ∀ (s : State) (t : Nat) (f : Fin 8) (p : Packet) (o : RemoteOp) (op : EngOp), s.inv = true → t < s.tileCount →
    s.forTile t p.header = true → s.frameOf t = some f → sget none (s.tile t).tags (pktTag p.header) = some o →
    (s.tile t).dma.running = some op →
    (pktOp p.header = 4 → o.write = false → o.gone = false → dmaOp op.desc = 1 →
      ∃ v : State, exec (.readResponse t p) s = .next (v.pumpDma t f) ∧
        (v.tile t).tags = sput none (s.tile t).tags (pktTag p.header) none ∧
        (v.tile t).dma.running.map (·.completed) = some (op.completed + 1) ∧
        ((s.tile t).decl.allows op.context true 0 (dmaDst op.desc + o.row) = true →
          isPoisoned p = false → pktStatus p.header = 0 → p.data.length = 64 →
          v.mem.read (mainAddr t ((dmaDst op.desc + o.row) * 512)) 512 = flitsRow p.data ∧
          (v.tile t).dma.running.map (·.busError) = some op.busError) ∧
        (isPoisoned p = true ∨ pktStatus p.header ≠ 0 →
          (v.tile t).dma.running.map (·.busError) = some (firstBus op.busError (some (busDevice o.addr))))) ∧
    (pktOp p.header = 3 → o.write = true → o.gone = false →
      ∃ v : State, exec (.writeAcknowledgement t p) s = .next (v.pumpDma t f) ∧
        (v.tile t).tags = sput none (s.tile t).tags (pktTag p.header) none ∧
        (v.tile t).dma.running.map (·.completed) = some (op.completed + 1) ∧ v.mem = s.mem) ∧
    (o.gone = true →
      (pktOp p.header = 4 → o.write = false → ∃ w, exec (.readResponse t p) s = .next w ∧
        (w.tile t).tags = sput none (s.tile t).tags (pktTag p.header) none ∧ (w.tile t).dma = (s.tile t).dma ∧
        w.mem = s.mem) ∧
      (pktOp p.header = 3 → ∃ w, exec (.writeAcknowledgement t p) s = .next w ∧
        (w.tile t).tags = sput none (s.tile t).tags (pktTag p.header) none ∧ (w.tile t).dma = (s.tile t).dma ∧
        w.mem = s.mem))

/-- The memory gateways and the supervisor queues (R231, R233, R235, R294, R302, R448, R449): a gateway
answers a row read of the stacks and of staging memory, and stores a row; a request whose pseudo-channel
retires waits at the apron; a tuple enters its frame's supervisor queue while it has room, waits at the apron
where it has not, is refused where the queue is closed, and is placed in a result slot by the firmware; the
supervisor's tuples enter the mesh at row 0 of the destination column, and a refusal that comes back to it is
counted. -/
def Obligations.GatewaysAndSupervisorQueues : Prop :=
  ∀ (s : State) (south : Bool) (p : Packet), s.inv = true →
    let u := s.takeApron p
    (pktKind p.header = (if south then 2 else 1) → pktQueue p.header = 2 →
      let a := requestAddr p
      let f := pktFrameIx p.header
      let c := s.sourceContext p.header
      ((pktOp p.header = 1 ∨ pktOp p.header = 2) → s.gatewayWaits f c a = true →
        exec (.memoryGatewayRequest south p) s = .next (s.holdApron p)) ∧
      (s.gatewayWaits f c a = false →
        (pktOp p.header = 1 → isPoisoned p = false → gatewayServes south a = true → p.data.length = 1 →
          let r := u.gatewayRead f c a
          exec (.memoryGatewayRequest south p) s =
            .next (r.2.2.gatewayAnswer south p.header 4 r.1 (if r.1 = 0 then rowFlits r.2.1 else []))) ∧
        (pktOp p.header = 2 → p.marked = false → gatewayServes south a = true → p.data.length = 65 →
          let r := u.gatewayWrite f c a (flitsRow (p.data.drop 1)) (pktPoison p.header)
          exec (.memoryGatewayRequest south p) s = .next (if r.1 = 0 then r.2.gatewayAnswer south p.header 3 0 []
            else r.2.gatewayAnswer south p.header 5 r.1 [])) ∧
        (pktOp p.header = 1 → isPoisoned p = false → gatewayServes south a = false →
          exec (.memoryGatewayRequest south p) s = .next (u.gatewayAnswer south p.header 4 5 [])) ∧
        (pktOp p.header = 1 → isPoisoned p = true →
          exec (.memoryGatewayRequest south p) s = .next (u.gatewayAnswer south p.header 4 6 [])))) ∧
    (pktKind p.header = 1 → pktQueue p.header = 0 → pktOp p.header = 0 → isPoisoned p = false →
      let f := pktFrameIx p.header
      let y := s.frame f
      let tup : Tuple := ⟨s.pktSource p.header, pktSrcApron p.header, p.data⟩
      ((y.st = .loaded ∨ y.st = .running ∨ y.st = .stopped) →
        (y.waiting = [] → y.queueHeld + p.data.length ≤ 256 →
          exec (.supervisorQueueArrival p) s = .next (u.setFrame f { y with queue := y.queue ++ [tup] })) ∧
        (y.waiting ≠ [] ∨ 256 < y.queueHeld + p.data.length → p ∉ y.waiting →
          exec (.supervisorQueueArrival p) s =
            .next ((s.holdApron p).setFrame f { y with waiting := y.waiting ++ [p] }))) ∧
      ((y.st = .empty ∨ y.st = .selftest ∨ y.st = .faulted) →
        exec (.supervisorQueueArrival p) s = .next ((u.count32 0x2703 0x01).supervisorRefusal tup.source f.val))) ∧
    (pktKind p.header = 1 → pktQueue p.header = 0 → pktOp p.header = 5 → ∀ t, t < s.tileCount →
      ∃ w, exec (.refusalArrival t p) s = .next w ∧
        w.odGet 0x2703 0x01 0 = satAdd 32 (s.odGet 0x2703 0x01 0) 1 ∧ w.frames = s.frames ∧ w.mem = s.mem) ∧
    (∀ (f : Fin 8) (tup : Tuple) (rest : List Tuple) (i : Nat), (s.frame f).queue = tup :: rest →
      s.freeSlot = some i → tup.words.length ≤ 4 →
      ∃ w, exec (.supervisorTupleService f) s = .next w ∧
        w.mem.read (resultBase + 64 * i + 16) 8 = leBytes 8 (tup.source + tup.words.length * 2 ^ 16) ∧
        w.mem.read (resultBase + 64 * i) 4 = leBytes 4 s.host.nextSeq ∧ w.host.lastSeq = s.host.nextSeq ∧
        ((s.frame f).waiting = [] → (w.frame f).queue = rest) ∧ ∀ g, g ≠ f → w.frame g = s.frame g) ∧
    ∀ (t : Nat) (f : Fin 8) (q : Fin 4) (words : List W64), t < s.tileCount → words ≠ [] → words.length ≤ 4 →
      s.frameOf t = some f →
      exec (.supervisorTupleSend t q words) s = .next (s.apronSend false (sentPacket (packHeader
        { row := s.tileRow t, col := s.tileCol t, queue := q.val, cls := 0, op := 0, len := words.length
          srow := 0, scol := s.tileCol t, apron := true, frame := f.val }) words))

/-- Arrivals at the request queue (R51, R52, R445): an access takes one of the 32 places, after all that came
in earlier supervisor cycles and, of those of its own cycle, before those of a later path; a full queue
refuses it, with 0x0504_0005 on CAN and Uzon and with DW_STAT 5 on the window; the window takes no access
while one of its own is under way. -/
def Obligations.RequestQueueArrivals : Prop :=
  ∀ (s : State) (a : Access),
    let key := odKey a.index.toNat a.sub.toNat
    (a.path ≠ .pcie → s.queue.length < 32 → exec (.requestQueueArrival a) s = .next (s.takePlace a)) ∧
    ({ s.takePlace a with queue := s.queue, queueFresh := s.queueFresh } = s ∧
      (s.queueFresh = 0 → (s.takePlace a).queue = s.queue ++ [a]) ∧
      ∃ l r, (s.takePlace a).queue = l ++ a :: r ∧ l ++ r = s.queue ∧ r.length ≤ s.queueFresh ∧
        (∀ b, r.head? = some b → pathRank a.path < pathRank b.path) ∧
        ∀ b ∈ l.drop (s.queue.length - s.queueFresh), pathRank b.path ≤ pathRank a.path) ∧
    (a.path = .can → 32 ≤ s.queue.length → ∃ w : State, exec (.requestQueueArrival a) s = .next w ∧
      { w with od := s.od, out := s.out } = s ∧
      w.out = (if s.can.onBus = true then [.usdo (0x580 + s.can.nodeId) a.client key 0x05040005 []] else []) ++
        .value .can key 0x05040005 [] :: s.out) ∧
    (∀ src, a.path = .uzon src → 32 ≤ s.queue.length → ∃ v : State,
      exec (.requestQueueArrival a) s = .next (v.sendMresp src a.client 0x05040005 []) ∧
      { v with od := s.od, out := s.out } = s ∧ v.out = .value (.uzon src) key 0x05040005 [] :: s.out) ∧
    (a.path = .pcie →
      (s.dw.stat = 1 ∨ s.dw.stat = 2 → ∃ w : State, exec (.requestQueueArrival a) s = .next w ∧
        w.odGet 0x2E02 0x06 0 = satAdd 32 (s.odGet 0x2E02 0x06 0) 1 ∧ { w with od := s.od } = s) ∧
      (s.dw.stat ≠ 1 → s.dw.stat ≠ 2 → 32 ≤ s.queue.length →
        exec (.requestQueueArrival a) s = .next { s with dw := { s.dw with stat := 5 } }) ∧
      (s.dw.stat ≠ 1 → s.dw.stat ≠ 2 → s.queue.length < 32 →
        exec (.requestQueueArrival a) s = .next { s.takePlace a with dw := { s.dw with stat := 1 } }))

/-- Writes to the dictionary (R45, R53, R54, R56): a write that fails a check is answered with its abort code
and changes only counters; one of a scalar entry stores the value, in flash for the preferred image; one of a
table stores its bytes; one of an entry with a command of its own has that command's effect. Segmented
transfers (R52, R57–R59, R73, R74): a segment that continues its session is taken or answered; the last one of
a write brings the whole value to the request queue, unless that is full; a segment of another transfer, a
wrong toggle bit, a wrong offset and the session timeout are answered with their abort codes, the three last
ending the session. The answer is the value, on CAN in a frame of the node while it is on the bus and on Uzon
in an MRESP. -/
def Obligations.DictionaryAccesses : Prop :=
  (∀ (s : State) (via : Path) (index : W16) (sub : Byte) (data : List Byte), s.inv = true → s.sup.ready = true →
    let i := index.toNat
    let n := sub.toNat
    let code := s.writeCode via i n data
    (code ≠ 0 → ∃ w : State, exec (.dictionaryWrite via index sub data) s = .next w ∧
      w.out = .value via (odKey i n) code [] :: s.out ∧ { w with od := s.od, out := s.out } = s) ∧
    (code = 0 → ownRow via i n (leNat data) = none → ∀ e, findEntry i n = .ok e → (i = 0x1E42 → n = 1) →
      (e.type.scalar = true → i ≠ 0x2810 → i ≠ 0x2D30 → ¬ (i = 0x3101 ∧ n = 2) →
        ∃ w : State, exec (.dictionaryWrite via index sub data) s = .next w ∧ w.odGet i n 0 = leNat data ∧
          w.out.head? = some (.value via (odKey i n) 0 []) ∧ w.mem = s.mem ∧ w.tiles = s.tiles ∧
          (¬ (0x2C20 ≤ i ∧ i < 0x2C30) → w.links = s.links ∧ w.out.tail = s.out) ∧
          (i = 0x2020 → w.grid.split = (leNat data == 1)) ∧ (i ≠ 0x2020 → w.grid = s.grid) ∧
          ∀ k m : Nat, m < 256 → (k ≠ i ∨ m ≠ n) → k ≠ 0x1E42 → w.odGet k m 0 = s.odGet k m 0) ∧
      (e.type.scalar = true → i = 0x3101 → n = 2 →
        ∃ w : State, exec (.dictionaryWrite via index sub data) s = .next w ∧
          w.flash = { s.flash with preferredB := leNat data == 1 } ∧
          w.out = .value via (odKey i n) 0 [] :: s.out) ∧
      (e.type.scalar = false ∨ i = 0x2810 ∨ i = 0x2D30 →
        ∃ w : State, exec (.dictionaryWrite via index sub data) s = .next w ∧ w.tableBytes i 0 data.length = data ∧
          w.out.head? = some (.value via (odKey i n) 0 []) ∧ w.tiles = s.tiles)) ∧
    (code = 0 → ∀ g t, ownRow via i n (leNat data) = some g → g s = .next t →
      exec (.dictionaryWrite via index sub data) s = .next t)) ∧
  ∀ (s : State) (g : Segment) (x : Session), s.hears (sessionPath g.who) = true → s.session g.who = some x →
    let via := sessionPath g.who
    let client := sessionClient g.who
    let i := g.index.toNat
    let sub := g.sub.toNat
    let ended : State := { s with sessions := s.sessions.filter fun y => y.who != g.who }
    let held := fun y : Session => { s with sessions := s.sessions.map fun z => if z.who = g.who then y else z }
    let mine := x.write = g.write ∧ x.index = g.index ∧ x.sub = g.sub
    let good := mine ∧ g.toggleOk = true ∧ g.offset = x.offset
    let n := match g.who with | .can _ => 56 | .uzon _ _ _ => 64
    (good → g.write = true → g.final = false → exec (.segmentedTransferSegment g) s = .next
      ((held { x with buffer := x.buffer ++ g.data, offset := (x.buffer ++ g.data).length }).answerPart
        via client i sub 0 [])) ∧
    (good → g.write = true → g.final = true →
      (s.queue.length < 32 → exec (.segmentedTransferSegment g) s = .next (ended.takePlace
        { path := via, write := true, index := g.index, sub := g.sub, data := x.buffer ++ g.data, client := client })) ∧
      (32 ≤ s.queue.length →
        exec (.segmentedTransferSegment g) s = .next (s.answerPart via client i sub 0x05040005 []))) ∧
    (good → g.write = false → x.buffer.length ≤ 0x40000 → exec (.segmentedTransferSegment g) s = .next
      ((if x.buffer.length ≤ x.offset + n then ended else held { x with offset := x.offset + n }).answerPart
        via client i sub 0 (slice x.buffer x.offset n))) ∧
    (¬ mine → exec (.segmentedTransferSegment g) s = .next (s.answerPart via client i sub 0x05040001 [])) ∧
    (mine → g.toggleOk = false →
      exec (.segmentedTransferSegment g) s = .next (ended.answerPart via client i sub 0x05030000 [])) ∧
    (mine → g.toggleOk = true → g.offset ≠ x.offset →
      exec (.segmentedTransferSegment g) s = .next (ended.answerPart via client i sub 0x05040001 [])) ∧
    (∃ w : State, exec (.sessionTimeout g.who) s = .next w ∧ w.sessions = ended.sessions ∧ w.queue = s.queue ∧
      w.out = (match g.who with
        | .can c => if s.can.onBus = true
          then [.usdo (0x580 + s.can.nodeId) c (odKey x.index.toNat x.sub.toNat) 0x05040000 []] else []
        | .uzon _ _ _ => []) ++ .value via (odKey x.index.toNat x.sub.toNat) 0x05040000 [] :: s.out) ∧
    ∀ (t : State) (c code : Nat) (d : List Byte), code = 0 ∨ d = [] → (t.answerPart .can c i sub code d).out =
      (if t.can.onBus = true then [.usdo (0x580 + t.can.nodeId) c (odKey i sub) code d] else []) ++
        .value .can (odKey i sub) code d :: t.out

/-- Storing and restoring the saved set (R50, R62–R64): the command is taken up with the copy to be written,
apart from the other group's part, and is answered when that copy is verified, in the way its access came; a
failed write leaves the other copy and is logged. -/
def Obligations.StoresAndRestores : Prop :=
  ∀ (s : State), s.inv = true →
    (∀ (via : Path) (g : Fin 3),
      (Accepts s via 0x1010 (g.val + 1) 0x65766173 → ∃ (w : State) (x : Storing),
        exec (.storeParameters via g) s = .next w ∧ { w with storing := s.storing } = s ∧ w.storing = some x ∧
        x.restore = false ∧ x.path = via ∧ x.index = odKey 0x1010 (g.val + 1) ∧ x.toA = s.flash.writesA ∧
        x.copy.valid = true ∧ s.flash.copyA.sequence < x.copy.sequence ∧ s.flash.copyB.sequence < x.copy.sequence) ∧
      (Accepts s via 0x1011 (g.val + 1) 0x64616F6C → ∃ (w : State) (x : Storing),
        exec (.restoreDefaults via g) s = .next w ∧ { w with storing := s.storing } = s ∧ w.storing = some x ∧
        x.restore = true ∧ x.path = via ∧ x.index = odKey 0x1011 (g.val + 1) ∧ x.copy.valid = true ∧
        ∀ k, (groupRange g).1 * 256 ≤ k → k < ((groupRange g).2 + 1) * 256 → ∀ v, (k, v) ∉ x.copy.values)) ∧
    ∀ (x : Storing) (ok : Bool), s.storing = some x →
      let ends := fun w : State => w.storing = none ∧
        (ok = true → (if x.toA then w.flash.copyA else w.flash.copyB) = x.copy ∧
          w.out = .value x.path x.index 0 [] :: s.out ∧ w.log = s.log) ∧
        (ok = false → (if x.toA then w.flash.copyA else w.flash.copyB).valid = false ∧
          Logged s w 0x0A00 w.flash.savedStatus ∧ w.out.head? = some (.value x.path x.index 0x08000020 [])) ∧
        (if x.toA then w.flash.copyB = s.flash.copyB else w.flash.copyA = s.flash.copyA) ∧
        w.tiles = s.tiles
      let told := fun w : State => match x.client with
        | none => w
        | some c => w.answerWrite x.path c x.index (if ok then 0 else 0x08000020)
      (x.restore = false → ∃ w, exec (.storeComplete ok) s = .next (told w) ∧ ends w) ∧
      (x.restore = true → ∃ w, exec (.restoreDefaultsComplete ok) s = .next (told w) ∧ ends w)

/-- Network management and heartbeats (R71, R74, R75): a command that names the node moves it, a reset
communication reads its straps anew and boots up, the producer sends the code of its state, and a watched
heartbeat that is absent is logged until it returns. -/
def Obligations.NetworkManagementAndHeartbeats : Prop :=
  ∀ (s : State) (node : BitVec 7),
    (s.can.named node = true →
      exec (.startRemoteNode node) s = .next { s with can := { s.can with nmt := .operational } } ∧
      exec (.stopRemoteNode node) s = .next { s with can := { s.can with nmt := .stopped } } ∧
      exec (.enterPreOperational node) s = .next { s with can := { s.can with nmt := .preOperational } } ∧
      ∀ strap : BitVec 7, ∃ w : State, exec (.resetCommunication node strap) s = .next w ∧
        w.can.nmt = .preOperational ∧ w.can.nodeId = strap.toNat ∧ w.can.queue = s.can.queue ∧
        (strap ≠ 0 → w.out = .can (0x700 + strap.toNat) [0] :: s.out) ∧ (strap = 0 → w.out = s.out) ∧
        (∀ x ∈ w.sessions, ∀ c, x.who ≠ .can c) ∧ w.frames = s.frames ∧ w.tiles = s.tiles ∧ w.links = s.links) ∧
    (s.can.named node = false → exec (.startRemoteNode node) s = .next s ∧ exec (.stopRemoteNode node) s = .next s ∧
      exec (.enterPreOperational node) s = .next s ∧ ∀ strap, exec (.resetCommunication node strap) s = .next s) ∧
    (s.odGet 0x1017 0 1000 ≠ 0 → s.can.onBus = true → s.can.nmt ≠ .initialisation →
      exec .heartbeatProduce s = .next (s.emit (.can (0x700 + s.can.nodeId)
        [match s.can.nmt with | .operational => 0x05 | .stopped => 0x04 | _ => 0x7F]))) ∧
    (∀ c : Fin 4, s.consumerTime c.val ≠ 0 → c.val ∉ s.can.timedOut →
      ∃ w : State, exec (.heartbeatConsumerTimeout c) s = .next w ∧ w.can.timedOut = c.val :: s.can.timedOut ∧
        Logged s w 0x0B00 (2 + s.consumerNode c.val * 2 ^ 8)) ∧
    (s.can.onBus = true → ∃ w : State, exec (.heartbeatReceive node) s = .next w ∧
      (∀ c, c ∈ w.can.timedOut ↔ c ∈ s.can.timedOut ∧ (s.consumerNode c ≠ node.toNat ∨ s.consumerTime c = 0)) ∧
      (s.can.timedOut ≠ [] → w.can.timedOut = [] → ∀ e ∈ w.can.conditions, e ≠ 0x8130) ∧ w.log = s.log)

/-- Emergency messages and the error history (R76, R500): the oldest event leaves as a frame with its code,
the error register and its detail, or unsent while no frame may be sent, or waits while the node is bus-off;
clearing the history releases the events held and, where there were any and frames may be sent, queues the
error reset or counts it as not sent. The CAN controller (R73, R74, R77, R78, R432): error passive and bus-off
as the counters say, each logged; recovery error active; an overrun is logged. A USDO request to this node's
CAN-ID is taken in PRE-OPERATIONAL and OPERATIONAL while the node is on the bus: it takes a place of the
request queue, after it ended the session its client held, or is refused where the queue is full; an
unsupported or routed one is answered with its abort code. -/
def Obligations.CanControllerAndEmergencies : Prop :=
  (∀ (s : State),
    (∀ e rest, s.can.queue = e :: rest →
      (s.can.cannotSend = false → s.can.busOff = false → exec .emcySend s = .next { s with
        can := { s.can with queue := rest }
        out := .can (0x80 + s.can.nodeId) (leBytes 2 e.code ++ leBytes 1 s.can.errorRegister ++ leBytes 2 e.event ++
          leBytes 4 e.detail) :: s.out }) ∧
      (s.can.cannotSend = true → exec .emcySend s = .next { s with can := { s.can with queue := rest } }) ∧
      (s.can.cannotSend = false → s.can.busOff = true → exec .emcySend s = .next s)) ∧
    ∀ via : Path, Accepts s via 0x1003 0x00 0 → ∃ w : State, exec (.errorHistoryClear via) s = .next w ∧
      Answered w via 0x1003 0x00 ∧ w.can.history = [] ∧ w.can.held = [] ∧ w.can.conditions = s.can.conditions ∧
      w.log = s.log ∧
      (s.can.held = [] → w.can.queue = s.can.queue) ∧
      (s.can.held ≠ [] → s.can.cannotSend = false → s.can.queue.length < 16 →
        w.can.queue = s.can.queue ++ [⟨0, 0, 0⟩]) ∧
      (s.can.held ≠ [] → s.can.cannotSend = true → w.can.queue = s.can.queue) ∧
      (s.can.held ≠ [] → s.can.cannotSend = false → 16 ≤ s.can.queue.length → w.can.queue = s.can.queue ∧
        w.odGet 0x1E42 0x0A 0 = satAdd 32 (s.odGet 0x1E42 0x0A 0) 1)) ∧
  ∀ (s : State), s.inv = true →
    (s.can.onBus = true → ∀ tec recv : Nat, ∃ w : State, exec (.canBusError tec recv) s = .next w ∧
      w.can.txErr = min tec 255 ∧ w.can.rxErr = min recv 255 ∧
      w.can.passive = (decide (128 ≤ tec) || decide (128 ≤ recv)) ∧ w.can.busOff = decide (256 ≤ tec) ∧
      (s.can.passive = false → 128 ≤ tec ∨ 128 ≤ recv → Logged s w 0x0B00 1) ∧
      (tec < 128 → recv < 128 → w.log = s.log ∧ (s.can.passive = true → ∀ e ∈ w.can.conditions, e ≠ 0x8120))) ∧
    (s.can.busOff = true → ∃ w : State, exec .busOffRecovery s = .next w ∧ w.can.busOff = false ∧ w.can.txErr = 0 ∧
      w.can.rxErr = 0 ∧ w.can.passive = false ∧ Logged s w 0x0B00 3 ∧
      w.odGet 0x1E41 0x06 0 = satAdd 32 (s.odGet 0x1E41 0x06 0) 1) ∧
    (s.can.onBus = true → ∃ w : State, exec .canReceiveOverrun s = .next w ∧ Logged s w 0x0B00 0) ∧
    ∀ q : UsdoRequest,
      let serving := s.can.onBus = true ∧ (s.can.nmt = .preOperational ∨ s.can.nmt = .operational)
      let mine := q.id = 0x600 + s.can.nodeId
      let key := odKey q.index.toNat q.sub.toNat
      let runs := exec (.usdoRequestReceive q) s
      let a : Access := { path := .can, write := q.command = .write ∨ q.command = .initWrite, index := q.index
                          sub := q.sub, data := if q.command = .write ∨ q.command = .initWrite then q.data else []
                          client := q.client, opens := q.command = .initWrite }
      let asks := q.command ≠ .unsupported ∧ q.command ≠ .routed
      let told := fun code => ∃ w : State, runs = .next w ∧ { w with out := s.out, od := s.od } = s ∧
        w.out = .usdo (0x580 + s.can.nodeId) q.client key code [] :: .value .can key code [] :: s.out
      (¬ (serving ∧ mine) → runs = .next s) ∧
      (serving → mine → asks →
        (s.queue.length < 32 → (∀ x ∈ s.sessions, sameClient x.who (.can q.client) = false) →
          runs = .next (s.takePlace a)) ∧
        (s.queue.length < 32 → ∀ x, s.session (.can q.client) = some x →
          runs = .next ((s.abortSession x 0x05040000).takePlace a)) ∧
        (32 ≤ s.queue.length → told 0x05040005)) ∧
      (serving → mine → q.command = .unsupported → told 0x05040001) ∧
      (serving → mine → q.command = .routed → told 0x06010000)

/-- Frame commands (R33–R35, R49): where the state allows it and no transition runs, LOAD latches the entries
and the image set that its checks passed, or stores the code of the check that failed, START lets the tiles
run, or stops again a frame whose tiles have all ended, STOP waits for the next superstep, RESET, SELFTEST and
UNLOAD leave STOPPED or FAULTED, the last two LOADED too; in another state the command is refused with code 1,
and during a transition with 0xB, and the frame stays as it is. Frame transitions (R34, R110, R163, R408,
R414, R501): a load or reload ends with the frame LOADED at its initial step and no fault cause, a stop that
no sync answers and a failed self-test fault the frame with causes 0x0001 and 0x000C, the first abandoning
what its tiles have under way at other tiles, a self-test that passes reloads it. A reload keeps the latched
entries and takes the image set that stands at the latched reference. -/
def Obligations.FrameLifecycle : Prop :=
  (∀ (s : State) (via : Path) (f : Fin 8), s.inv = true →
    let i := frameIndex f
    let y := s.frame f
    let u := s.odSet i 0x03 0
    (∀ (v : Nat) (c : Instr) (from_ : List FrameState), (v, c, from_) ∈ [(1, .load via f, [.empty]),
        (2, .start via f, if y.endedAll then [.loaded] else [.loaded, .stopped]), (3, .stop via f, [.running]),
        (4, .reset via f, [.stopped, .faulted]), (5, .selftest via f, [.loaded, .stopped, .faulted]),
        (6, .unload via f, [.loaded, .stopped, .faulted])] → Accepts s via i 0x01 v →
      (y.transition ≠ none → ∃ w : State, exec c s = .next w ∧ w.odGet i 0x03 0 = 0xB ∧ w.frames = s.frames ∧
        w.tiles = s.tiles ∧ w.out.head? = some (.value via (odKey i 0x01) abortState [])) ∧
      (y.transition = none → y.st ∉ from_ → ∃ w : State, exec c s = .next w ∧ w.odGet i 0x03 0 = 1 ∧
        w.frames = s.frames ∧ w.tiles = s.tiles ∧
        w.out.head? = some (.value via (odKey i 0x01) abortState []))) ∧
    (y.transition = none →
      (Accepts s via i 0x01 1 → y.st = .empty →
        (∀ b v, u.loadChecks f (u.latchEntries f) (u.odGet i 0x0A 0) = (0, b, v) →
          ∃ w : State, exec (.load via f) s = .next w ∧ Answered w via i 0x01 ∧
            w.frame f = { v.frame f with
              latched := some { u.latchEntries f with image := b }, transition := some .load } ∧
            ∀ g, g ≠ f → w.frame g = v.frame g) ∧
        ∀ c b v, c ≠ 0 → u.loadChecks f (u.latchEntries f) (u.odGet i 0x0A 0) = (c, b, v) →
          ∃ w : State, exec (.load via f) s = .next w ∧ Answered w via i 0x01 ∧ w.odGet i 0x03 0 = c ∧
            w.frames = v.frames ∧ w.tiles = v.tiles) ∧
      (Accepts s via i 0x01 2 →
        ((∃ t ∈ s.frameTiles f, (s.tile t).hasEnded = false) →
          (y.st = .loaded → ∃ w : State, exec (.start via f) s = .next w ∧ Answered w via i 0x01 ∧
            w.frame f = { y with st := .running } ∧ (∀ g, g ≠ f → w.frame g = s.frame g) ∧
            ∀ t ∈ s.frameTiles f, w.tile t = (s.tile t).begin) ∧
          (y.st = .stopped → y.endedAll = false → ∃ w : State, exec (.start via f) s = .next w ∧
            Answered w via i 0x01 ∧ w.frame f = { y with st := .running } ∧ w.tiles = s.tiles)) ∧
        ((∀ t ∈ s.frameTiles f, (s.tile t).hasEnded = true) → y.st = .loaded ∨ y.st = .stopped ∧ y.endedAll = false →
          ∃ w : State, exec (.start via f) s = .next w ∧ Answered w via i 0x01 ∧
            w.frame f = { y with st := .stopped, endedAll := true } ∧ ∀ g, g ≠ f → w.frame g = s.frame g)) ∧
      (Accepts s via i 0x01 3 → y.st = .running → ∃ w : State, exec (.stop via f) s = .next w ∧
        Answered w via i 0x01 ∧ w.frame f = { y with transition := some .stop } ∧ w.tiles = s.tiles) ∧
      (Accepts s via i 0x01 4 → y.st = .stopped ∨ y.st = .faulted → ∃ w : State, exec (.reset via f) s = .next w ∧
        Answered w via i 0x01 ∧ (w.frame f).st = y.st ∧ (w.frame f).latched = y.latched ∧
        (w.frame f).transition = some .reset ∧
        ∀ l, y.latched = some l → (y.step, l.job) ∈ (w.frame f).downs) ∧
      (y.st = .loaded ∨ y.st = .stopped ∨ y.st = .faulted →
        (Accepts s via i 0x01 5 → ∃ w : State, exec (.selftest via f) s = .next w ∧ Answered w via i 0x01 ∧
          (w.frame f).st = .selftest ∧ (w.frame f).latched = y.latched ∧ (w.frame f).queue = []) ∧
        (Accepts s via i 0x01 6 → ∃ w : State, exec (.unload via f) s = .next w ∧ Answered w via i 0x01 ∧
          (w.frame f).st = .empty ∧ (w.frame f).latched = none ∧ (w.frame f).queue = [])))) ∧
  ∀ (s : State) (f : Fin 8) (l : Latched), s.inv = true → (s.frame f).latched = some l →
    let fresh := fun w : State => (w.frame f).st = .loaded ∧
      (w.frame f).transition = none ∧ (w.frame f).step = l.initialStep ∧ (w.frame f).supersteps = 0 ∧
      (w.frame f).causeHeld = false ∧ ∀ g, g ≠ f → w.frame g = s.frame g
    let again := fun w v : State => fresh w ∧
      (w.frame f).latched = some { l with image := ((v.countTurn f).reloadSet f l).1.image }
    (s.bandPending l = false →
      ((s.frame f).transition = some .load → ∃ w : State, exec (.loadComplete f) s = .next w ∧ fresh w ∧
        (w.frame f).latched = some l ∧ w.odGet (frameIndex f) 0x0C 0 = 0 ∧ w.odGet (0x2D10 + f.val) 0x05 0 = 0) ∧
      ((s.frame f).transition = some .reset → ∃ w : State, exec (.resetComplete f) s = .next w ∧ again w s ∧
        w.odGet (frameIndex f) 0x0C 0 = 0) ∧
      (∀ rows, (s.frame f).st = .selftest →
        let own := s.failRows (rows.filter fun p => s.frameHas f p.1 && decide (p.2 < 896))
        own.1 = [] → ∃ w : State, exec (.selftestComplete f ⟨rows, none⟩) s = .next w ∧ again w own.2)) ∧
    (∀ rows t kind, (s.frame f).st = .selftest → ∃ w : State,
      exec (.selftestComplete f ⟨rows, some (t, kind)⟩) s = .next w ∧ (w.frame f).st = .faulted ∧
        ((s.frame f).causeHeld = false → w.odGet (frameIndex f) 0x0C 0 = 0x000C)) ∧
    (∀ b v, l.ref % 4096 = 0 → s.readSet l.ref = (.ok b, v) → ∀ ts, tileImages l b = some ts →
      tidsOk l b ts = true → v.portsLeave f l ts = false → (s.reloadSet f l).1 = { l with image := b }) ∧
    ((s.frame f).st = .running → (s.frame f).transition = some .stop → ∃ w : State,
      exec (.stopTimeout f) s = .next w ∧ (w.frame f).st = .faulted ∧ (w.frame f).transition = none ∧
        (∀ t ∈ s.frameTiles f, ∀ p ∈ (w.tile t).tags, ∀ o, p.2 = some o → o.gone = true) ∧
        (∀ g, g ≠ f → w.frame g = s.frame g) ∧
        ((s.frame f).causeHeld = false → w.odGet (frameIndex f) 0x0C 0 = 0x0001 ∧
          Logged s w 0x0100 (1 + f.val * 2 ^ 16)))

/-- Columns (R24–R27, R48): marking makes an enabled column pending and faults the frames that hold it;
applied while every frame is EMPTY, pending columns are retired together and the width falls to what both
halves can fill. -/
def Obligations.ColumnRetirement : Prop :=
  ∀ (s : State) (via : Path), s.inv = true →
    (∀ col : Byte, Accepts s via 0x2012 0x03 col.toNat →
      (s.grid.columns.getD col.toNat .factoryBad = .enabled → ∃ w : State,
        exec (.markColumnPending via col) s = .next w ∧
        Answered w via 0x2012 0x03 ∧ w.grid.columns = s.grid.columns.set col.toNat .pending ∧
        w.grid.width = s.grid.width ∧
        ∀ f : Fin 8, (s.holdsColumn f (s.grid.columnMap.idxOf col.toNat) = true → (w.frame f).st = .faulted) ∧
          (s.holdsColumn f (s.grid.columnMap.idxOf col.toNat) = false → w.frame f = s.frame f)) ∧
      (s.grid.columns.getD col.toNat .factoryBad ≠ .enabled → ∃ w : State,
        exec (.markColumnPending via col) s = .next w ∧ w.grid = s.grid ∧ w.frames = s.frames)) ∧
    (Accepts s via 0x2012 0x02 1 → s.allEmpty = true →
      let n := s.grid.columns.countP (· == .pending)
      ∃ w : State, exec (.applyRetirements via) s = .next w ∧ Answered w via 0x2012 0x02 ∧ w.frames = s.frames ∧
        (n = 0 → w.grid = s.grid ∧ w.mem = s.mem ∧ w.tiles = s.tiles) ∧
        (n ≠ 0 → (∀ c ∈ w.grid.columns, c ≠ .pending) ∧ w.grid.width < max s.grid.width 1 ∧
          w.grid.width ∈ [46, 44, 0] ∧ w.odGet 0x2012 0x04 0 = satAdd 8 (s.odGet 0x2012 0x04 0) n ∧
          (∀ t x o, movedTile s.grid s.grid.retire t = some x → o < 0x70000 →
            w.mem.byte (mainAddr x o) = s.mem.byte (mainAddr t o))))

/-- Mailboxes (R236, R237, R446): a queue holds 16 words, a word written to a full one is dropped and counted,
the receiver takes the oldest or reads 0 from an empty one, and a queue not read in time sets its flag and
records the state of its receiver; MB_CLEAR clears the flags of the side that writes it. While the host does
not reach the device, or the device starts up, what the host does here has no effect. Doorbells (R238, R447,
R455): each side sets its own bits and clears the other's; bit 63 of DB_S2H is the window's alone; vector 10
follows a bit that goes from 0 to 1: it is sent where nothing holds it back, and pends otherwise. What the
host does has no effect while it does not reach the device or the device starts up. -/
def Obligations.MailboxesAndDoorbells : Prop :=
  (∀ (s : State) (i : Fin 8) (x : W32), s.inv = true →
    let p := s.mailPair i
    let others := fun w : State => (∀ j : Fin 8, j ≠ i → w.mailPair j = s.mailPair j) ∧ w.tiles = s.tiles ∧
      w.mem = s.mem
    let reach := s.hostReaches = true ∧ s.startingUp = false
    (¬ reach → exec (.h2sData i x) s = .next s ∧ exec (.s2hData i) s = .next s ∧
      exec (.mbClear i true x) s = .next s) ∧
    (reach →
      (p.h2s.words.length < 16 → ∃ w : State, exec (.h2sData i x) s = .next w ∧ others w ∧ w.od = s.od ∧
        w.mailPair i = { p with h2s := { p.h2s with words := p.h2s.words ++ [x] } }) ∧
      (16 ≤ p.h2s.words.length → ∃ w : State, exec (.h2sData i x) s = .next w ∧ others w ∧
        w.mailPair i = { p with h2s := { p.h2s with overflow := true } } ∧
        w.odGet 0x2712 0x01 0 = satAdd 32 (s.odGet 0x2712 0x01 0) 1) ∧
      (∀ y ys, p.s2h.words = y :: ys → ∃ w : State, exec (.s2hData i) s = .next w ∧ others w ∧
        w.out = .mailbox i.val y :: s.out ∧
        w.mailPair i = { p with s2h := { p.s2h with words := ys, timeout := false } }) ∧
      (p.s2h.words = [] → ∃ w : State, exec (.s2hData i) s = .next w ∧ others w ∧
        w.out = .mailbox i.val 0 :: s.out ∧ w.mailPair i = p) ∧
      (∃ w : State, exec (.mbClear i true x) s = .next w ∧ others w ∧
        (w.mailPair i).h2s.words = p.h2s.words ∧ (w.mailPair i).s2h.words = p.s2h.words ∧
        (w.mailPair i).h2s.timeout = (p.h2s.timeout && !x.getLsbD 6) ∧
        (w.mailPair i).h2s.overflow = (p.h2s.overflow && !x.getLsbD 7) ∧
        (w.mailPair i).s2h.overflow = (p.s2h.overflow && !x.getLsbD 15) ∧
        (w.mailPair i).s2h.timeout = p.s2h.timeout)) ∧
    (∃ w : State, exec (.mbClear i false x) s = .next w ∧ others w ∧
      w.mailPair i = { p with s2h := { p.s2h with timeout := p.s2h.timeout && !x.getLsbD 14 } }) ∧
    (p.s2h.words.length < 16 → ∃ w : State, exec (.supervisorMailboxWrite i x) s = .next w ∧ others w ∧
      w.mailPair i = { p with s2h := { p.s2h with words := p.s2h.words ++ [x] } } ∧
      (p.s2h.words ≠ [] → w.out = s.out ∧ w.host = s.host)) ∧
    (16 ≤ p.s2h.words.length → ∃ w : State, exec (.supervisorMailboxWrite i x) s = .next w ∧ others w ∧
      w.mailPair i = { p with s2h := { p.s2h with overflow := true } } ∧
      w.odGet 0x2712 0x01 0 = satAdd 32 (s.odGet 0x2712 0x01 0) 1) ∧
    (∀ y ys, p.h2s.words = y :: ys → ∃ w : State, exec (.supervisorMailboxRead i) s = .next w ∧ others w ∧
      w.mailPair i = { p with h2s := { p.h2s with words := ys, timeout := false } } ∧
      w.out = .mailbox (8 + i.val) y :: s.out) ∧
    (p.h2s.words = [] → ∃ w : State, exec (.supervisorMailboxRead i) s = .next w ∧ others w ∧ w.mailPair i = p ∧
      w.out = .mailbox (8 + i.val) 0 :: s.out) ∧
    (p.h2s.words = [] ∨ p.h2s.timeout = true → exec (.mailboxTimeout i true) s = .next s) ∧
    (p.s2h.words = [] ∨ p.s2h.timeout = true → exec (.mailboxTimeout i false) s = .next s) ∧
    (p.h2s.words ≠ [] → p.h2s.timeout = false → ∃ w : State, exec (.mailboxTimeout i true) s = .next w ∧ others w ∧
      w.mailPair i = { p with h2s := { p.h2s with timeout := true }, supState := s.supervisorReceiver } ∧
      w.odGet 0x2712 0x02 0 = satAdd 32 (s.odGet 0x2712 0x02 0) 1) ∧
    (p.s2h.words ≠ [] → p.s2h.timeout = false → ∃ w : State, exec (.mailboxTimeout i false) s = .next w ∧ others w ∧
      w.mailPair i = { p with s2h := { p.s2h with timeout := true }, hostState := s.hostReceiver } ∧
      w.odGet 0x2712 0x02 0 = satAdd 32 (s.odGet 0x2712 0x02 0) 1)) ∧
  ∀ (s : State) (x : W64),
    let reach := s.hostReaches = true ∧ s.startingUp = false
    (reach →
      exec (.dbH2s x) s = .next { s with host := { s.host with dbH2s := s.host.dbH2s ||| x } } ∧
      exec (.dbS2h x) s = .next { s with host := { s.host with dbS2h := s.host.dbS2h &&& ~~~x } }) ∧
    (¬ reach → exec (.dbH2s x) s = .next s ∧ exec (.dbS2h x) s = .next s) ∧
    (∃ w : State, exec (.supervisorDoorbellSet x) s = .next w ∧
      (∀ b < 63, w.host.dbS2h.getLsbD b = (s.host.dbS2h.getLsbD b || x.getLsbD b)) ∧
      w.host.dbS2h.getLsbD 63 = s.host.dbS2h.getLsbD 63 ∧
      ((∀ b < 63, x.getLsbD b = true → s.host.dbS2h.getLsbD b = true) → w.out = s.out) ∧
      ((∃ b < 63, x.getLsbD b = true ∧ s.host.dbS2h.getLsbD b = false) →
        (s.vectorsHeld = false → s.host.vectorMasked 10 = false → w.out = .msix 10
          (s.host.tableWord 40 + 2 ^ 32 * s.host.tableWord 41) (s.host.tableWord 42) :: s.out) ∧
        (s.vectorsHeld = true ∨ s.host.vectorMasked 10 = true → w.out = s.out ∧ 10 ∈ w.host.msixPending))) ∧
    ∃ w : State, exec (.supervisorDoorbellClear x) s = .next w ∧
      (∀ b < 64, w.host.dbH2s.getLsbD b = (s.host.dbH2s.getLsbD b && !x.getLsbD b)) ∧ w.host.dbS2h = s.host.dbS2h

/-- The numerics watch (R201, R202, R210, R211): a changed slot is copied to its line, a record joins the
collector while its frame runs or is stopped, unless it comes poisoned, and a shadow job posts its divergence
into its tensor's entry, in stack memory that can be written, and histogram. The close of a step at the watch
collector (R202, R203, R205, R207, R208): once a frame's oldest open step is whole and no snapshot copies,
every tracked tensor takes its records into the history and the totals of its entry, in stack memory that can
be written, the tiles take the scales of the entries, and the posts go. -/
def Obligations.NumericsWatch : Prop :=
  (∀ (s : State) (t : Nat) (f : Fin 8), s.inv = true → t < s.tileCount → s.frameOf t = some f →
    (∀ (k : Fin 16) (line : List Byte) (v : State), s.tileLives t = true → k.val < (s.tile t).decl.watchLines →
      ((s.tile t).watchSlot k.val).dirty = true →
      s.readLine t ((s.tile t).decl.watchFirst + k.val) = (⟨line, false⟩, v) →
      ∃ w : State, exec (.watchLineCopy t k) s = .next w ∧ w.mem = v.mem ∧ w.frames = v.frames ∧
        (w.tile t).core = (v.tile t).core ∧
        (w.tile t).watch.slots = smod {} (v.tile t).watch.slots k.val (fun x => { x with dirty := false }) ∧
        (line.length = 64 → (s.tile t).decl.watchFirst + k.val < 128 →
          w.stat.read (statAddr t (64 * ((s.tile t).decl.watchFirst + k.val))) 64 =
            ((s.tile t).watchSlot k.val).lineBytes line)) ∧
    (∀ r : WatchPost,
      ((s.frame (frameIx (postFrame r))).watched = true → exec (.watchRecordArrival r false) s =
        .next { s with posting := s.posting.erase r, posts := s.posts ++ [r] }) ∧
      ((s.frame (frameIx (postFrame r))).watched = false → exec (.watchRecordArrival r false) s = .next s) ∧
      ∃ w : State, exec (.watchRecordArrival r true) s = .next w ∧ w.posts = s.posts ∧
        w.posting = s.posting.erase r ∧ w.odGet 0x2703 0x01 0 = satAdd 32 (s.odGet 0x2703 0x01 0) 1) ∧
    (∀ (j : ShadowJob) (as : Option (List W32)) (v : State), (s.frame f).st = .running → (s.tile t).watch.job = some j →
      s.shadowResult t j = (as, v) →
      let e := match as with | some xs => divergence j.retained xs | none => f32NaN
      ∃ w : State, exec (.shadowJobComplete t) s = .next w ∧ (w.tile t).watch.job = none ∧
        (w.tile t).core = (v.tile t).core ∧
        (w.tile t).watch.slots = smod {} (v.tile t).watch.slots j.slot (fun x =>
          { x with flags := putBit x.flags 1 false, shadow := e, dirty := true }) ∧
        (WatchPlaced v j.tid → (w.watchEntry j.tid).samples = satAdd 32 (v.watchEntry j.tid).samples 1 ∧
          (w.watchEntry j.tid).maxShadow = f32Max (v.watchEntry j.tid).maxShadow e ∧
          sget 0 (w.watchEntry j.tid).bins (shadowBin e) =
            satAdd 32 (sget 0 (v.watchEntry j.tid).bins (shadowBin e)) 1 ∧
          (w.watchEntry j.tid).history = (v.watchEntry j.tid).history))) ∧
  ∀ (s : State) (f : Fin 8) (l : Latched) (n : Nat), s.inv = true → (s.frame f).latched = some l →
    s.openStep f = some n →
    (s.stepWhole f n = true → s.closesDeferred f = false →
      ∃ v : State, exec (.watchStepClose f) s = .next
        (({ (v.watchTiles f).foldl (fun (u : State) t => u.deliverScales f n t) v with
          posts := ((v.watchTiles f).foldl (fun (u : State) t => u.deliverScales f n t) v).posts.filter
            fun p => !(postFrame p == f.val && postStep p == n) }).modFrame f fun y =>
              { y with scanBad := y.scanBad.filter fun q => decide (n < q) }) ∧
        v.posts = s.posts ∧ v.frames = s.frames ∧ v.tiles = s.tiles ∧
        (∀ tid r, (tid, r) ∈ l.watch → (l.watch.map (·.1)).Nodup → watchLength r ≤ 32 → WatchPlaced s tid →
          let x := s.posts.foldl (fun a p => a.add f.val tid n p) ({} : StepSum)
          let e := s.watchEntry tid
          (v.watchEntry tid).step = n % 2 ^ 64 ∧ (v.watchEntry tid).sat = satAdd 64 e.sat x.sat ∧
          (v.watchEntry tid).flush = satAdd 64 e.flush x.flush ∧
          (x.amax = none → (v.watchEntry tid).history = e.history ∧ (v.watchEntry tid).lastAmax = e.lastAmax) ∧
          (∀ a, x.amax = some a → (v.watchEntry tid).history = (a :: e.history).take (watchLength r) ∧
            (v.watchEntry tid).lastAmax = a)) ∧
        ∀ tid, tid ∉ l.watch.map (·.1) → s.watchPlace tid + 512 ≤ 4 * stackSize → v.watchEntry tid = s.watchEntry tid) ∧
    (s.stepWhole f n = false ∨ s.closesDeferred f = true → exec (.watchStepClose f) s = .next s)

/-- Scrub passes (R297–R300): a start that passes its checks clears the summary and runs from its first
address; each read skips what the pass may not touch, or waits for what retires, or reads one row or block,
counts its corrected and its uncorrectable errors, and holds what its mode writes back; the next one writes it
back, unless the place has been written since, and the one after reads a corrected place again and counts a
repeat; a pass that reaches its end is done. -/
def Obligations.ScrubPasses : Prop :=
  ∀ (s : State) (via : Path) (u : Fin 5), s.inv = true →
    let i := scrubIndex u
    (Accepts s via i 0x01 1 →
      (s.scrubRefused u = false → ∃ w : State, exec (.scrubStart via u) s = .next w ∧ Answered w via i 0x01 ∧
        w.scrub u = { running := true } ∧ w.odGet i 0x05 0 = 1 ∧ w.odGet i 0x06 0 = s.odGet i 0x03 0 ∧
        (∀ n ∈ [0x07, 0x08, 0x0B, 0x0D], w.odGet i n 0 = 0) ∧ w.odGet i 0x09 0 = 2 ^ 64 - 1 ∧
        w.odGet i 0x0A 0 = 2 ^ 64 - 1 ∧ ∀ j : Fin 5, j ≠ u → w.scrub j = s.scrub j) ∧
      (s.scrubRefused u = true → ∃ w : State, exec (.scrubStart via u) s = .next w ∧ w.odGet i 0x05 0 = 4 ∧
        w.scrubs = s.scrubs ∧ w.out.head? = some (.value via (odKey i 0x01) abortState []))) ∧
    (Accepts s via i 0x01 2 → (s.scrub u).running = true → ∃ w : State, exec (.scrubAbort via u) s = .next w ∧
      Answered w via i 0x01 ∧ (w.scrub u).running = false ∧ (w.scrub u).writeBack = none ∧ w.odGet i 0x05 0 = 3) ∧
    (Accepts s via i 0x01 2 → (s.scrub u).running = false → ∃ w : State, exec (.scrubAbort via u) s = .next w ∧
      Answered w via i 0x01 ∧ w.scrubs = s.scrubs ∧ w.mem = s.mem) ∧
    ((s.scrub u).running = true →
      let a := s.odGet i 0x06 0
      let reads := (s.scrub u).writeBack = none ∧ (s.scrub u).recheck = none ∧ a < s.odGet i 0x04 0
      (∀ b, (s.scrub u).writeBack = some b → ∃ w : State, exec (.scrubRead u) s = .next w ∧
        (w.scrub u).writeBack = none ∧
        (s.scrubErrs u b.addr = b.seen → w.mem = (s.scrubWrite b.addr b.data b.poison).mem ∧
          (w.scrub u).recheck = if b.poison then none else some b.addr) ∧
        (s.scrubErrs u b.addr ≠ b.seen → w.mem = s.mem ∧ (w.scrub u).recheck = (s.scrub u).recheck)) ∧
      (∀ c, (s.scrub u).writeBack = none → (s.scrub u).recheck = some c →
        let x := s.scrubLook c
        ∃ w : State, exec (.scrubRead u) s = .next w ∧
          (w.scrub u).recheck = none ∧ w.odGet i 0x06 0 = x.s.odGet i 0x06 0 ∧
          (x.ce = false → x.ue = false → w.odGet i 0x0B 0 = x.s.odGet i 0x0B 0) ∧
          (x.ce = true ∨ x.ue = true → w.odGet i 0x0B 0 = satAdd 32 (x.s.odGet i 0x0B 0) 1)) ∧
      (∀ n, reads → s.scrubPass u a = some n → ∃ w : State, exec (.scrubRead u) s = .next w ∧
        w.odGet i 0x06 0 = min (a + n) (s.odGet i 0x04 0) ∧ { w with od := s.od } = s ∧
        w.odGet i 0x0D 0 = satAdd 64 (s.odGet i 0x0D 0) (if u.val = 0 then rowBytes a (min (a + n) (s.odGet i 0x04 0))
          else min (a + n) (s.odGet i 0x04 0) - a)) ∧
      (reads → s.scrubPass u a = none → u.val ≠ 0 → s.placeRetiring a = true → exec (.scrubRead u) s = .next s) ∧
      (reads → s.scrubPass u a = none → (u.val ≠ 0 → s.placeRetiring a = false) →
        (u.val = 0 → (a - mainBase) % 0x80000 / 512 < 896) →
        let x := s.scrubLook a
        ∃ w : State, exec (.scrubRead u) s = .next w ∧ w.odGet i 0x06 0 = a + scrubUnit u ∧ w.mem = x.s.mem ∧
          w.odGet i 0x07 0 = (if x.ce then satAdd 32 (x.s.odGet i 0x07 0) 1 else x.s.odGet i 0x07 0) ∧
          w.odGet i 0x08 0 = (if x.ue then satAdd 32 (x.s.odGet i 0x08 0) 1 else x.s.odGet i 0x08 0) ∧
          w.odGet i 0x0D 0 = (if x.poison then satAdd 64 (x.s.odGet i 0x0D 0) (scrubUnit u) else x.s.odGet i 0x0D 0) ∧
          (w.scrub u).writeBack = (if x.poison = true ∨ (x.ue = false ∧ x.ce = false) then none
            else if x.ue = true then (if s.odGet i 0x02 0 = 2 then some ⟨a, x.data, true, s.scrubErrs u a⟩ else none)
            else if s.odGet i 0x02 0 = 0 then none else some ⟨a, x.data, false, s.scrubErrs u a⟩)) ∧
      ((s.scrub u).writeBack = none → (s.scrub u).recheck = none → s.odGet i 0x04 0 ≤ a →
        ∃ w : State, exec (.scrubPassDone u) s = .next w ∧ (w.scrub u).running = false ∧ w.odGet i 0x05 0 = 2 ∧
          w.mem = s.mem ∧ w.tiles = s.tiles))

/-- Stacks (R276, R277, R301–R303): a refresh changes no content, a periodic check records the temperature and
the on-die reports, and a pseudo-channel retires when its transactions have drained: the frames that hold its
channel fault. Targeted tests (R86–R88, R409–R412, R431): a pending row that fails takes a free spare of its
bank, one that passes is written back and logged, unless it has passed too often; where no spare is free the
tile's column becomes pending. A pending pseudo-channel that fails begins to retire, one that passes is
logged; the host starts the tests of the pseudo-channels that are pending then; the fault log is copied to
flash while the power is on. -/
def Obligations.StackRetirementAndTests : Prop :=
  (∀ (s : State), s.inv = true →
    (∀ stack : Fin 4, exec (.stackRefresh stack) s = .next s) ∧
    (∀ (stack : Fin 4) (temp : Int) (pc n : Nat), pc / 64 = stack.val →
      ∃ w : State, exec (.stackPeriodicCheck stack temp [(pc, n)]) s = .next w ∧
        w.odGet 0x2812 (1 + stack.val) 0 = unsigned 16 temp ∧
        w.odGet 0x2812 (5 + stack.val) 0 = (if 85 < temp then 1 else 0) ∧
        w.pcOf pc = { s.pcOf pc with onDie := satAdd 32 (s.pcOf pc).onDie n } ∧
        (∀ q, q ≠ pc → w.pcOf q = s.pcOf q) ∧ w.mem = s.mem) ∧
    (∀ (via : Path) (v : W16), Accepts s via 0x2803 0x01 v.toNat →
      let pc := retireTarget v.toNat
      ∃ w : State, exec (.retirePseudoChannel via v) s = .next w ∧ Answered w via 0x2803 0x01 ∧
        (s.pcBacked pc = true → (s.pcOf pc).retiring = none → w.pcOf pc = { s.pcOf pc with retiring := some 3 }) ∧
        ∀ q, q ≠ pc → w.pcOf q = s.pcOf q) ∧
    ∀ (pc : Fin 256) (r : Nat), (s.pcOf pc.val).retiring = some r →
      ∃ w : State, exec (.pseudoChannelRetirementDrained pc) s = .next w ∧
        w.pcOf pc.val = { s.pcOf pc.val with state := r, retiring := none } ∧
        w.odGet 0x2803 0x01 0 = retireValue pc.val ∧ (∀ p ∈ w.tests.pcs, p.1 ≠ pc.val) ∧
        (∀ f : Fin 8, (s.holdsChannel f pc.val = true → (w.frame f).st = .faulted) ∧
          (s.holdsChannel f pc.val = false → w.frame f = s.frame f)) ∧
        ((∀ f : Fin 8, s.holdsChannel f pc.val = false) → Logged s w 0x0302 (pc.val + r * 2 ^ 8))) ∧
  ∀ (s : State), s.inv = true →
    (∀ (t row : Nat) (data : List Byte) (bad : Bool) (v : State), t < s.tileCount → (t, row) ∈ s.tests.rows →
      s.mayTest t = true → s.draw.2.readRow t row (Config.openRequester s.draw.1 % 8) = (⟨data, bad⟩, v) →
      (∀ n, (v.tile t).freeSpare (row / 128) = some n → ∃ w : State, exec (.rowTest t row true) s = .next w ∧
        (w.tile t).spares = sput 0 (v.tile t).spares (4 * (row / 128) + n) (row + 1) ∧
        w.tests.rows = v.tests.rows.erase (t, row) ∧ Logged v w 0x0202 (t + row * 2 ^ 16) ∧
        (∀ j, j ≠ t → w.tile j = v.tile j)) ∧
      ((v.tile t).freeSpare (row / 128) = none →
        v.grid.columns.getD (v.physicalColumn (v.tileCol t)) .factoryBad = .enabled →
        ∃ w : State, exec (.rowTest t row true) s = .next w ∧
          w.grid.columns = v.grid.columns.set (v.physicalColumn (v.tileCol t)) .pending) ∧
      (v.tooManyPasses ((v.tests.rowPasses.filter fun p => p.1 == (t, row)).map (·.2)) = false →
        ∃ w : State, exec (.rowTest t row false) s = .next w ∧
          w.tests.rows = v.tests.rows.erase (t, row) ∧
          w.tests.rowPasses = ((t, row), v.supCycles) :: v.tests.rowPasses ∧
          Logged v w 0x0201 (t + row * 2 ^ 16) ∧ (w.tile t).spares = (v.tile t).spares)) ∧
    (∀ via : Path, Accepts s via 0x2D02 0x05 1 → ∃ w : State,
      exec (.runPseudoChannelTests via) s = .next w ∧ Answered w via 0x2D02 0x05 ∧
        w.tests = { s.tests with pcsForced := s.tests.pcs.map (·.1) }) ∧
    (∀ (pc : Fin 256) (blk : Nat), s.tests.pcs.find? (fun p => p.1 == pc.val) = some (pc.val, blk) →
      s.mayTestPc pc.val = true →
      let v := s.restoreBlocks (s.placeAddr pc.val (blk * 4096))
      (∃ w : State, exec (.pseudoChannelTest pc true) s = .next w ∧
        w.tests.pcs = v.tests.pcs.filter (fun q => q.1 != pc.val) ∧
        (v.pcBacked pc.val = true → (v.pcOf pc.val).retiring = none → (w.pcOf pc.val).retiring = some 1) ∧
        w.odGet 0x2D02 0x09 0 = satAdd 32 (v.odGet 0x2D02 0x09 0) 1) ∧
      (v.tooManyPasses ((v.tests.pcPasses.filter fun q => q.1 == pc.val).map (·.2)) = false →
        ∃ w : State, exec (.pseudoChannelTest pc false) s = .next w ∧
          w.tests.pcPasses = (pc.val, v.supCycles) :: v.tests.pcPasses ∧ w.pcs = v.pcs ∧
          Logged v w 0x0301 (pc.val + blk * 2 ^ 8))) ∧
    (s.power.on = true → exec .faultLogFlashCopy s = .next { s with flash := { s.flash with
      log := s.log, logged := s.odGet 0x2D00 0x05 0, overwritten := s.odGet 0x2D00 0x06 0 } }) ∧
    (s.power.on = false → exec .faultLogFlashCopy s = .next s)

/-- A segment at its owner (R317–R320): the first check that fails refuses it, changing only counts; a segment
that passes opens a context where there is none, is added, outside the MAX phase, to the sum area, renews the
lease, and the last one of a contribution counts its contributor and the largest M, that of a retraction takes
it back; the context that has counted every contributor is CLOSING. The life of a tally context (R310, R314,
R321–R323, R432): a CLOSING context is CLOSED with its order, goes from MAX to data with E = M + 1, or is
measured again where the bound fails; a lease that runs out discards it, is logged and reported to the keeper
with the members that it lacks; a discard ends with the sum area zero, as far as no pseudo-channel retires
under it; a notice of an exponent reaches the exponent table, and one that asks for MAX segments or data has
the bucket's records sent again. -/
def Obligations.TallyOwner : Prop :=
  (∀ (s : State) (src : TallySource) (header : BitVec 128) (data : List Byte), s.inv = true →
    let h := tallyHeader header
    let pairs := segmentPairs h data
    let v := s.ownerView h
    let c := v.2.ownerCheck v.1 src h pairs
    (5 ≤ h.op → exec (.tallySegmentArrival src header data) s = .next s) ∧
    (h.op < 5 → c.1 ≠ 0 → ∃ u : State,
      exec (.tallySegmentArrival src header data) s = .next (u.answerTally src c.1 c.2) ∧ u.mem = v.2.mem ∧
      u.odGet 0x2901 0x03 0 = satAdd 64 (v.2.odGet 0x2901 0x03 0) 1 ∧
      (∀ n x, v.1.ctx = some (n, x) → u.ctxAt n = some { x with refused := satAdd 32 x.refused 1 }) ∧
      (v.1.ctx = none → u.contexts = v.2.contexts)) ∧
    (∀ n x, h.op < 5 → c.1 = 0 → v.1.ctx = some (n, x) → ∃ u : State,
      exec (.tallySegmentArrival src header data) s = .next (u.answerTally src 0 0) ∧
      let y := { x with leaseFrom := v.2.supCycles, accepted := satAdd 32 x.accepted 1 }
      (h.last = false → x.st = .opened → x.n ≠ x.nExp → u.ctxAt n = some y) ∧
      (h.last = true → h.retract = false → x.st = .opened → x.n + 1 < x.nExp → u.ctxAt n =
        some { y with bits := h.contributor :: x.bits, n := x.n + 1, m := max x.m h.m }) ∧
      (h.last = true → h.retract = false → x.st = .opened → x.n + 1 = x.nExp → u.ctxAt n =
        some { y with bits := h.contributor :: x.bits, n := x.n + 1, m := max x.m h.m, st := .closing }) ∧
      (h.last = true → h.retract = true → x.st = .retracting →
        let left := x.excluded.erase h.contributor
        u.ctxAt n = some { y with
          bits := x.bits.erase h.contributor, n := x.n - 1, excluded := left
          st := if left ≠ [] then .retracting else if x.n - 1 = x.nExp then .closing else .opened }) ∧
      (x.maxPhase = true → u.mem = v.2.mem) ∧ (x.maxPhase = false → u.mem = (v.2.addPairs x pairs).mem)) ∧
    (∀ n b, h.op < 5 → c.1 = 0 → v.1.ctx = none → v.1.rec? = some b → v.2.freeCtx (v.2.channelOf b.sum) = some n →
      ∃ (u : State) (x : TallyCtx), exec (.tallySegmentArrival src header data) s = .next (u.answerTally src 0 0) ∧
        u.ctxAt n = some x ∧ x.job = h.job ∧ x.epoch = h.epoch ∧ x.bucket = h.bucket ∧ x.sum = b.sum ∧
        x.elements = b.elements ∧ x.group = v.1.group ∧ x.float = (b.mode == 2) ∧
        x.step = (v.2.roll (jobIx h.job)).step ∧ x.revision = (v.2.roll (jobIx h.job)).revision ∧
        x.nExp = expectedCount v.1.group (v.2.roll (jobIx h.job)).members ∧
        x.maxPhase = (openPhase b v.1.last).1 ∧ x.e = (openPhase b v.1.last).2 ∧ x.accepted = 1 ∧
        x.leaseFrom = v.2.supCycles ∧ x.n = (if h.last then 1 else 0) ∧
        x.bits = (if h.last then [h.contributor] else [])) ∧
    ∀ (t : State) (x : TallyCtx) (i val : Nat), t.mem.wf = true → x.sum % 64 = 0 →
      let w := if x.float then 4 else 8
      let a := x.sum + w * i
      errsIn t.errs (a / 64 * 64) 64 = [] → t.placeRetiring (a / 64 * 64) = false →
      let old := sliceNat (t.blockBytes (a / 64 * 64)) (a % 64) w
      leNat ((t.addPairs x [(i, val)]).mem.read a w) =
        if x.float then (f32Add (BitVec.ofNat 32 old) (BitVec.ofNat 32 val)).toNat else (old + val) % 2 ^ 64) ∧
  ∀ (s : State) (c : Fin 16384) (x : TallyCtx), s.inv = true → s.ctxAt c.val = some x →
    let writable := ∀ i, i < ceilDiv x.bytes 64 → s.placeRetiring (x.sum + 64 * i) = false
    (x.st = .closing → ∃ u : State, exec (.tallyContextClose c) s = .next (u.checkClosed (jobIx x.job)) ∧
      (x.float = true → u.ctxAt c.val = some { x with st := .closed, order := s.closes } ∧ u.closes = s.closes + 1) ∧
      (x.float = false → x.maxPhase = true → u.ctxAt c.val = some { x with
        st := if x.nExp = 0 then .closing else .opened
        maxPhase := false, measured := true, n := 0, bits := [], e := x.m + 1 }) ∧
      (x.float = false → x.maxPhase = false → boundPasses x.n x.m x.e = true →
        u.ctxAt c.val = some { x with st := .closed, order := s.closes } ∧ u.closes = s.closes + 1) ∧
      (x.float = false → x.maxPhase = false → boundPasses x.n x.m x.e = false →
        u.ctxAt c.val = some { x with
          st := .opened, maxPhase := true, n := 0, bits := [], m := -149 } ∧
        (writable → ∀ a, x.sum ≤ a → a < x.sum + x.bytes → u.mem.byte a = 0) ∧ u.closes = s.closes)) ∧
    (x.st ≠ .closing → exec (.tallyContextClose c) s = .next s) ∧
    (x.st ≠ .opened → x.st ≠ .retracting → exec (.tallyLeaseExpiry c) s = .next s) ∧
    (x.st = .opened ∨ x.st = .retracting → x.discard = false → let devs := s.missing x
      ∃ u : State, exec (.tallyLeaseExpiry c) s = .next ((chunks 45 devs.length devs).foldl (fun (a : State) ds =>
        a.sendRoll (jobIx x.job) (a.keeperOf (jobIx x.job)) svcLease
          (leBytes 3 x.step ++ leBytes 2 ds.length ++ ds.flatMap fun d => leBytes 2 d)) u) ∧
      u.ctxAt c.val = some { x with st := .closed, discard := true } ∧
      u.odGet 0x2901 0x09 0 = satAdd 32 (s.odGet 0x2901 0x09 0) 1 ∧ Logged s u 0x0704 (x.job + x.bucket * 2 ^ 4)) ∧
    (x.discard = true → ∃ u : State, exec (.tallyDiscardComplete c) s = .next (u.checkClosed (jobIx x.job)) ∧
      u.ctxAt c.val = none ∧ (writable → ∀ a, x.sum ≤ a → a < x.sum + x.bytes → u.mem.byte a = 0) ∧
      ∀ n, n ≠ c.val → u.ctxAt n = s.ctxAt n) ∧
    (x.discard = false → exec (.tallyDiscardComplete c) s = .next s) ∧
    ∀ (header : BitVec 128) (i : Nat),
      let h := tallyHeader header
      let j := jobIx h.job
      let v := match s.noticeLink header with
        | some (k, y) => (s.takeTxn k y).ackTxn y.header 0
        | none => s
      let resends := fun (what : Option Int) (z : State) => (z.roll j).member = true → (z.roll j).isSealed = false →
        ∃ w : State, exec (.tallyNoticeReceive header) s = .next w ∧
          ∀ n ∈ z.recordsOf j h.bucket, (w.roll j).record n = ((z.roll j).record n).again what
      (h.op ≠ 5 → exec (.tallyNoticeReceive header) s = .next s) ∧
      (h.op = 5 → v.epochSlot j h.epoch = some i →
        (h.count = 0 → exec (.tallyNoticeReceive header) s = .next (v.setExp j i h.bucket (some h.e))) ∧
        (h.count = 1 → resends none (v.setExp j i h.bucket none) ∧
          ((v.roll j).member = false ∨ (v.roll j).isSealed = true →
            exec (.tallyNoticeReceive header) s = .next (v.setExp j i h.bucket none))) ∧
        (h.count = 2 → resends (some h.e) v))

/-- The tally senders (R312, R315, R318, R330): a record that is next in order is taken up, a source that
cannot be read or is not finite is a late fault, a retry takes a record set aside or a retraction refused; an
accepted answer is counted and settles the record, a status 0x5 stops the senders and one of R318's list is a
late fault, unless it answers a retraction; an answer to a segment of records since given up does nothing. -/
def Obligations.TallySenders : Prop :=
  ∀ (s : State) (j : Fin 16) (n : Nat), s.inv = true →
    let q := (s.roll j).record n
    (q.outstanding = 0 → n < s.sendCount j (s.sendSlot j) →
      (s.roll j).sends = true → q.st = .ready → s.inOrder j n = true →
      exec (.tallySendRecord j n) s = .next (s.sendRecord j n) ∧
      (∀ u : State, s.sendAt j n = (none, u) →
        ∃ w : State, exec (.tallySendRecord j n) s = .next w ∧
          (w.roll j).lateFault = some ((u.roll j).lateFault.getD 1) ∧
          w.odGet 0x2901 0x0D 0 = satAdd 32 (u.odGet 0x2901 0x0D 0) 1) ∧
      ∀ (u v : State) (x : SendEntry) (c : Contribution), s.sendAt j n = (some x, u) → u.contribution x = (c, v) →
        (∀ kind, c.late = some kind → ∃ w : State, exec (.tallySendRecord j n) s = .next w ∧
          (w.roll j).lateFault = some ((v.roll j).lateFault.getD kind)) ∧
        (c.late = none → ∃ (y : State) (segs : List (BitVec 128 × List Byte)),
          exec (.tallySendRecord j n) s =
            .next (segs.foldl (fun (a : State) p => a.sendSegment j n x (v.sendFrame j x) p) y) ∧
          (y.roll j).records = smod {} (v.roll j).records n (fun r => { r with
            st := .inFlight, max := (v.nextSend j x q).isNone, e := (v.nextSend j x q).getD 0, refused := false
            next := if (v.nextSend j x q).isNone then some none else r.next }))) ∧
    (q.outstanding = 0 → n < s.sendCount j (s.sendSlot j) → q.st = .retracting → (s.roll j).stopped = false →
      exec (.tallySendRecord j n) s = .next (s.sendRecord j n)) ∧
    (s.sendCount j (s.sendSlot j) ≤ n ∨ q.outstanding ≠ 0 → exec (.tallySendRecord j n) s = .next s) ∧
    (q.outstanding = 0 →
      (q.st = .setAside ∧ (s.roll j).sends = true) ∨
        (q.st = .retracting ∧ q.refused = true ∧ (s.roll j).stopped = false) →
      exec (.tallyRetry j n) s = .next (s.sendRecord j n)) ∧
    (q.outstanding ≠ 0 → exec (.tallyRetry j n) s = .next s) ∧
    ∀ (step : Nat) (revision status : Fin 16) (e : BitVec 12),
      (q.outstanding = 0 ∨ (s.roll j).sentNow step revision.val = false →
        exec (.tallyAckReceive j n step revision status e) s = .next s) ∧
      (q.outstanding ≠ 0 → (s.roll j).sentNow step revision.val = true → ∃ u : State,
      exec (.tallyAckReceive j n step revision status e) s = .next (u.checkSent j) ∧
      (status.val = 0 → ∃ y : Roll, u.roll j = { y with records := smod {} y.records n fun r => r.settle y.member } ∧
        y.records = smod {} (smod {} (s.roll j).records n fun r => { r with outstanding := r.outstanding - 1 }) n
          fun r => { r with accepted := if r.st = .inFlight ∨
            r.st = .retracting then r.accepted + 1 else r.accepted }) ∧
      (lateStatus status.val = true → q.st ≠ .retracting →
        (u.roll j).lateFault = some ((s.roll j).lateFault.getD 2)) ∧
      (status.val = 5 → (u.roll j).stopped = true) ∧
      (lateStatus status.val = false ∨ q.st = .retracting → (u.roll j).lateFault = (s.roll j).lateFault))

/-- Roll-call answers (R213, R325, R326, R416): a device answers a step once, when every frame of the job has
come to it, READY unless the scans of its frames found a non-finite gradient, one of them went down in the
step, or the host has asked for it; the keeper holds an answer in time and counts a late one. At the deadline,
or once every device has answered, it fixes revision 0 with the devices that answered READY, and sends it when
it has no former step open. -/
def Obligations.RollCallAnswers : Prop :=
  ∀ (s : State) (j : Fin 16), s.inv = true →
    (∀ n, s.rollStep j = some n →
      s.answers j = true ∧ (s.roll j).answered ≠ some (n % 2 ^ 24) ∧
        (∀ q ∈ s.rollSteps j, s.mayAnswer j q = true → n ≤ q) ∧
      (∀ f ∈ s.framesOfJob j, (∃ bad, (n, bad) ∈ (s.frame f).scans) ∨ (n, j.val) ∈ (s.frame f).downs) ∧
      ∃ (u : State) (ready : Bool),
        exec (.rollCallAnswer j) s =
          .next (u.sendKeepers j svcAnswer (leBytes 3 (n % 2 ^ 24) ++ leBytes 1 (b2n ready))) ∧
        (u.roll j).answered = some (n % 2 ^ 24) ∧ u.odGet (jobIndex j) 0x19 0 = 0 ∧
        (ready = true ↔ s.odGet (jobIndex j) 0x19 0 ≠ 1 ∧ (∀ f ∈ s.framesOfJob j, (n, true) ∉ (s.frame f).scans) ∧
          ∀ f : Fin 8, (n, j.val) ∉ (s.frame f).downs)) ∧
    (s.rollStep j = none → exec (.rollCallAnswer j) s = .next s) ∧
    (∀ dev step ready, (s.isKeeper j = true ∨ s.isStandby j = true) → (dev, false) ∈ s.rollList j →
      (s.isKeeper j = true → (s.roll j).lateAnswer step = true → ∃ w : State,
        exec (.rollAnswerReceive j dev step ready) s = .next w ∧ { w with od := s.od } = s ∧
        w.odGet 0x2901 0x10 0 = satAdd 32 (s.odGet 0x2901 0x10 0) 1) ∧
      ((s.isKeeper j = true → (s.roll j).lateAnswer step = false) → (∀ a ∈ (s.roll j).answersFor step, a.1 ≠ dev) →
        ∃ u : State, exec (.rollAnswerReceive j dev step ready) s = .next (u.tryFix j step) ∧
          u.roll j = { s.roll j with answers := (s.roll j).answers ++ [(dev, step, ready)] } ∧ u.od = s.od) ∧
      ((s.isKeeper j = true → (s.roll j).lateAnswer step = false) → (∃ a ∈ (s.roll j).answersFor step, a.1 = dev) →
        exec (.rollAnswerReceive j dev step ready) s = .next s)) ∧
    (∀ step, (s.roll j).lateAnswer step = true ↔
      ((s.roll j).kFixed = true ∧ newerStep 24 step (s.roll j).kStep = false) ∨
        ∃ ms, (step, ms) ∈ (s.roll j).fixed) ∧
    (∀ a rest, (s.roll j).answers = a :: rest → s.isKeeper j = true →
      exec (.rollDeadlineExpiry j) s = .next (s.fixRoll j a.2.1)) ∧
    ((s.roll j).answers = [] ∨ s.isKeeper j = false → exec (.rollDeadlineExpiry j) s = .next s) ∧
    ∀ step,
      let r := s.roll j
      let ready := (r.answersFor step).filterMap fun x => if x.2.2 then some x.1 else none
      (s.isKeeper j = true → r.answersFor step ≠ [] →
        (∀ d, (d, false) ∈ s.rollList j → ∃ a ∈ r.answersFor step, a.1 = d) → s.tryFix j step = s.fixRoll j step) ∧
      (r.kFixed = false ∨ r.kSealed = true → r.fixed = [] → ∃ (u : State) (ms : List Nat),
        s.fixRoll j step = u.propose j (.membership step 0 false ms) ∧ ms = s.couple j ready ∧
        (u.roll j).kFixed = true ∧ (u.roll j).kSealed = false ∧ (u.roll j).kStep = step ∧ (u.roll j).kRevision = 0 ∧
        (u.roll j).kMembers = ms ∧ (∀ x ∈ (u.roll j).answers, x.2.1 ≠ step) ∧ Logged s u 0x0701 j.val) ∧
      (r.kFixed = true → r.kSealed = false → ∃ w : State, s.fixRoll j step = w ∧ { w with rolls := s.rolls } = s ∧
        w.roll j = { r with answers := r.answers.filter (fun x => x.2.1 != step), fixed := r.fixed ++ [(step, ready)] })

/-- Memberships, reports and seals (R327–R329, R331–R333): a decision from a device not held as keeper is
refused; a higher revision is taken over, a replay discarding the contexts of its step; the keeper collects
the reports of its present revision; a seal hands the closed buckets of its step to the update engines. -/
def Obligations.MembershipsAndSeals : Prop :=
  ∀ (s : State) (j : Fin 16), s.inv = true →
    (∀ m : Membership,
      (m.sender ≠ s.keeperOf j → ∃ w : State, exec (.membershipReceive j m) s = .next w ∧ { w with od := s.od } = s ∧
        w.odGet 0x2901 0x11 0 = satAdd 32 (s.odGet 0x2901 0x11 0) 1) ∧
      (m.sender = s.keeperOf j → (s.roll j).higher m = false → exec (.membershipReceive j m) s = .next s) ∧
      (m.sender = s.keeperOf j → (s.roll j).higher m = true → ∃ u : State,
        exec (.membershipReceive j m) s =
          .next ((u.checkClosed j).recordDecision j (.membership m.step m.revision m.replay m.members)) ∧
        (u.roll j).step = m.step ∧ (u.roll j).revision = m.revision ∧ (u.roll j).members = m.members ∧
        (u.roll j).held = true ∧ (u.roll j).isSealed = false ∧ (u.roll j).replay = m.replay ∧
          (u.roll j).stopped = false ∧
        (u.roll j).member = m.members.contains s.device ∧
        (m.replay = true → (u.roll j).records = [] ∧ ∀ c x, s.ctxAt c = some x → x.job = j.val → x.step = m.step →
          x.discard = false → u.ctxAt c = some { x with st := .closed, discard := true }))) ∧
    (∀ dev step rev sent, s.isKeeper j = true → (s.roll j).kFixed = true → (s.roll j).kSealed = false →
      step = (s.roll j).kStep → rev = (s.roll j).kRevision → ∃ u : State,
        exec (.reportReceive j dev step rev sent) s = .next (u.trySeal j) ∧ u.roll j =
          if sent then { s.roll j with kSent := dev :: (s.roll j).kSent.erase dev }
          else { s.roll j with kClosed := dev :: (s.roll j).kClosed.erase dev }) ∧
    (∀ dev step rev sent, s.isKeeper j = false ∨ (s.roll j).kFixed = false ∨ (s.roll j).kSealed = true ∨
      step ≠ (s.roll j).kStep ∨ rev ≠ (s.roll j).kRevision → exec (.reportReceive j dev step rev sent) s = .next s) ∧
    (∀ dev step,
      (dev ≠ s.keeperOf j → ∃ w : State, exec (.sealReceive j dev step) s = .next w ∧ { w with od := s.od } = s ∧
        w.odGet 0x2901 0x11 0 = satAdd 32 (s.odGet 0x2901 0x11 0) 1) ∧
      (dev = s.keeperOf j → (s.roll j).held = false ∨ (s.roll j).isSealed = true ∨ step ≠ (s.roll j).step →
        exec (.sealReceive j dev step) s = .next s) ∧
      (dev = s.keeperOf j → (s.roll j).held = true → (s.roll j).isSealed = false → step = (s.roll j).step → ∃ u : State,
        exec (.sealReceive j dev step) s = .next (u.recordDecision j (.seal step)) ∧ (u.roll j).isSealed = true ∧
        (u.roll j).records = [] ∧ (u.roll j).step = step ∧ (u.roll j).sealedSteps.head? = some step ∧
        ∀ c x, s.ctxAt c = some x → x.job = j.val → x.st = .closed → x.discard = false → x.step = step →
          ∃ b ∈ u.buckets, b.job = j.val ∧ b.bucket = x.bucket ∧ b.epoch = x.epoch ∧ b.area = x.sum ∧
            b.sum = some (c, x.e, x.n)))

/-- Late withdrawal, keeper and standby (R330–R333, R395, R432): a member with a late fault withdraws once and
is excluded by the next revision, with replay where it cannot retract, or where coupling excludes a device
with a float contribution; after revision 14 the members are none. The standby whose keeper is silent takes
over; a keeper whose standby is silent broadcasts what waited for it. -/
def Obligations.LateWithdrawalAndTakeover : Prop :=
  ∀ (s : State) (j : Fin 16), s.inv = true →
    let r := s.roll j
    (∀ kind, r.lateFault = some kind → r.withdrawn = false → r.isSealed = false →
      (∀ p ∈ r.records, p.2.outstanding = 0) → ∃ (u : State) (b : Bool),
        exec (.withdrawLate j) s = .next (u.sendKeepers j svcWithdraw (leBytes 3 r.step ++ leBytes 1 (b2n b))) ∧
        u.roll j = { r with withdrawn := true } ∧ Logged s u 0x0700 (j.val + kind * 2 ^ 4) ∧
        (b = true ↔ r.lateHard = false ∧ s.floatAccepted j = false)) ∧
    (r.lateFault = none ∨ r.withdrawn = true ∨ r.isSealed = true ∨ (∃ p ∈ r.records, p.2.outstanding ≠ 0) →
      exec (.withdrawLate j) s = .next s) ∧
    (∀ dev step retractable floats,
      (s.isKeeper j = false → exec (.withdrawLateReceive j dev step retractable floats) s = .next s) ∧
      (s.isKeeper j = true → r.kFixed = false ∨ r.kSealed = true ∨ step ≠ r.kStep → ∃ w : State,
        exec (.withdrawLateReceive j dev step retractable floats) s = .next w ∧ { w with od := s.od } = s ∧
        w.odGet 0x2901 0x10 0 = satAdd 32 (s.odGet 0x2901 0x10 0) 1) ∧
      (s.isKeeper j = true → r.kFixed = true → r.kSealed = false → step = r.kStep →
        (dev ∉ r.kMembers → exec (.withdrawLateReceive j dev step retractable floats) s = .next s) ∧
        (dev ∈ r.kMembers → 15 ≤ r.kRevision + 1 → ∃ u : State,
          exec (.withdrawLateReceive j dev step retractable floats) s =
            .next (u.propose j (.membership step 15 true [])) ∧
          (u.roll j).kRevision = 15 ∧ (u.roll j).kMembers = [] ∧ (u.roll j).kSent = [] ∧ (u.roll j).kClosed = []) ∧
        (dev ∈ r.kMembers → r.kRevision + 1 < 15 →
          let left := r.kMembers.erase dev
          let kept := s.couple j left
          ∃ (u : State) (replay : Bool), exec (.withdrawLateReceive j dev step retractable floats) s =
              .next (u.propose j (.membership step (r.kRevision + 1) replay kept)) ∧
            (u.roll j).kRevision = r.kRevision + 1 ∧ (u.roll j).kMembers = kept ∧
            (u.roll j).kSent = [] ∧ (u.roll j).kClosed = [] ∧
            (replay = true ↔ retractable = false ∨
              (kept ≠ left ∧ ∃ d ∈ r.kMembers, d ∉ kept ∧ d ∈ floats))))) ∧
    (s.isKeeper j = true →
      exec (.keeperHeartbeat j s.device) s = .next (s.sendRoll j (s.standbyOf j) svcHeartbeat [])) ∧
    (s.isKeeper j = false → s.isStandby j = true →
      exec (.keeperHeartbeat j s.device) s = .next (s.sendRoll j (s.keeperOf j) svcHeartbeat [])) ∧
    (∀ dev, dev ≠ s.device → (s.isKeeper j = true ∧ dev = s.standbyOf j) ∨ (s.isStandby j = true ∧ dev = s.keeperOf j) →
      ∃ w : State, exec (.keeperHeartbeat j dev) s = .next w ∧ { w with rolls := s.rolls } = s ∧
        w.roll j = { r with peerAlive := s.supCycles, standbyLost := false }) ∧
    (s.isStandby j = true → s.isKeeper j = false → r.kFixed = true → r.kSealed = false → r.kRevision + 1 < 15 →
      ∃ (u : State) (ms : List Nat),
        exec (.keeperLeaseExpiry j) s = .next (u.propose j (.membership r.kStep (r.kRevision + 1) true ms)) ∧
        (u.roll j).formerStandby = true ∧ (u.roll j).keeper = s.device ∧ (u.roll j).kRevision = r.kRevision + 1) ∧
    (s.isStandby j = true → s.isKeeper j = false → r.kFixed = false ∨ r.kSealed = true → ∃ (u : State) (qs : List Nat),
        exec (.keeperLeaseExpiry j) s = .next (qs.foldl (fun (a : State) q => a.tryFix j q) u) ∧
        u.roll j = { r with formerStandby := true, keeper := s.device }) ∧
    (∀ dev, dev = s.standbyOf j → ∃ w : State, exec (.takeoverReceive j dev) s = .next w ∧
      { w with rolls := s.rolls } = s ∧ w.roll j = { r with formerStandby := true, keeper := dev }) ∧
    (∀ dev, dev ≠ s.standbyOf j → exec (.takeoverReceive j dev) s = .next s) ∧
    (s.isKeeper j = false → exec (.standbyLeaseExpiry j) s = .next s) ∧
    (s.isStandby j = false ∨ s.isKeeper j = true → exec (.keeperLeaseExpiry j) s = .next s) ∧
    (s.isKeeper j = true → ∃ u : State,
      exec (.standbyLeaseExpiry j) s = .next (r.kPending.foldl (fun (a : State) d => a.broadcast j d) u) ∧
      u.roll j = { r with standbyLost := true, kPending := [] })

/-- Update engines (R341, R344, R345, R352–R357, R361): an engine takes the oldest bucket of its stack; a
broken record zeroes the sum, as far as no pseudo-channel retires under it, counts and frees the context; a
good one is updated, or left as it stands where its group is frozen or nothing was summed, converted, sent to
its group and freed; a bucket that was held is sent again; the host may have one returned without an update.
Move lists (R402, R404): a list starts only while the job's updates are held and none is outstanding, is done
when every engine has finished, failed where one met an error, and an abort of a list that runs drops what is
on its way. -/
def Obligations.UpdateEnginesAndMoves : Prop :=
  (∀ (s : State), s.inv = true →
    (∀ (e : Fin 4) (b : BucketJob), s.buckets.find? (fun b => b.area / stackSize == e.val) = some b →
      let s1 := { s with buckets := s.buckets.erase b }
      (∀ (v : State) (c : Nat) (x : Int) (n : Nat), s1.updateJob b = (none, v) → b.push = true →
        b.sum = some (c, x, n) →
        ∃ u : State, exec (.updateBucket e) s = .next (u.checkResends (jobIx b.job)) ∧ u.ctxAt c = none ∧
          u.odGet 0x2A01 0x06 0 = satAdd 32 (v.odGet 0x2A01 0x06 0) 1 ∧ u.buckets = v.buckets ∧
          ((∀ i, i < ceilDiv ((if b.float then 4 else 8) * b.elements) 64 → v.placeRetiring (b.area + 64 * i) = false) →
            ∀ a, b.area ≤ a → a < b.area + (if b.float then 4 else 8) * b.elements → u.mem.byte a = 0)) ∧
      (∀ v : State, s1.updateJob b = (none, v) → b.push = false ∨ b.sum = none → ∃ u : State,
        exec (.updateBucket e) s = .next (u.checkResends (jobIx b.job)) ∧ { u with od := v.od } = v ∧
          u.odGet 0x2A01 0x06 0 = satAdd 32 (v.odGet 0x2A01 0x06 0) 1) ∧
      (∀ (v : State) (U : UpdateJob) (a : Nat), s1.updateJob b = (some (U, a), v) →
        ∃ (x y : State) (ws : List (W32 × Bool)),
        exec (.updateBucket e) s =
          .next (((if b.push then y.pushAmax a U.r (U.r.scaleFor b.push) ws else y).freeSum b).checkResends
          (jobIx b.job)) ∧
        y = (x.returnDests b).foldl (fun (q : State) d => q.sendReturn b (returnRows U (U.r.scaleFor b.push) ws) d) x ∧
        (∀ c m n, U.b.sum = some (c, m, n) → n ≠ 0 →
          (groupFrozen U.b.group = true →
            x.odGet 0x2A01 0x05 0 = satAdd 32 (v.odGet 0x2A01 0x05 0) 1 ∧
              x.odGet 0x2A01 0x01 0 = v.odGet 0x2A01 0x01 0) ∧
          (groupFrozen U.b.group = false → x.odGet 0x2A01 0x02 0 = satAdd 64 (v.odGet 0x2A01 0x02 0) 1)) ∧
        (U.b.sum = none ∨ (∃ c m, U.b.sum = some (c, m, 0)) → x.odGet 0x2A01 0x01 0 = v.odGet 0x2A01 0x01 0 ∧
          x.odGet 0x2A01 0x02 0 = v.odGet 0x2A01 0x02 0 ∧ x.odGet 0x2A01 0x05 0 = v.odGet 0x2A01 0x05 0))) ∧
    (∀ e : Fin 4, s.buckets.find? (fun b => b.area / stackSize == e.val) = none → exec (.updateBucket e) s = .next s) ∧
    (∀ e : Fin 4, s.returns.find? (fun r => r.held && r.left == 0 && r.bucket.area / stackSize == e.val) = none →
      exec (.weightReturnResend e) s = .next s) ∧
    (∀ (e : Fin 4) (r : ReturnOut),
      s.returns.find? (fun r => r.held && r.left == 0 && r.bucket.area / stackSize == e.val) = some r →
      (∀ v : State, State.updateJob { s with returns := s.returns.erase r } { r.bucket with sum := none } = (none, v) →
        exec (.weightReturnResend e) s = .next (v.checkResends (jobIx r.bucket.job))) ∧
      ∀ (v : State) (U : UpdateJob) (a : Nat),
        State.updateJob { s with returns := s.returns.erase r } { r.bucket with sum := none } = (some (U, a), v) →
        exec (.weightReturnResend e) s = .next (((v.readMasters U).s.sendReturn r.bucket
          (returnRows U (U.r.scaleFor false) (v.readMasters U).ws) (r.device + r.frame * 2 ^ 12)).checkResends
          (jobIx r.bucket.job))) ∧
    ∀ (via : Path) (j : Fin 16) (n : W16), Accepts s via (updateIndex j) 0x08 n.toNat →
      (s.updatesOutstanding j.val = true → ∃ w : State, exec (.regenerateBucket via j n) s = .next w ∧
        w.buckets = s.buckets ∧ w.out.head? = some (.value via (odKey (updateIndex j) 0x08) abortState [])) ∧
      (s.updatesOutstanding j.val = false →
        let u := s.odSet (updateIndex j) 0x08 n.toNat
        (u.epochSlot j (u.roll j).sealedEpoch = none ∨ ∃ i v, u.epochSlot j (u.roll j).sealedEpoch = some i ∧
          u.bucketAt j i n.toNat = (none, v)) → ∃ w : State, exec (.regenerateBucket via j n) s = .next w ∧
          Answered w via (updateIndex j) 0x08 ∧ w.buckets = s.buckets) ∧
      (∀ (i : Nat) (rec : BucketRec) (v : State), s.updatesOutstanding j.val = false →
        let u := s.odSet (updateIndex j) 0x08 n.toNat
        u.epochSlot j (u.roll j).sealedEpoch = some i → u.bucketAt j i n.toNat = (some rec, v) →
        ∃ w : State, exec (.regenerateBucket via j n) s = .next w ∧ Answered w via (updateIndex j) 0x08 ∧
          w.buckets = v.buckets ++ [{ job := j.val, epoch := (s.roll j).sealedEpoch, bucket := n.toNat
                                      step := (s.roll j).sealedSteps.headD 0, area := rec.sum
                                      elements := rec.elements, float := rec.mode == 2, push := false }])) ∧
  ∀ (s : State) (via : Path) (j : Fin 16), s.inv = true →
    let i := moveIndex j
    (Accepts s via i 0x05 1 →
      (s.moveState j = 1 → ∃ w : State, exec (.moveStart via j) s = .next w ∧ w.moves = s.moves ∧ w.moveState j = 1 ∧
        w.out.head? = some (.value via (odKey i 0x05) abortState [])) ∧
      (s.moveState j ≠ 1 → s.odGet i 0x01 0 ≠ 1 ∨ s.updatesOutstanding j.val = true →
        ∃ w : State, exec (.moveStart via j) s = .next w ∧ w.moves = s.moves ∧ w.moveState j = 5 ∧
          w.out.head? = some (.value via (odKey i 0x05) abortState [])) ∧
      (s.moveState j ≠ 1 → s.odGet i 0x01 0 = 1 → s.updatesOutstanding j.val = false →
        (∃ u : State, exec (.moveStart via j) s = .next (((List.range 4).foldl
            (fun (a : State) e => a.pumpMoves j e (a.moveCount j)) u).served via i 0x05 0 []) ∧
          u.moveState j = 1 ∧ u.odGet i 0x07 0 = 0 ∧ u.odGet i 0x08 0 = 2 ^ 64 - 1 ∧
          (∀ e < 4, u.moveEngine j e = {}) ∧ u.mem = s.mem) ∧
        (s.moveCount j = 0 → ∃ w : State, exec (.moveStart via j) s = .next w ∧ w.moveState j = 1 ∧
          Answered w via i 0x05 ∧ ∃ y : State, exec (.moveListDone j) w = .next y ∧ y.moveState j = 2))) ∧
    (Accepts s via i 0x05 2 → s.moveState j = 1 → ∃ w : State, exec (.moveAbort via j) s = .next w ∧
      Answered w via i 0x05 ∧ w.moveState j = 4 ∧ (∀ e < 4, (w.moveEngine j e).acks = 0) ∧ w.mem = s.mem) ∧
    (Accepts s via i 0x05 2 → s.moveState j ≠ 1 → ∃ w : State, exec (.moveAbort via j) s = .next w ∧
      Answered w via i 0x05 ∧ w.moves = s.moves ∧ w.links = s.links) ∧
    (s.moveState j ≠ 1 → exec (.moveListDone j) s = .next s) ∧
    (s.moveState j = 1 →
      ((∀ e < 4, s.moveEnded j e = true) → ∃ w : State, exec (.moveListDone j) s = .next w ∧
        { w with od := s.od } = s ∧
        ((∃ e < 4, (s.moveEngine j e).failed = true) → w.moveState j = 3) ∧
        ((∀ e < 4, (s.moveEngine j e).failed = false) → w.moveState j = 2)) ∧
      ((∃ e < 4, s.moveEnded j e = false) → exec (.moveListDone j) s = .next s))

/-- Where a weight return lands (R101, R102, R352–R354, R374): a row for a step or an epoch the device does
not hold, for a frame that is EMPTY or FAULTED, or for a landing record that does not take it, is dropped,
counted and answered 0x4, and so is one that the windows of the main context refuse; while the frame's context
has turned it is answered 0x1; else it is placed in its landing row and answered 0x0, and joins the rows of
its return. -/
def Obligations.WeightReturnLanding : Prop :=
  ∀ (s : State) (src : Nat) (x : Txn), s.inv = true →
    let runs := exec (.weightReturnReceive src x) s
    let z := match s.linkOf x with
      | some k => s.takeTxn k x
      | none => s
    let row := returnRow x
    let f := frameIx (txnDfr x.header)
    let j := jobIx row.job
    let dropped := fun v : State => ∃ u : State, runs = .next (u.ackTxn x.header 4) ∧ u.mem = v.mem ∧
      u.odGet 0x2A01 0x09 0 = satAdd 32 (v.odGet 0x2A01 0x09 0) 1
    (txnKind x.header ≠ 2 ∨ txnDst x.header ≠ s.device → runs = .next s) ∧
    (txnKind x.header = 2 → txnDst x.header = s.device →
      ((z.sealedStep j row.step = none ∨ z.epochSlot j row.epoch = none ∨ (z.frame f).st = .empty ∨
        (z.frame f).st = .faulted) → dropped z) ∧
      ∀ q i, z.sealedStep j row.step = some q → z.epochSlot j row.epoch = some i → (z.frame f).st ≠ .empty →
        (z.frame f).st ≠ .faulted →
        (z.turned f = true → runs = .next (z.ackTxn x.header 1)) ∧
        (z.turned f = false →
          (∀ v : State, z.landingAt j i row.bucket = (none, v) → dropped v) ∧
          ∀ (r : LandingRec) (v : State), z.landingAt j i row.bucket = (some r, v) →
            (r.rows[row.ordinal]? = none ∨ r.frame ≠ f.val ∨ v.extentsOk f r = false ∨ r.fits row.format = false →
              dropped v) ∧
            ∀ a t o : Nat, r.rows[row.ordinal]? = some a → r.frame = f.val → v.extentsOk f r = true →
              r.fits row.format = true → regionOf a = .main t o →
              ((v.tile t).decl.allows 0 true 0 (o / 512) = false → ∃ u : State,
                runs = .next (u.ackTxn x.header 4) ∧ u.mem = v.mem ∧
                (u.tile t).cnt.winRefusals = satAdd 32 (v.tile t).cnt.winRefusals 1) ∧
              ((v.tile t).decl.allows 0 true 0 (o / 512) = true →
                row.last = false → row.bad = false → row.data.length = 512 → o % 512 = 0 →
                let old := (v.landings.find? fun l => l.of row q f && !l.notified &&
                  l.rows.all fun k => decide (k < row.ordinal)).getD
                    { job := row.job, epoch := row.epoch, bucket := row.bucket, step := q, frame := f.val, rows := [] }
                old.last = none → ∃ u : State, runs = .next (u.ackTxn x.header 0) ∧
                  u.mem.read a 512 = row.data ∧ (∀ b, b < a ∨ a + 512 ≤ b → u.mem.byte b = v.mem.byte b) ∧
                  u.tiles = v.tiles ∧ u.landings.head? =
                    some { old with rows := row.ordinal :: old.rows, poison := old.poison || row.poison })))

/-- The start and the copy of a snapshot (R421, R423, R426, R427, R434): one that is due begins when the job's
updates have ended and its steps are closed, once it is known which generation of the partner's area is to be
kept, and fails with reason 3 or 4 where its extents cannot be read or do not fit; it holds the segments in
state 1 while it copies its state part, and goes on in state 2 with the rest and the tables. It ends once
every area has committed, in state 3, and nothing is unanswered: what has committed is recorded, and the hold
is released. The host's commands ask for one, abort one with reason 5 and clear the partner-lost flag. A
hosted generation that is not finished in time is marked abandoned. -/
def Obligations.SnapshotCopies : Prop :=
  ∀ (s : State) (j : Fin 16), s.inv = true →
    let i := snapIndex j
    (∀ via : Path,
      (Accepts s via i 0x08 1 → ∃ w : State, exec (.snapshotTake via j) s = .next w ∧ Answered w via i 0x08 ∧
        w.snap j = { s.snap j with take := true }) ∧
      (Accepts s via i 0x08 2 → ((s.snap j).hold = true ∨ (s.snap j).due ≠ none) → ∃ u : State,
        exec (.snapshotAbort via j) s = .next (((u.endHold j)).served via i 0x08 0 []) ∧
        bits (u.odGet i 0x09 0) 8 4 = 5 ∧ Logged s u 0x0801 (j.val + 5 * 2 ^ 4) ∧ u.snaps = s.snaps) ∧
      (Accepts s via i 0x08 3 → ∃ w : State, exec (.clearPartnerLost via j) s = .next w ∧ Answered w via i 0x08 ∧
        w.partnerLost j = false ∧ w.snapState j = s.snapState j) ∧
      (Accepts s via i 0x08 2 → (s.snap j).hold = false → (s.snap j).due = none → ∃ w : State,
        exec (.snapshotAbort via j) s = .next w ∧ Answered w via i 0x08 ∧ w.snaps = s.snaps)) ∧
    ((s.snap j).due = none ∨ (s.snap j).hold = true → exec (.snapshotStart j) s = .next s) ∧
    (∀ n, (s.snap j).due = some n → (s.snap j).hold = false → s.snapReady j n = true →
      (s.moveState j = 1 → ∃ w : State, exec (.snapshotStart j) s = .next w ∧
        w.snap j = { s.snap j with due := none } ∧ bits (w.odGet i 0x09 0) 8 4 = 7 ∧
        Logged s w 0x0801 (j.val + 7 * 2 ^ 4)) ∧
      (s.moveState j ≠ 1 → s.partnerUnknown j = true →
        ((s.snap j).headsDue ≠ [] → exec (.snapshotStart j) s = .next s) ∧
        ((s.snap j).headsDue = [] → ∃ w : State, exec (.snapshotStart j) s = .next w ∧
          { w with snaps := s.snaps, links := s.links } = s ∧
          (∀ k, s.egress (s.odGet i 0x02 0xFFFF) = some k →
            w.snap j = { s.snap j with headsDue := [0, 1], heads := [] }) ∧
          (s.egress (s.odGet i 0x02 0xFFFF) = none →
            w.snap j = { s.snap j with headsDue := [], heads := [(0, some []), (1, some [])] } ∧ w.links = s.links))) ∧
      (s.moveState j ≠ 1 → s.partnerUnknown j = false →
        let away := s.odGet i 0x02 0xFFFF ≠ 0xFFFF ∧ s.partnerLost j = false
        let here := s.odGet i 0x04 0 ≠ 0
        let failed := fun (reason : Nat) (v : State) => ∃ w : State, exec (.snapshotStart j) s = .next w ∧
          w.snap j = { v.snap j with due := none } ∧ bits (w.odGet i 0x09 0) 8 4 = reason ∧
          Logged v w 0x0801 (j.val + reason * 2 ^ 4)
        (¬ away → ¬ here → ∃ w : State, exec (.snapshotStart j) s = .next w ∧ w.snap j = { s.snap j with due := none } ∧
          { w with snaps := s.snaps } = s) ∧
        (away ∨ here →
          (∀ v : State, s.snapExtents j = (none, v) → failed 3 v) ∧
          ∀ (xs : List Extent) (v : State), s.snapExtents j = (some xs, v) →
            (v.odGet i 0x05 0 < extentsEnd xs ∨ 1024 < xs.length ∨ 65536 < extentsSegments xs → failed 4 v) ∧
            (extentsEnd xs ≤ v.odGet i 0x05 0 → xs.length ≤ 1024 → extentsSegments xs ≤ 65536 →
              ∃ (u : State) (h : List Byte), exec (.snapshotStart j) s =
                  .next ((u.writeAreas j 0 (h ++ zeroBytes 4032)).copyExtents j Extent.statePart) ∧
                u.snapState j = 1 ∧ (u.snap j).hold = true ∧ (u.snap j).step = n ∧ (u.snap j).header = h ∧
                (u.snap j).extents = xs ∧ (u.snap j).sequence = (v.snap j).sequence + 1 ∧
                (u.snap j).partner = (if s.odGet i 0x02 0xFFFF = 0xFFFF ∨ s.partnerLost j = true then none
                  else some (s.partnerTarget j)) ∧
                (u.snap j).localArea = if s.odGet i 0x04 0 = 0 then none else some (s.localTarget j))))) ∧
    (s.snapState j ≠ 1 → exec (.snapshotStatePartDone j) s = .next s) ∧
    (s.snapState j = 1 →
      let c := (s.setSnapState j 2).copyExtents j fun x => !x.statePart
      let et := (c.snap j).extents.flatMap Extent.bytes
      let dt := (List.range (c.snap j).extents.length).flatMap fun k => (sget [] (c.snap j).digests k).flatMap
        (leBytes 8)
      let h := splice (c.snap j).header 6 [2]
      exec (.snapshotStatePartDone j) s =
        .next (((c.writeAreas j 0x1000 (pad64 et)).writeAreas j 0x9000 (pad64 dt)).modSnap
        j fun p => { p with header := splice h 48 (leBytes 8 (rootDigest (h ++ zeroBytes 64) et dt)) })) ∧
    (∀ r : SnapshotResult,
      let c := if s.snapState j = 2 ∧ (s.snap j).unanswered = 0 then s.commitSnap j else s
      let p := c.snap j
      let away := p.ownBad = false ∧ p.partner ≠ none ∧ p.partnerStatus = 0
      let here := p.ownBad = false ∧ p.localArea ≠ none ∧ p.localBad = false
      (s.snapState j = 2 → (s.snap j).unanswered = 0 → c.snapState j = 3) ∧
      (c.snapState j ≠ 3 ∨ p.unanswered ≠ 0 → exec (.snapshotEnd j r) s = .next c) ∧
      (c.snapState j = 3 → p.unanswered = 0 → ∃ u : State, exec (.snapshotEnd j r) s = .next (u.endHold j) ∧
        u.odGet i 0x0D 0 = r.copyTime % 2 ^ 32 ∧ u.odGet i 0x0E 0 = r.holdTime % 2 ^ 32 ∧
        bits (u.odGet i 0x09 0) 8 4 = p.reason ∧ (p.reason = 1 → u.partnerLost j = true) ∧
        (away ∨ here → u.odGet i 0x0A 0 = p.committed (decide away) (decide here) ∧
          u.odGet i 0x0B 0 = satAdd 32 (c.odGet i 0x0B 0) 1 ∧
          (p.reason = 0 → Logged c u 0x0800 (j.val + (if away then p.partner.getD 0 else p.localArea.getD 0) * 2 ^ 4 +
            p.step % 2 ^ 24 * 2 ^ 8))) ∧
        (p.reason ≠ 0 → Logged c u 0x0801 (j.val + p.reason * 2 ^ 4)))) ∧
    ∀ (slot : Fin 8) (gen : Fin 2),
      let u := s.refreshHosting slot.val
      let waits := (u.hostSlot slot.val).used = true ∧ bits (u.odGet 0x2D31 (slot.val + 1) 0) (2 * gen.val) 2 = 1
      (waits → exec (.hostingLeaseExpiry slot gen) s = .next (((u.writeTable ((u.hostSlot slot.val).base +
        gen.val * (u.hostSlot slot.val).length + 6) [3]).refreshHosting slot.val).logEvent 0x0804
        (slot.val + gen.val * 2 ^ 3))) ∧
      (¬ waits → exec (.hostingLeaseExpiry slot gen) s = .next u)

/-- Restores (R321, R417, R428, R429, R432, R436): a restore is refused while the job is in use; it reads its
own area, or its partner's by READs, verifies a generation or falls back, writes it and ends in state 3, or
fails with its reason; the tally reset discards the job's contexts; a resend waits for the end of the updates.
-/
def Obligations.Restores : Prop :=
  ∀ (s : State) (via : Path) (j : Fin 16), s.inv = true →
    let i := restIndex j
    (Accepts s via i 0x06 1 → s.restState j ≠ 1 → s.restState j ≠ 2 →
      (s.restRefused j = true → ∃ w : State, exec (.restore via j) s = .next w ∧ w.restState j = 5 ∧
        w.odGet i 0x08 0 = 2 ^ 28 + (2 ^ 32 - 1) * 2 ^ 32 ∧
        w.out.head? = some (.value via (odKey i 0x06) abortState [])) ∧
      (s.restRefused j = false → ∃ w : State, exec (.restore via j) s = .next w ∧ Answered w via i 0x06 ∧
        w.restState j = 1 ∧ w.odGet i 0x08 0 = 0 ∧ (s.fromPartner j = false → w.rest j = {}) ∧
        (s.fromPartner j = true → (s.egress (s.odGet i 0x02 0xFFFF)).isSome = true →
          w.rest j = { asked := [0, s.genLength j / 4096] }))) ∧
    (Accepts s via i 0x06 1 → s.restState j = 1 ∨ s.restState j = 2 → ∃ w : State, exec (.restore via j) s = .next w ∧
      w.rests = s.rests ∧ w.restState j = s.restState j ∧
      w.out.head? = some (.value via (odKey i 0x06) abortState [])) ∧
    (Accepts s via i 0x06 2 → s.restState j ≠ 1 → s.restState j ≠ 2 → ∃ w : State,
      exec (.restoreAbort via j) s = .next w ∧ Answered w via i 0x06 ∧ w.rests = s.rests ∧ w.log = s.log) ∧
    (Accepts s via i 0x06 2 → (s.restState j = 1 ∨ s.restState j = 2) → ∃ w : State,
      exec (.restoreAbort via j) s = .next w ∧ Answered w via i 0x06 ∧ w.restState j = 4 ∧
        Logged s w 0x0803 (j.val + 5 * 2 ^ 4)) ∧
    (Accepts s via i 0x06 3 → ∃ w : State, exec (.tallyReset via j) s = .next w ∧ Answered w via i 0x06 ∧
      ∀ c x, s.ctxAt c = some x → w.ctxAt c =
        some (if x.job = j.val ∧ x.discard = false then { x with st := .closed, discard := true } else x)) ∧
    (∀ (t : State) (reason n : Nat), t.restFailed j reason n = (((t.endReads j).setRestState j 4).odSet i 0x08
      (restResult 0 (t.rest j).fellBack (t.rest j).gen reason n)).logEvent 0x0803 (j.val + reason * 2 ^ 4)) ∧
    (Accepts s via i 0x06 4 → exec (.weightResend via j) s = .next (((s.rollList j).foldl
      (fun (a : State) p => a.sendRoll j p.1 svcResend []) s).served via i 0x06 0 [])) ∧
    (∀ dev,
      (s.updatesOutstanding j.val = true → ∃ w : State, exec (.weightResendRequestReceive j dev) s = .next w ∧
        { w with rolls := s.rolls } = s ∧ dev ∈ (w.roll j).resends ∧
        ∀ d ∈ (s.roll j).resends, d ∈ (w.roll j).resends) ∧
      (s.updatesOutstanding j.val = false → ∃ w : State, exec (.weightResendRequestReceive j dev) s = .next w ∧
        (∀ b ∈ s.buckets, b ∈ w.buckets) ∧ ∀ b ∈ w.buckets, b ∉ s.buckets → b.only = some dev ∧ b.push = false)) ∧
    (s.restState j ≠ 1 → exec (.restoreVerifyDone j) s = .next s) ∧
    (s.restState j ≠ 2 → exec (.restoreDone j) s = .next s) ∧
    (∀ c, (c = .restoreVerifyDone j ∧ s.restState j = 1) ∨ (c = .restoreDone j ∧
      s.restState j = 2) → s.reading j = true →
      ((s.rest j).asked = [] → exec c s = .next (s.askPartner j)) ∧ ((s.rest j).asked ≠ [] → exec c s = .next s)) ∧
    (∀ (bad : List (Nat × Nat)) (v : State), s.restState j = 1 → s.reading j = false →
      (∀ g h, (s.candidates j).2.2.tryGens j (s.candidates j).1 [] = (some (g, h), bad, v) →
        ∃ w : State, exec (.restoreVerifyDone j) s = .next w ∧ w.restState j = 2 ∧
          (w.rest j).gen = g ∧ (w.rest j).fellBack = (bad != []) ∧
          w.odGet i 0x08 0 = restResult h.step (bad != []) g 0 (2 ^ 32 - 1) ∧
          (bad ≠ [] → Logged v w 0x0802 (j.val + h.step % 2 ^ 24 * 2 ^ 8))) ∧
      ((s.candidates j).2.2.tryGens j (s.candidates j).1 [] = (none, bad, v) →
        ∃ (w : State) (r : Nat), exec (.restoreVerifyDone j) s = .next w ∧ w.restState j = 4 ∧
          Logged v w 0x0803 (j.val + r * 2 ^ 4))) ∧
    (s.restState j = 2 → s.reading j = false →
      let g := (s.rest j).gen
      (∀ u : State, s.genHeaderAt j g = (none, u) → exec (.restoreDone j) s = .next (u.restFailed j 4 noSegment)) ∧
      ∀ (h : GenHeader) (et dt : Option (List Byte)) (u v x : State), s.genHeaderAt j g = (some h, u) →
        u.areaRead j (g * u.genLength j + 0x1000) (32 * h.extents) = (et, v) →
        v.areaRead j (g * v.genLength j + 0x9000) (8 * h.segments) = (dt, x) →
        (et = none ∨ dt = none → exec (.restoreDone j) s = .next (x.restFailed j 4 noSegment)) ∧
        ∀ e d, et = some e → dt = some d →
          let xs := (List.range h.extents).map (tableExtent e)
          (∀ y, x.checkSegments j g d xs = (none, y) →
            exec (.restoreDone j) s = .next (((y.writeRestore j g xs).endReads j).setRestState j 3)) ∧
          ∀ r n y, x.checkSegments j g d xs = (some (r, n), y) → exec (.restoreDone j) s =
            .next ((xs.foldl State.undefineExtent y).restFailed j (if r = 3 then 6 else r) n))

/-- The dictionary window (R51, R60, R444, R445, R456): a read or write asked for takes a place of the request
queue with what the window holds, is refused where the queue is full or an access is under way, and ends with
its value and state 3 or its abort code and state 4, and rings where DW_CTL asked for it. A value goes to
DW_DATA, or to the buffer in staging memory. While the host does not reach the device, or it starts up,
nothing is asked for. Results and staging memory (R295, R441, R448, R451): an acknowledgement frees the valid
slot with its sequence, one that names none is counted; a host write to staging memory lands as the merge of
its partial words allows, and one that touches the result area is dropped and counted. Neither has an effect
while the host does not reach the device or the device starts up, nor has a write beyond staging memory. -/
def Obligations.WindowResultsAndStaging : Prop :=
  (∀ (s : State) (ctl : W32), s.inv = true →
    let reach := s.hostReaches = true ∧ s.startingUp = false
    (¬ reach → exec (.dwRead ctl) s = .next s ∧ exec (.dwWrite ctl) s = .next s) ∧
    (reach →
      let a := fun write : Bool => ({ path := .pcie, write := write, index := BitVec.ofNat 16 s.dw.idx
                                      sub := BitVec.ofNat 8 (s.dw.idx / 2 ^ 16)
                                      data := if write && !(ctl.getLsbD 2) then slice s.dw.bytes 0 s.dw.len else []
                                      client := windowClient ctl.toNat s.dw.len s.dw.buf } : Access)
      (s.dw.stat ≠ 1 → s.dw.stat ≠ 2 → s.queue.length < 32 →
        exec (.dwRead ctl) s = .next { s.takePlace (a false) with dw := { s.dw with stat := 1 } } ∧
        exec (.dwWrite ctl) s = .next { s.takePlace (a true) with dw := { s.dw with stat := 1 } }) ∧
      (s.dw.stat ≠ 1 → s.dw.stat ≠ 2 → 32 ≤ s.queue.length →
        exec (.dwRead ctl) s = .next { s with dw := { s.dw with stat := 5 } } ∧
        exec (.dwWrite ctl) s = .next { s with dw := { s.dw with stat := 5 } }) ∧
      (s.dw.stat = 1 ∨ s.dw.stat = 2 → ∃ w : State, exec (.dwRead ctl) s = .next w ∧ exec (.dwWrite ctl) s = .next w ∧
        { w with od := s.od } = s ∧ w.odGet 0x2E02 0x06 0 = satAdd 32 (s.odGet 0x2E02 0x06 0) 1)) ∧
    (s.queue = [] ∨ s.sup.ready = false → exec .dwComplete s = .next s) ∧
    (∀ (a : Access) (rest : List Access), s.sup.ready = true → s.queue = a :: rest → a.path ≠ .pcie →
      exec .dwComplete s = .next s) ∧
    (∀ (a : Access) (rest : List Access), s.sup.ready = true → s.queue = a :: rest →
      a.path = .pcie → windowLive a.client = true →
      let u := { s with queue := rest }
      let ends := fun (v : State) (code : Nat) => ∃ w : State, exec .dwComplete s = .next w ∧
        w.dw.stat = (if code = 0 then 3 else 4) ∧ w.dw.abort = code ∧ w.queue = v.queue ∧ w.mem = v.mem ∧
        (windowBell a.client = true → w.host.dbS2h.getLsbD 63 = true)
      (a.write = false → ∀ data v,
        (u.readEntry .pcie a.index.toNat a.sub.toNat = (0, data, v) →
          (windowBuffered a.client = false → data.length ≤ 224 → ends v 0 ∧
            ∀ w, exec .dwComplete s = .next w → w.dw.len = data.length ∧ w.dw.data = splice v.dw.bytes 0 data) ∧
          (windowBuffered a.client = false → 224 < data.length → ends v 0x06070012) ∧
          (windowBuffered a.client = true → windowBufferOk a.client = false ∨ windowLen a.client < data.length →
            ends v 0x06070010) ∧
          (windowBuffered a.client = true → windowBufferOk a.client = true → data.length ≤ windowLen a.client →
            ∀ ok y, v.writeStaging (stagingBase + windowBuf a.client) data = (ok, y) →
              ends y (if ok = true then 0 else 0x06060000))) ∧
        (∀ c, c ≠ 0 → u.readEntry .pcie a.index.toNat a.sub.toNat = (c, data, v) → ends v c)) ∧
      (a.write = true → windowBuffered a.client = false → windowLen a.client ≤ 224 →
        let v := u.writeEntry .pcie a.index.toNat a.sub.toNat a.data
        (∀ code, writeAnswer u v = some code → ends v code) ∧
        (writeAnswer u v = none → ∃ w : State, exec .dwComplete s = .next w ∧ w.dw.stat = 2 ∧ w.queue = v.queue)))) ∧
  ∀ (s : State) (seq : W32), s.inv = true →
    let reach := s.hostReaches = true ∧ s.startingUp = false
    (¬ reach → exec (.ackResult seq) s = .next s ∧ ∀ off data, exec (.stagingWrite off data) s = .next s) ∧
    (∀ off data, data = [] ∨ 0x1000000 < off + data.length → exec (.stagingWrite off data) s = .next s) ∧
    (reach →
    (∀ i < 256, s.slotValid i = true → leNat (s.mem.read (resultBase + 64 * i) 4) = seq.toNat →
      (∀ k < i, s.slotValid k = true → leNat (s.mem.read (resultBase + 64 * k) 4) ≠ seq.toNat) →
      ∃ w : State, exec (.ackResult seq) s = .next w ∧ w.slotValid i = false ∧ w.host.lastAck = seq.toNat ∧
        (∀ b, b ≠ resultBase + 64 * i + 4 → w.mem.byte b = s.mem.byte b)) ∧
    ((∀ i < 256, s.slotValid i = true → leNat (s.mem.read (resultBase + 64 * i) 4) ≠ seq.toNat) →
      ∃ w : State, exec (.ackResult seq) s = .next w ∧ { w with od := s.od } = s ∧
        w.odGet 0x2E02 0x03 0 = satAdd 32 (s.odGet 0x2E02 0x03 0) 1) ∧
    ∀ (off : Nat) (data : List Byte), data ≠ [] → off + data.length ≤ 0x1000000 →
      (touchesResults (stagingBase + off) data.length = true → ∃ w : State, exec (.stagingWrite off data) s = .next w ∧
        { w with od := s.od } = s ∧ w.odGet 0x2E02 0x04 0 = satAdd 32 (s.odGet 0x2E02 0x04 0) 1) ∧
      (touchesResults (stagingBase + off) data.length = false →
        exec (.stagingWrite off data) s = .next (s.writeStaging (stagingBase + off) data).2) ∧
      (touchesResults (stagingBase + off) data.length = false → s.errs = [] →
        ∃ w : State, exec (.stagingWrite off data) s = .next w ∧ w.mem.read (stagingBase + off) data.length = data ∧
          (∀ b, b < stagingBase + off ∨ stagingBase + off + data.length ≤ b → w.mem.byte b = s.mem.byte b) ∧
          w.tiles = s.tiles ∧ w.host = s.host))

/-- DMA rings (R452–R454): enable, disable, resume and PROD act on the ring's registers; a descriptor that
fails a check halts the ring with its code and the ring's vector, and a completion timeout is counted; one
that passes is transferred and completes in order, with its DONE word, its count and, where it asks for it,
the vector; a ring that is disabled stops with its last descriptor. -/
def Obligations.DmaRings : Prop :=
  ∀ (s : State) (r : Fin 16) (x : W32), s.inv = true →
    let y := s.ring r
    let index := (y.cons + y.inProgress.length) % y.size
    let reach := s.hostReaches = true ∧ s.startingUp = false
    (¬ reach → ∀ c, c ∈ [Instr.ringEnable r x, .ringDisable r x, .ringResume r x, .prod r x] → exec c s = .next s) ∧
    (reach →
      (y.enable = false → ∃ w : State, exec (.ringEnable r x) s = .next w ∧ { w with rings := s.rings } = s ∧
        (w.ring r).enable = true ∧ (w.ring r).bound = x.getLsbD 4 ∧ (w.ring r).frame = bits x.toNat 5 3 ∧
        (w.ring r).base = y.base ∧ (w.ring r).prod = y.prod ∧ (w.ring r).cons = y.cons) ∧
      (y.enable = true → ∃ w : State, exec (.ringEnable r x) s = .next w ∧ { w with rings := s.rings } = s ∧
        (w.ring r).enable = true ∧ (w.ring r).bound = y.bound ∧ (w.ring r).frame = y.frame ∧
        (w.ring r).base = y.base ∧ (w.ring r).prod = y.prod ∧ (w.ring r).cons = y.cons) ∧
      (y.enable = true → y.inProgress = [] → ∃ w : State, exec (.ringDisable r x) s = .next w ∧
        { w with rings := s.rings } = s ∧ (w.ring r).enable = false ∧ (w.ring r).prod = 0 ∧ (w.ring r).cons = 0 ∧
        (w.ring r).halted = false) ∧
      (y.enable = true → y.inProgress ≠ [] → ∃ w : State, exec (.ringDisable r x) s = .next w ∧
        (w.ring r).enable = false ∧ (w.ring r).prod = y.prod ∧ (w.ring r).inProgress = y.inProgress) ∧
      (y.enable = false → ∃ w : State, exec (.ringDisable r x) s = .next w ∧ { w with rings := s.rings } = s ∧
        (w.ring r).enable = false ∧ (w.ring r).prod = y.prod ∧ (w.ring r).cons = y.cons) ∧
      (x.getLsbD 0 = true → y.enable = true → ∃ w : State, exec (.ringResume r x) s = .next w ∧
        w.ring r = if y.halted = true then { y with halted := false, code := 0, failing := 0 } else y) ∧
      (∃ w : State, exec (.prod r x) s = .next w ∧ w.ring r = { y with prod := x.toNat % y.size } ∧
        { w with rings := s.rings } = s)) ∧
    (∀ (b data : List Byte) (failed : Option HostFailure),
      let d := ringDesc b
      let waits := y.enable = false ∨ y.halted = true ∨ index = y.prod ∨ s.host.d3hot = true ∨ s.host.l2 = true ∨
        s.host.linkUp = false ∨ y.size ≤ y.inProgress.length + 1 ∨ (d.fence = true ∧ y.inProgress ≠ [])
      let runs := exec (.ringDescriptorProcess r b data failed) s
      let t := s.ringTransfer y d data failed.isSome
      let done := fun (code : Nat) => Out.host (y.base + 32 * index + 24) (leBytes 4 (1 + code * 2 ^ 4))
      (waits → runs = .next s) ∧
      (¬ waits → d.code ≠ 0 → ∃ u : State, runs = .next (u.raise (11 + r.val)) ∧
        u.ring r = { y with halted := true, code := d.code, failing := index } ∧ u.mem = s.mem ∧
        u.out = done d.code :: s.out) ∧
      (¬ waits → d.code = 0 → t.1 ≠ 0 → ∃ u : State, runs = .next (u.raise (11 + r.val)) ∧
        (u.ring r).halted = true ∧ (u.ring r).code = t.1 ∧ (u.ring r).failing = index ∧ u.mem = t.2.mem ∧
        u.out = done t.1 :: t.2.out ∧
        (t.1 = 9 → failed = some .timeout → u.host.aerUncorrectable.testBit 14 = true ∧
          u.odGet 0x2E03 0x02 0 = satAdd 32 (t.2.odGet 0x2E03 0x02 0) 1)) ∧
      (¬ waits → d.code = 0 → t.1 = 0 → b.length = 32 → ∃ w : State, runs = .next w ∧
        w.ring r = { y with inProgress := y.inProgress ++ [b] } ∧ w.mem = t.2.mem ∧ w.out = t.2.out)) ∧
    (y.inProgress = [] → exec (.ringDescriptorComplete r) s = .next s) ∧
    (∀ (b : List Byte) (rest : List (List Byte)), y.inProgress = b :: rest →
      let d := ringDesc b
      let z : Ring := { y with inProgress := rest, cons := (y.cons + 1) % y.size }
      ∃ u : State, exec (.ringDescriptorComplete r) s = .next (if d.interrupt then u.raise (11 + r.val) else u) ∧
        u.ring r = (if y.enable = true ∨ rest ≠ [] then z
          else { z with enable := false, prod := 0, cons := 0, halted := false, code := 0, failing := 0 }) ∧
        u.odGet 0x2E04 (r.val + 1) 0 = satAdd 64 (s.odGet 0x2E04 (r.val + 1) 0) d.len ∧
        u.out = .host (y.base + 32 * y.cons + 24) (leBytes 4 1) :: s.out)

/-- Host registers and MSI-X (R440, R443, R446, R455, R502): an access that is no aligned access of 4 or 8
bytes to a named register is dropped, or reads 0, and is counted, and so is a read of a register that is WO; a
read of any other named word gives what it holds, and that of S2H_DATA takes it; during start-up every read
but that of HIF_ID and DEV_STATUS gives 0 and a write is dropped, uncounted. FAULT_SUMMARY and NMI_STATUS
clear where 1 is written; a ring's base is written only while it is disabled; a table dword is kept, vector 0
cannot be masked, and the function mask, or MSI-X not enabled, holds vectors back. Resets and power states of
the endpoint (R456, R457, R502): a function-level reset, a hot reset and PERST_N low empty mailboxes,
doorbells, window and vector table, and drop what the host waited for; the two last take the link down and
clear the error status that the first keeps; it comes up again once PERST_N is high and start-up has come so
far, at a width and a payload size that the endpoint has, with its corrected errors counted. Without a link
the others do nothing. -/
def Obligations.HostRegistersAndResets : Prop :=
  (∀ (s : State) (v : W64) (m : W32), s.inv = true → s.hostReaches = true →
    let named := fun off size : Nat => (size = 4 ∨ size = 8) ∧ off % size = 0 ∧ hostWord off = true
    let reads := fun (off size value : Nat) (same : State → Prop) => ∃ w : State,
      exec (.hostRegisterWrite off size none) s = .next w ∧ w.out = .hostValue off value :: s.out ∧ same w
    let counted := fun w : State => { w with od := s.od, out := s.out } = s ∧
      w.odGet 0x2E02 0x04 0 = satAdd 32 (s.odGet 0x2E02 0x04 0) 1
    let untouched := fun w : State => { w with out := s.out } = s
    (s.startingUp = true → ∀ off size, exec (.hostRegisterWrite off size (some v)) s = .next s ∧
      (off % 4 = 0 → reads off 4 (if off = 0 then 0x4C480001 else if off = 0x10 then s.devStatus else 0) untouched)) ∧
    (s.startingUp = false →
    (∀ off size, ¬ named off size → (∃ w : State, exec (.hostRegisterWrite off size (some v)) s = .next w ∧ counted w ∧
      w.out = s.out) ∧ reads off size 0 counted) ∧
    (∀ off, off = 0x100 ∨ off = 0x3000 ∨ (∃ i < 8, off = 0x1000 + 0x100 * i) → reads off 4 0 counted) ∧
    (∀ off, named off 4 → off ≠ 0x100 → off ≠ 0x3000 → (∀ i < 8, off ≠ 0x1000 + 0x100 * i ∧ off ≠ 0x1004 + 0x100 * i) →
      reads off 4 (s.hostRegister off) untouched) ∧
    (∀ (i : Fin 8) (y : W32) (ys : List W32), (s.mailPair i).s2h.words = y :: ys →
      ∃ w : State, exec (.hostRegisterWrite (0x1004 + 0x100 * i.val) 4 none) s = .next w ∧
        w.out = .hostValue (0x1004 + 0x100 * i.val) y.toNat :: .mailbox i.val y :: s.out ∧
        (w.mailPair i).s2h.words = ys) ∧
    (∃ w : State, exec (.hostRegisterWrite 0x14 4 (some v)) s = .next w ∧
      ∀ b < 32, w.host.faultSummary.testBit b = (s.host.faultSummary.testBit b && !v.getLsbD b)) ∧
    (exec (.hostRegisterWrite 0x18 4 (some v)) s =
      .next { s with host := { s.host with nmi := s.host.nmi && !v.getLsbD 0 } }) ∧
    (exec (.hostRegisterWrite 0x104 4 (some v)) s = .next { s with dw := { s.dw with idx := v.toNat % 2 ^ 24 } }) ∧
    (∀ r : Fin 16, ∃ w : State, exec (.hostRegisterWrite (0x4000 + 0x400 * r.val) 8 (some v)) s = .next w ∧
      ((s.ring r).enable = true → w.ring r = s.ring r) ∧
      ((s.ring r).enable = false → (w.ring r).base % 2 ^ 64 = v.toNat / 4096 * 4096 ∧
        { w.ring r with base := 0 } = { s.ring r with base := 0 }))) ∧
    (∀ off, off % 4 = 0 → off < 0x400 → off ≠ 12 → ∃ u : State,
      exec (.msixTableWrite off m) s = .next u.flushVectors ∧ { u with host := s.host } = s ∧
        u.host.msix = sput (if off / 4 % 4 = 3 then 1 else 0) s.host.msix (off / 4) m.toNat) ∧
    (∃ u : State, exec (.msixTableWrite 12 m) s = .next u.flushVectors ∧ { u with host := s.host } = s ∧
      u.host.msix = sput 0 s.host.msix 3 (putBit m.toNat 0 false)) ∧
    (∃ u w : State, exec (.msixTableWrite 0x2000 m) s = .next w ∧ w = u.flushVectors ∧
      u = { s with host := { s.host with functionMask := m.getLsbD 14, msixEnable := m.getLsbD 15 } } ∧
      (m.getLsbD 14 = true ∨ m.getLsbD 15 = false → w.out = s.out ∧
        ∀ n, n ∈ w.host.msixPending ↔ n ∈ s.host.msixPending)) ∧
    (∀ n, s.vectorsHeld = true ∨ s.host.vectorMasked n = true → (s.raise n).out = s.out ∧
      n ∈ (s.raise n).host.msixPending) ∧
    ∀ n, s.vectorsHeld = false → s.host.vectorMasked n = false → s.raise n = s.emit (.msix n
      (s.host.tableWord (4 * n) + 2 ^ 32 * s.host.tableWord (4 * n + 1)) (s.host.tableWord (4 * n + 2)))) ∧
  ∀ (s : State), s.inv = true →
    let cleared := fun w : State => (∀ i : Fin 8, (w.mailPair i).h2s = {} ∧ (w.mailPair i).s2h = {}) ∧
      w.host.dbH2s = 0 ∧ w.host.dbS2h = 0 ∧ w.host.msix = [] ∧ w.host.msixPending = [] ∧ w.host.functionMask = false ∧
        w.host.msixEnable = false ∧ w.host.d3hot = false ∧
      w.dw = {} ∧ (∀ r : Fin 16, (w.ring r).enable = false ∧ (w.ring r).inProgress = []) ∧
      (∀ a ∈ w.queue, a.path = .pcie → windowLive a.client = false) ∧ w.frames = s.frames ∧ w.sup = s.sup
    (s.host.linkUp = true →
      (∃ w : State, exec .functionLevelReset s = .next w ∧ cleared w ∧ w.host.linkUp = true ∧
        w.odGet 0x2E00 0x06 0 = 128 ∧ w.host.aerUncorrectable = s.host.aerUncorrectable ∧
        w.host.aerCorrectable = s.host.aerCorrectable) ∧
      (∃ w : State, exec .hotReset s = .next w ∧ cleared w ∧ w.host.linkUp = false ∧
        w.odGet 0x2E00 0x04 0 = 0 ∧ w.odGet 0x2E00 0x05 0 = 0 ∧ w.host.aerUncorrectable = 0 ∧
        w.host.aerCorrectable = 0) ∧
      (∃ w : State, exec (.perstN false) s = .next w ∧ cleared w ∧ w.host.linkUp = false ∧
        w.host.perstHigh = false ∧ w.hostReaches = false ∧ w.host.aerUncorrectable = 0 ∧
        w.host.aerCorrectable = 0) ∧
      ∀ d3hot l2, ∃ u : State, exec (.pciePowerStateChange d3hot l2) s = .next u.flushVectors ∧
        u = { s with host := { s.host with d3hot := d3hot, l2 := l2 } }) ∧
    (exec (.perstN true) s = .next { s with host := { s.host with perstHigh := true } }) ∧
    (s.host.linkUp = false → exec (.perstN false) s = .next { s with host := { s.host with perstHigh := false } }) ∧
    (s.host.linkUp = false → exec .functionLevelReset s = .next s ∧ exec .hotReset s = .next s ∧
      ∀ d3hot l2, exec (.pciePowerStateChange d3hot l2) s = .next s) ∧
    ∀ (speed : Fin 6) (width payload n : Nat),
      let trains := speed.val ≠ 0 ∧ s.host.perstHigh = true ∧ s.power.on = true ∧ s.startingUp = false ∧
        width ∈ [1, 2, 4, 8, 16] ∧ payload ∈ [128, 256, 512]
      (¬ trains → exec (.pcieLinkUp speed width payload n) s = .next s) ∧
      (trains → ∃ w : State, exec (.pcieLinkUp speed width payload n) s = .next w ∧ w.host.linkUp = true ∧
        w.hostReaches = true ∧ w.odGet 0x2E00 0x04 0 = speed.val ∧ w.odGet 0x2E00 0x05 0 = width ∧
        w.odGet 0x2E00 0x06 0 = payload ∧ w.rings = s.rings ∧ w.mail = s.mail ∧
        w.odGet 0x2E03 0x01 0 = (if n = 0 then s.odGet 0x2E03 0x01 0 else satAdd 32 (s.odGet 0x2E03 0x01 0) n))

/-- Monitor points (R474–R476): a command applies to every point of the mask that has a source, at one
instant; a sample of an ARMED point, which is the quantity the state holds for its source where it holds one
(log entry 65), is counted whole, the sum saturating; a sample of a point that is not ARMED does nothing. -/
def Obligations.MonitorCommands : Prop :=
  ∀ (s : State) (via : Path), s.inv = true →
    let chosen := fun i : Nat => bit (s.odGet 0x3000 0x03 0) i && decide (bits (s.pointRecord i) 0 8 ≠ 0)
    let done := fun (w : State) (g : MonPoint → MonPoint) =>
      Answered w via 0x3000 0x04 ∧ w.odGet 0x3000 0x05 0 = s.supCycles ∧ w.tiles = s.tiles ∧ w.mem = s.mem ∧
      ∀ i : Fin 64, w.point i.val =
        if chosen i.val = true then { g (s.point i.val) with stamp := s.supCycles } else s.point i.val
    (Accepts s via 0x3000 0x04 1 → ∃ w, exec (.monitorArm via) s = .next w ∧ done w fun p => { p with state := 1 }) ∧
    (Accepts s via 0x3000 0x04 2 → ∃ w, exec (.monitorFreeze via) s = .next w ∧ done w fun p => { p with state := 2 }) ∧
    (Accepts s via 0x3000 0x04 3 → ∃ w, exec (.monitorClear via) s = .next w ∧ done w fun p =>
      { p with count := 0, sum := 0, min := 2 ^ 63 - 1, max := -2 ^ 63, bins := [], saturated := false }) ∧
    (Accepts s via 0x3000 0x04 4 → ∃ w, exec (.monitorClearAndArm via) s = .next w ∧ done w fun p =>
      { p with state := 1, count := 0, sum := 0, min := 2 ^ 63 - 1, max := -2 ^ 63, bins := [], saturated := false }) ∧
    ∀ (i : Fin 64) (value : Int),
      let p := s.point i.val
      let source := bits (s.pointRecord i.val) 0 8
      let x := s.sampleOf source (bits (s.pointRecord i.val) 16 12) value
      (source = 0x15 → x = s.power.watts) ∧
        (source = 0x11 → x = sget 0 s.power.junction (bits (s.pointRecord i.val) 16 12)) ∧
      (p.state ≠ 1 → exec (.monitorSample i value) s = .next s) ∧
      (p.state = 1 → ∃ w : State, exec (.monitorSample i value) s = .next w ∧ { w with monitors := s.monitors } = s ∧
        (∀ j : Fin 64, j ≠ i → w.point j.val = s.point j.val) ∧
        (w.point i.val).count = satAdd 64 p.count 1 ∧ (w.point i.val).min = min p.min x ∧
        (w.point i.val).max = max p.max x ∧ (w.point i.val).state = 1 ∧
        (p.sum + x ≤ 2 ^ 63 - 1 → -2 ^ 63 ≤ p.sum + x →
          (w.point i.val).sum = p.sum + x ∧ (w.point i.val).saturated = p.saturated) ∧
        (2 ^ 63 ≤ p.sum + x → (w.point i.val).sum = 2 ^ 63 - 1 ∧ (w.point i.val).saturated = true) ∧
        (p.sum + x < -2 ^ 63 → (w.point i.val).sum = -2 ^ 63 ∧ (w.point i.val).saturated = true) ∧
        (w.point i.val).bins =
          smod 0 p.bins (monitorBin (s.pointRecord i.val) x) fun n => satAdd 32 n 1)

/-- The clock monitor (R462–R465): while the device runs on the chosen source, a window within 1 % of the mean
of those held joins them, and one outside fails the device over to its internal oscillator; RETURN_TO_SOURCE
begins a return, which counts 100 windows within 1 % of the frozen reference and ends with the first that is
not; the CAN controller is without a clock while the device runs on its internal oscillator with no good
REFCLK (R461). -/
def Obligations.ClockMonitorAndFailOver : Prop :=
  ∀ (s : State) (edges : Nat), s.inv = true → s.power.on = true →
    let c := s.clock
    let near := edges ≠ 0 ∧ 100 * (edges * c.windows.length) ≤ 101 * c.windows.sum ∧
      99 * c.windows.sum ≤ 100 * (edges * c.windows.length)
    let nearFrozen := edges ≠ 0 ∧ 100 * (256 * edges) ≤ 101 * c.frozenRef ∧ 99 * c.frozenRef ≤ 100 * (256 * edges)
    (c.onInternal = false → near → ∃ w : State, exec (.clockMonitorWindow edges) s = .next w ∧
      w.clock = { c with windows := (edges :: c.windows).take 1024 } ∧
      w.odGet 0x2F01 0x02 0 = min edges 0xFFFF ∧ { w with clock := c, od := s.od } = s) ∧
    (c.onInternal = false → ¬ near →
      (∃ v : State, exec (.clockMonitorWindow edges) s = .next (v.logEvent 0x0903 (b2n c.clkSel)) ∧ v.host.nmi = true) ∧
      ((∀ k : Fin 24, (s.link k).st = .disabled ∨ (s.link k).st = .failed) →
        ∃ w : State, exec (.clockMonitorWindow edges) s = .next w ∧ Logged s w 0x0903 (b2n c.clkSel) ∧
          w.clock = { c with onInternal := true, frozenRef := c.reference, returning := none } ∧ w.host.nmi = true ∧
          w.can.clockless = !c.pcieRefclk ∧ w.links = s.links ∧
          w.odGet 0x2F01 0x03 0 = satAdd 32 (s.odGet 0x2F01 0x03 0) 1)) ∧
    (c.onInternal = true → c.returning = none → ∃ w : State, exec (.clockMonitorWindow edges) s = .next w ∧
      w.clock = c ∧ w.odGet 0x2F01 0x02 0 = min edges 0xFFFF) ∧
    (∀ n, c.onInternal = true → c.returning = some n → ∃ w : State, exec (.clockMonitorWindow edges) s = .next w ∧
      (¬ nearFrozen → w.clock = { c with returning := none } ∧
        w.odGet 0x2F01 0x06 0 = satAdd 32 (s.odGet 0x2F01 0x06 0) 1) ∧
      (nearFrozen → n + 1 < 100 → w.clock = { c with returning := some (n + 1) }) ∧
      (nearFrozen → 100 ≤ n + 1 → w.clock = { c with onInternal := false, returning := none } ∧
        w.can.clockless = false ∧ ∀ e ∈ w.can.conditions, e ≠ 0xFF00)) ∧
    (∀ via, Accepts s via 0x2F01 0x04 1 → ∃ w : State, exec (.returnToSource via) s = .next w ∧
      Answered w via 0x2F01 0x04 ∧
      w.clock = if c.onInternal = true ∧ c.returning = none then { c with returning := some 0 } else c) ∧
    ∀ good, ∃ w : State, exec (.pcieRefclkChange good) s = .next w ∧ w.clock = { c with pcieRefclk := good } ∧
      w.can.clockless = (!good && c.onInternal) ∧ { w with clock := c, can := s.can } = s

/-- The governors (R469–R471): f_cap falls by 10 MHz for each 25 W or part over the cap, 100 MHz at most, and
rises by 10 MHz under 98 % of it; f_therm falls from 95 °C, is 200 MHz from 105 °C and rises up to 93 °C; a
sag stretches the clock of its domain and a hold's end takes one level back; once every sensor reads a sag
below 3 % the alarm is ready again; the fast path is counted when a 20 µs average exceeds 1250 W. The 12 V
input (R481, R500): outside its limits, 11.4 V to 12.6 V, it is logged once; back within them the condition
clears. A hardware trip at 115 °C (R471) and a brown-out switch the rails off: main memory, stat memory and
the log are empty, the links DISABLED, the frames EMPTY and the tiles hold nothing but their spare rows; the
flash keeps its images and its copy of the log, and the trip is remembered. -/
def Obligations.GovernorsAndPowerLoss : Prop :=
  (∀ (s : State), s.inv = true → s.power.on = true →
    (∀ watts : Nat, ∃ w : State, exec (.powerCapAdjust watts) s = .next w ∧
      w.power = { s.power with
        watts := watts, energy := s.power.energy + watts, fastPath := s.power.fastPath && decide (s.powerCap < watts)
        fCap :=
          if s.powerCap < watts then max 200 (s.power.fCap - min 100 (10 * ((watts - s.powerCap + 24) / 25)))
          else if 100 * watts < 98 * s.powerCap then min 1000 (s.power.fCap + 10) else s.power.fCap } ∧
      (∀ i sub d, i ≠ 0x2F08 → sub < 256 → w.odGet i sub d = s.odGet i sub d) ∧
      { w with power := s.power, od := s.od } = s) ∧
    (∀ watts : Nat, 1250 < watts → s.power.fastPath = false →
      ∃ w : State, exec (.fastPathLimit watts) s = .next w ∧ w.power = { s.power with fastPath := true } ∧
        w.odGet 0x2F02 0x09 0 = satAdd 32 (s.odGet 0x2F02 0x09 0) 1 ∧ { w with power := s.power, od := s.od } = s) ∧
    (∀ (sensor : Fin 16) (temp : Int), ∃ w : State, exec (.thermalAdjust sensor temp) s = .next w ∧
      (sensor.val, temp) ∈ w.power.junction ∧
      let hot := w.power.hottest
      w.power.fTherm = (if 1050 ≤ hot then 200 else if 950 ≤ hot then max 200 (s.power.fTherm - 10)
        else if hot ≤ 930 then min 1000 (s.power.fTherm + 10) else s.power.fTherm) ∧
      w.power.alert = (decide (1050 ≤ hot) || (s.power.alert && decide (1000 ≤ hot))) ∧
      w.power.fCap = s.power.fCap ∧ w.tiles = s.tiles ∧
      ((s.power.alert = false ∧ 1050 ≤ hot) → Logged s w 0x0902 ((hot / 10).toNat % 256 + 2 ^ 8)) ∧
      (s.power.hottest < 950 → 950 ≤ hot → hot < 1050 → Logged s w 0x0902 ((hot / 10).toNat % 256))) ∧
    (∀ (sensor : Fin 32) (sag : Nat), ∃ w : State, exec (.droopStretch sensor sag) s = .next w ∧
      w.power.sag = sput 0 s.power.sag sensor.val sag ∧
      (let low := decide (16 ≤ sensor.val)
       w.droop low = max (s.droop low) (if 800 ≤ sag then 2 else if 500 ≤ sag then 1 else 0) ∧
       (s.grid.split = true → w.droop (!low) = s.droop (!low))) ∧
      (1200 ≤ sag → w.power.sagAlarm = true ∧ (s.power.sagAlarm = false → Logged s w 0x0901 sensor.val)) ∧
      (sag < 1200 → w.log = s.log ∧
        w.power.sagAlarm = (s.power.sagAlarm && (sput 0 s.power.sag sensor.val sag).any fun p => decide (300 ≤ p.2)))) ∧
    ∀ lower : Bool, s.droop lower ≠ 0 → ∃ w : State, exec (.droopHoldExpiry lower) s = .next w ∧
      w.droop lower = s.droop lower - 1 ∧ (s.grid.split = true → w.droop (!lower) = s.droop (!lower)) ∧
      (s.droop lower = 1 →
        (s.grid.split = true → ∀ p ∈ s.power.sag, lower ≠ decide (16 ≤ p.1) → p.2 < 300) →
        w.power.sagAlarm = false ∧ ∀ e ∈ w.can.conditions, e ≠ 0x3200)) ∧
  ∀ (s : State), s.inv = true → s.power.on = true →
    (∀ mv : Nat, 10200 ≤ mv → (mv < 11400 ∨ 12600 < mv) → s.power.inputOut = false →
      ∃ w : State, exec (.inputOutOfLimits mv) s = .next w ∧
        w.power = { s.power with input := mv, inputOut := true } ∧ Logged s w 0x0900 (mv / 10 % 2 ^ 16)) ∧
    (∀ mv : Nat, 10200 ≤ mv → (mv < 11400 ∨ 12600 < mv) → s.power.inputOut = true →
      exec (.inputOutOfLimits mv) s = .next { s with power := { s.power with input := mv } }) ∧
    (∀ mv : Nat, 11400 ≤ mv → mv ≤ 12600 → ∃ w : State, exec (.inputBackInLimits mv) s = .next w ∧
      w.power = { s.power with input := mv, inputOut := false } ∧ ∀ e ∈ w.can.conditions, e ≠ 0x3100) ∧
    (let off := fun w : State => w.power.on = false ∧ w.power.pwrGood = false ∧ w.mem = [] ∧ w.stat = [] ∧ w.log = [] ∧
        (∀ k : Fin 24, (w.link k).st = .disabled) ∧ (∀ f : Fin 8, (w.frame f).st = .empty) ∧
        (∀ t, w.tile t = { spares := (s.tile t).spares }) ∧
        w.sup.ready = false ∧ w.flash.imageA = s.flash.imageA ∧ w.flash.imageB = s.flash.imageB ∧
        w.flash.log = s.flash.log ∧ w.pending = s.pending
     (∃ w : State, exec .brownOut s = .next w ∧ off w ∧ w.power.brownOut = true ∧ w.power.tripped = none) ∧
     (∀ mv : Nat, mv < 10200 → ∃ w : State, exec (.inputOutOfLimits mv) s = .next w ∧ off w ∧
       w.power.brownOut = true ∧ w.power.input = mv) ∧
     ∀ (sensor : Fin 16) (temp : Int), 1150 ≤ temp → ∃ w : State, exec (.hardwareTrip sensor temp) s = .next w ∧ off w ∧
       w.power.brownOut = false ∧ w.power.tripped = some (temp / 10).toNat)

/-- Device resets (R74, R471, R481, R491, R492, R495, R496, R498): POWER_UP, MOD_RESET and RESET_NODE run
start-up with their reset causes, and MOD_RESET after a hardware trip switches the rails on again and logs the
trip; without an image that is valid only the boot logic runs, and a staged image that is valid is then
written to slot A and started. RESET_NODE with scope 0 is a reset communication. -/
def Obligations.DeviceResets : Prop :=
  ∀ (s : State) (b : BootInputs), s.inv = true →
    (∀ image fell, BootsClean s b → s.flash.bootImage = some (image, fell) →
      (s.power.tripped = none → ∃ w : State, exec (.powerUp b) s = .next w ∧
        Booted s w b (if s.power.on = false ∧ s.power.brownOut = true then 3 else 0) image fell ∧
        w.flash.powerUps = satAdd 32 s.flash.powerUps 1 ∧ w.mem = []) ∧
      (s.power.on = false → ∀ c, s.power.tripped = some c → ∃ w : State, exec (.modReset b) s = .next w ∧
        w.odGet 0x3100 0x02 0 = 4 ∧ w.sup.ready = true ∧
        w.log.head? = some (w.supCycles, 0x0902, 0x4200, c % 256 + 2 ^ 8)) ∧
      (s.power.on = true → ∃ w : State, exec (.modReset b) s = .next w ∧ Booted s w b 1 image fell ∧
        w.flash.powerUps = s.flash.powerUps ∧ w.odGet 0x3100 0x03 0 = satAdd 32 (s.odGet 0x3100 0x03 0) 1) ∧
      ∀ node, s.can.named node = true → s.odGet 0x1E40 0x0C 0 ≠ 0 →
        ∃ w : State, exec (.resetNode node b) s = .next w ∧ Booted s w b 2 image fell) ∧
    (b.flashGood = false ∨ s.flash.bootImage = none →
      (s.power.tripped = none → 10800 < b.inputMillivolts →
        ∃ w : State, exec (.powerUp b) s = .next w ∧ InRecovery w) ∧
      (s.power.on = true → ∃ w : State, exec (.modReset b) s = .next w ∧ InRecovery w ∧
        w.odGet 0x3100 0x02 0 = 1 ∧ w.odGet 0x3100 0x03 0 = satAdd 32 (s.odGet 0x3100 0x03 0) 1)) ∧
    (b.inputMillivolts ≤ 10800 → s.power.on = false → exec (.powerUp b) s = .next s) ∧
    (∀ node, s.can.named node = true → s.odGet 0x1E40 0x0C 0 = 0 → ∃ w : State, exec (.resetNode node b) s = .next w ∧
      w.can.nmt = .preOperational ∧ w.can.nodeId = b.nodeId.toNat ∧
      (b.nodeId ≠ 0 → w.out = .can (0x700 + b.nodeId.toNat) [0] :: s.out) ∧ w.tiles = s.tiles ∧ w.frames = s.frames ∧
        w.mem = s.mem) ∧
    ∀ (head img : List Byte) (u v : State), s.sup.recovery = true → bit s.host.dbH2s.toNat 0 = true →
      s.readStaging stagingBase 256 = (⟨head, false⟩, u) →
      u.readStaging stagingBase (256 + min (sliceNat head 12 4) 12582912) = (⟨img, false⟩, v) →
      (imageState v.flash.security img = 1 → b.flashGood = true →
        ∃ w : State, exec (.recoveryImageLoad b) s = .next w ∧ w.sup.recovery = false ∧ w.sup.ready = true ∧
          w.flash.imageA = slotOf v.flash.security img ∧ w.flash.imageB = v.flash.imageB) ∧
      (imageState v.flash.security img ≠ 1 → ∃ w : State, exec (.recoveryImageLoad b) s = .next w ∧
        bit w.host.dbS2h.toNat 0 = true ∧ w.sup = v.sup ∧ w.flash = v.flash)

/-- Firmware (R490, R491, R493, R494, R498): a staged image that verifies is programmed into the slot not in
use, and only a good read-back makes it the preferred one; a restart halts core 0 while every frame is EMPTY
and starts the preferred image; raising the security version takes that of the image that runs, and an image
below it is no longer valid. The test access port (R483, R485): BYPASS shifts its bit, IDCODE gives
0x1004856F, SAMPLE_PRELOAD samples the contacts or loads the boundary register, and EXTEST drives it. -/
def Obligations.FirmwareAndTestAccess : Prop :=
  (∀ (s : State), s.inv = true →
    (∀ (via : Path) (img : List Byte) (u : State), Accepts s via 0x3102 0x01 1 →
      touchesResults (stagingBase + s.odGet 0x3102 0x02 0) (s.odGet 0x3102 0x03 0) = false →
      s.odGet 0x3102 0x02 0 + s.odGet 0x3102 0x03 0 ≤ 0x1000000 →
      s.readStaging (stagingBase + s.odGet 0x3102 0x02 0) (s.odGet 0x3102 0x03 0) = (⟨img, false⟩, u) →
      ∃ w : State, exec (.firmwareProgram via) s = .next w ∧ Answered w via 0x3102 0x01 ∧
        (imageState u.flash.security img = 1 → w.sup.programming = some img ∧ w.odGet 0x3102 0x04 0 = 2 ∧
          w.flash = u.flash.setSlot (!u.sup.imageB) {}) ∧
        (imageState u.flash.security img ≠ 1 → w.sup = u.sup ∧ w.flash = u.flash ∧ w.odGet 0x3102 0x04 0 = 6 ∧
          w.odGet 0x3102 0x05 0 = 1)) ∧
    (∀ img, s.sup.programming = some img →
      let slot := !s.sup.imageB
      (∃ w : State, exec (.firmwareProgramComplete .ok) s = .next w ∧ w.sup.programming = none ∧
        w.flash = { (s.flash.setSlot slot (slotOf s.flash.security img)) with preferredB := slot } ∧
        w.odGet 0x3102 0x04 0 = 5) ∧
      (∃ w : State, exec (.firmwareProgramComplete .writeError) s = .next w ∧ w.sup.programming = none ∧
        w.flash = s.flash ∧ w.odGet 0x3102 0x04 0 = 6 ∧ w.odGet 0x3102 0x05 0 = 3) ∧
      ∃ w : State, exec (.firmwareProgramComplete .readBackMismatch) s = .next w ∧ w.sup.programming = none ∧
        w.flash.preferredB = s.flash.preferredB ∧ (if slot then w.flash.imageB else w.flash.imageA).state = 2 ∧
        w.odGet 0x3102 0x04 0 = 6 ∧ w.odGet 0x3102 0x05 0 = 4) ∧
    (∀ via : Path, Accepts s via 0x3102 0x01 3 →
      (∀ f : Fin 8, (s.frame f).st = .empty ∧ (s.frame f).transition = none) →
      ∃ w : State, exec (.firmwareRestart via) s = .next w ∧ Answered w via 0x3102 0x01 ∧
        w.sup = { s.sup with ready := false, asleep := true }) ∧
    (s.sup.asleep = true →
      (∀ image fell, s.flash.bootImage = some (image, fell) →
        ∃ w : State, exec .supervisorRestartComplete s = .next w ∧
          w.sup = { s.sup with ready := true, asleep := false, imageB := image } ∧
          Logged s w 0x0A01 (b2n image + 2 ^ 8)) ∧
      (s.flash.bootImage = none → ∃ w : State, exec .supervisorRestartComplete s = .next w ∧ InRecovery w)) ∧
    ∀ via : Path, Accepts s via 0x3102 0x01 4 → ∃ w : State, exec (.raiseSecurityVersion via) s = .next w ∧
      Answered w via 0x3102 0x01 ∧
      w.flash.security = (if s.sup.imageB then s.flash.imageB else s.flash.imageA).security ∧
      (∀ x y : ImageSlot, (x, y) ∈ [(s.flash.imageA, w.flash.imageA), (s.flash.imageB, w.flash.imageB)] →
        y.version = x.version ∧ y.security = x.security ∧
        y.state = if x.state = 1 ∧ x.security < w.flash.security then 3 else x.state)) ∧
  ∀ (s : State),
    (∀ tdi, exec (.bypass tdi) s = .next { s with
      jtag := { s.jtag with instr := 0, bypass := tdi, extest := false }
      out := .tdo (if s.jtag.bypass then 1 else 0) :: s.out }) ∧
    (exec .idcode s = .next { s with
      jtag := { s.jtag with instr := 1, extest := false }, out := .tdo 0x1004856F :: s.out }) ∧
    (∃ w : State, exec (.samplePreload none) s = .next w ∧ w.out = .tdo w.jtag.boundary.toNat :: s.out ∧
      w.jtag.extest = false ∧ w.jtag.boundary.getLsbD 7 = s.clock.clkSel ∧
        w.jtag.boundary.getLsbD 8 = s.host.perstHigh ∧
      w.jtag.boundary.getLsbD 9 = s.power.pwrGood ∧ w.jtag.boundary.getLsbD 10 = !s.power.alert ∧
      ∀ i < 7, w.jtag.boundary.getLsbD i = (s.odGet 0x3100 0x01 0).testBit i) ∧
    (∀ x, exec (.samplePreload (some x)) s = .next { s with
      jtag := { s.jtag with instr := 2, extest := false, boundary := x } }) ∧
    (exec .extest s = .next { s with
      jtag := { s.jtag with instr := 3, extest := true }, out := .contacts s.jtag.boundary.toNat :: s.out })

/-- Training (R364, R365, R371, R381, R382, R388, R465): the train command, and the auto-retrain in DOWN,
begin it anew; the checks of the peer's CAPS end it in DOWN with their causes; with two or more usable lanes
the link is UP, holding every credit. In a retrain the CAPS are exchanged again. -/
def Obligations.LinkTraining : Prop :=
  ∀ (s : State) (via : Path) (k : Fin 24), s.inv = true →
    let l := s.link k
    let anew := fun w : State => (w.link k).st = .training ∧ (w.link k).txSeq = 0 ∧ (w.link k).rxSeq = 0 ∧
      (w.link k).rx = [] ∧ (w.link k).tx = [] ∧ (w.link k).retry = [] ∧ (w.link k).credits = [] ∧
      (w.link k).rxValid = false ∧ (w.link k).freed = [] ∧ (w.link k).seen = [] ∧ (w.link k).begun = [] ∧
      (w.link k).control = some 5 ∧ (w.link k).active = 0 ∧ (w.link k).retired = l.retired ∧
      ∀ j, j ≠ k → w.link j = s.link j
    let bad := fun c : CapsData => if c.device = s.device then 3
      else if c.version ≠ 1 ∨ c.reach ≠ s.odGet (0x2B10 + 8 * k.val) 0x03 0 then 4 else 0
    let down := fun (w : State) (cause : Nat) => LinkIs s w k { l with st := .down, cause := cause, control := none }
    (Accepts s via (0x2B10 + 8 * k.val) 0x01 1 →
      (l.st = .disabled → s.clock.onInternal = false →
        ∃ w, exec (.linkTrain via k) s = .next w ∧ anew w ∧ Answered w via (0x2B10 + 8 * k.val) 0x01) ∧
      (l.st ≠ .disabled ∨ s.clock.onInternal = true → ∃ w : State, exec (.linkTrain via k) s = .next w ∧
        w.links = s.links ∧ w.out.head? = some (.value via (odKey (0x2B10 + 8 * k.val) 0x01) 0x08000022 []))) ∧
    (l.st = .down → s.odGet 0x2B02 0x08 1 = 1 → s.clock.onInternal = false →
      ∃ w, exec (.autoRetrain k) s = .next w ∧ anew w) ∧
    (l.st ≠ .down ∨ s.odGet 0x2B02 0x08 1 ≠ 1 ∨ s.clock.onInternal = true → exec (.autoRetrain k) s = .next s) ∧
    (l.st ≠ .training → exec (.trainingTimeout k) s = .next s ∧ exec (.creditInit k) s = .next s ∧
      (∀ r, exec (.trainingComplete k r) s = .next s) ∧
      ∀ c : CapsData, (l.st ≠ .retraining → exec (.caps k c) s = .next s) ∧
        (l.st = .retraining → ∃ w : State, exec (.caps k c) s = .next w ∧ (w.link k).st = .retraining ∧
          (w.link k).control = some 5 ∧ (w.link k).peerDevice = c.device % 2 ^ 12 ∧
          (w.link k).peerLink = c.link % 256 ∧ (w.link k).peerRetired = c.retired % 16 ∧
          (l.control ≠ some 5 → ∃ f, w.out = .flit k.val f :: s.out) ∧ (l.control = some 5 → w.out = s.out))) ∧
    (l.st = .training →
      (∃ w, exec (.trainingTimeout k) s = .next w ∧ down w 2) ∧
      (∃ w, exec (.creditInit k) s = .next w ∧ LinkIs s w k { l with credits := (w.link k).credits, seen := [] } ∧
        ∀ vc < 5, sget 0 (w.link k).credits vc = [128, 1024, 1024, 256, 1024].getD vc 0) ∧
      (∀ c, (bad c ≠ 0 → ∃ w, exec (.caps k c) s = .next w ∧ down w (bad c)) ∧
        (bad c = 0 → ∃ w : State, exec (.caps k c) s = .next w ∧ (w.link k).st = .training ∧
          (w.link k).control = some 6 ∧ (w.link k).peerDevice = c.device % 2 ^ 12 ∧
          (w.link k).peerLink = c.link % 256 ∧ (w.link k).peerRetired = c.retired % 16)) ∧
      ∀ r : TrainResult, let lanes := r.lanes &&& ~~~l.retired &&& ~~~(BitVec.ofNat 4 r.caps.retired)
        (bad r.caps ≠ 0 → ∃ w, exec (.trainingComplete k r) s = .next w ∧ down w (bad r.caps)) ∧
        (bad r.caps = 0 → (List.range 4).countP (fun i => lanes.getLsbD i) < 2 →
          ∃ w, exec (.trainingComplete k r) s = .next w ∧ down w 5) ∧
        (bad r.caps = 0 → 2 ≤ (List.range 4).countP (fun i => lanes.getLsbD i) →
          ∃ w, exec (.trainingComplete k r) s = .next w ∧ LinkIs s w k { l with
            st := .up, active := lanes, reversal := r.reversal, inverted := r.inverted, control := none, seen := []
            credits := (w.link k).credits, peerDevice := r.caps.device % 2 ^ 12, peerLink := r.caps.link % 256
            peerRetired := r.caps.retired % 16 } ∧
            ∀ vc < 5, sget 0 (w.link k).credits vc = [128, 1024, 1024, 256, 1024].getD vc 0)) ∧
    (Accepts s via (0x2B10 + 8 * k.val) 0x02 0xC3 →
      (l.st = .disabled → ∃ w, exec (.clearRetirements via k) s = .next w ∧ LinkIs s w k { l with retired := 0 } ∧
        Answered w via (0x2B10 + 8 * k.val) 0x02) ∧
      (l.st ≠ .disabled → ∃ w : State, exec (.clearRetirements via k) s = .next w ∧ w.links = s.links ∧
        w.out.head? = some (.value via (odKey (0x2B10 + 8 * k.val) 0x02) 0x08000022 [])))

/-- Exits from UP and retraining (R370, R379, R381, R385, R388): each records its cause; a retrain loses
nothing and ends in UP, replaying what is held, with a RESUME that is sent until the peer's answers it, or
after 1 ms in DOWN; DOWN and DISABLED lose what the link held: a request of this device completes with 0x9, a
relayed one is answered with 0x2, and the rest is dropped and counted. -/
def Obligations.LinkRetrainsAndLoss : Prop :=
  (∀ (s : State) (via : Path) (k : Fin 24), s.inv = true →
    let l := s.link k
    (l.st = .up →
      (Accepts s via (0x2B10 + 8 * k.val) 0x01 3 → ∃ u : State, exec (.linkRetrain via k) s =
        .next (u.served via (0x2B10 + 8 * k.val) 0x01 0 []) ∧ Retrains s u k 0 4) ∧
      (∃ w, exec (.retrain k) s = .next w ∧ Retrains s w k 0 5) ∧
      (∀ n, ∃ w, exec (.codewordLockLost k n) s = .next w ∧ Retrains s w k 6 4 ∧
        w.odGet (linkIndex k + 3) 0x04 0 = satAdd 32 (s.odGet (linkIndex k + 3) 0x04 0) n) ∧
      (l.retry ≠ [] → 8 ≤ l.replays + 1 → ∃ w, exec (.replayTimeout k) s = .next w ∧ (w.link k).st = .retraining ∧
        (w.link k).cause = 8 ∧ (w.link k).replays = 0 ∧ (w.link k).retry = l.retry ∧
        Logged s w 0x0403 (k.val + 8 * 2 ^ 8)) ∧
      ∀ ackSeq : BitVec 12, ∃ w, exec (.resume k ackSeq) s = .next w ∧
        (w.link k).retry = (l.retry.filter fun p => decide (2048 ≤ (ackSeq.toNat + 4096 - p.1 % 4096) % 4096)) ∧
        (w.link k).replay = (w.link k).retry ∧ (w.link k).st = .up ∧ (w.link k).tx = l.tx ∧ (w.link k).rx = l.rx ∧
        (l.control = some 7 → (w.link k).control = none ∧ w.out = s.out) ∧
        (l.control ≠ some 7 → (w.link k).control = l.control ∧ ∃ f : List Byte, w.out = .flit k.val f :: s.out ∧
          flitType f = 2 ∧ bits (sliceNat f 0 8) 48 8 = 7)) ∧
    (l.st ≠ .up → exec (.retrain k) s = .next s ∧
      (∀ n, exec (.codewordLockLost k n) s = .next (s.odAdd 32 (linkIndex k + 3) 0x04 n)) ∧
      (∀ ackSeq, exec (.resume k ackSeq) s = .next s) ∧ exec (.replayTimeout k) s = .next s) ∧
    (l.st ≠ .retraining → exec (.retrainingComplete k) s = .next s ∧ exec (.retrainingTimeout k) s = .next s) ∧
    (Accepts s via (0x2B10 + 8 * k.val) 0x01 3 → l.st ≠ .up → ∃ w : State, exec (.linkRetrain via k) s = .next w ∧
      w.links = s.links ∧ w.out.head? = some (.value via (odKey (0x2B10 + 8 * k.val) 0x01) 0x08000022 [])) ∧
    (l.st = .retraining →
      (∃ w, exec (.retrainingComplete k) s = .next w ∧ (w.link k).st = .up ∧ (w.link k).replay = l.retry ∧
        (w.link k).retry = l.retry ∧ (w.link k).tx = l.tx ∧ (w.link k).rx = l.rx ∧ (w.link k).credits = l.credits ∧
        (w.link k).tags = l.tags ∧ (w.link k).control = some 7 ∧ (∃ f, w.out = .flit k.val f :: s.out) ∧
        ∀ j, j ≠ k → w.link j = s.link j) ∧
      ∃ u : State, exec (.retrainingTimeout k) s = .next (Lost l u) ∧ Dropped s u k .down l.cause) ∧
    (l.carries = true → ∃ u : State, exec (.peerSilent k) s = .next (Lost l u) ∧ Dropped s u k .down 7) ∧
    (l.carries = false → exec (.peerSilent k) s = .next s) ∧
    (Accepts s via (0x2B10 + 8 * k.val) 0x01 2 →
      (l.st ≠ .disabled → ∃ u : State,
        exec (.linkDisable via k) s = .next ((Lost l u).served via (0x2B10 + 8 * k.val) 0x01 0 []) ∧
        Dropped s u k .disabled 1) ∧
      (l.st = .disabled → exec (.linkDisable via k) s = .next (s.served via (0x2B10 + 8 * k.val) 0x01 0 [])))) ∧
  ∀ (u : State) (h : BitVec 128),
    (kindAnswered (txnKind h) = true → txnSrc h = u.device → u.lostTxn h = u) ∧
    (kindAnswered (txnKind h) = true → txnSrc h ≠ u.device → ∃ v : State,
      u.lostTxn h = v.respond h (if txnKind h = 3 then 4 else if txnKind h = 9 then 0xA else 5) 2 false 0 0 [] ∧
      { v with od := u.od } = u ∧ v.odGet 0x2B03 0x03 0 = satAdd 32 (u.odGet 0x2B03 0x03 0) 1 ∧
      v.odGet 0x2B03 0x07 0 = txnDst h + txnSrc h * 2 ^ 12 + txnKind h * 2 ^ 24) ∧
    (kindAnswered (txnKind h) = false → { u.lostTxn h with od := u.od } = u ∧
      (u.lostTxn h).odGet 0x2B03 0x05 0 = satAdd 32 (u.odGet 0x2B03 0x05 0) 1)

/-- Lane tests (R381, R383–R385, R388): what the decoder found is counted; more codewords than OD 0x2B02.03,
or more symbols of a lane than .0A, within the window of .04 begin a test, as do the test command and the
peer's request; both ends send PRBS31; a lane that passes in both directions is kept, unless it is its fourth
pass within 60 s; the others are retired, and the link resumes, retrains on two or three lanes, or is FAILED.
-/
def Obligations.LaneTests : Prop :=
  ∀ (s : State) (via : Path) (k : Fin 24), s.inv = true →
    let l := s.link k
    let tests := fun (w : State) (prbs : Bool) (control : Option Nat) => (w.link k).st = .testing ∧
      (w.link k).prbs = prbs ∧ (w.link k).measured = [] ∧ (w.link k).control = control ∧
      (w.link k).retry = l.retry ∧ (w.link k).tx = l.tx ∧ (w.link k).active = l.active ∧
      Logged s w 0x0403 k.val ∧
      w.odGet (linkIndex k + 3) 0x08 0 = satAdd 32 (s.odGet (linkIndex k + 3) 0x08 0) 1
    (l.st = .up →
      (Accepts s via (0x2B10 + 8 * k.val) 0x01 4 → ∃ w : State, exec (.laneTest via k) s = .next w ∧
        tests w false (some 1) ∧ Answered w via (0x2B10 + 8 * k.val) 0x01) ∧
      ∃ w, exec (.testReq k) s = .next w ∧ tests w true (some 2)) ∧
    (∀ (n : Nat) (symbols : List Nat),
      let notes : List FecNote := ⟨s.supCycles, n, symbols⟩ ::
        l.fec.filter fun x => decide (s.supCycles < x.since + s.odGet 0x2B02 0x04 1000 * 800)
      let burst := s.odGet 0x2B02 0x03 8 < (notes.map (·.failures)).sum ∨
        ∃ i < 4, s.odGet 0x2B02 0x0A 65536 < (notes.map (·.symbols.getD i 0)).sum
      ∃ w : State, exec (.burstThreshold k n symbols) s = .next w ∧
        w.odGet (linkIndex k + 3) 0x04 0 = satAdd 32 (s.odGet (linkIndex k + 3) 0x04 0) n ∧
        w.odGet (linkIndex k + 3) 0x05 0 = satAdd 64 (s.odGet (linkIndex k + 3) 0x05 0) symbols.sum ∧
        (burst → l.st = .up → tests w false (some 1) ∧ (w.link k).fec = []) ∧
        (burst → l.st ≠ .up → LinkIs s w k { l with fec := [] } ∧ w.out = s.out ∧ w.log = s.log) ∧
        (¬ burst → LinkIs s w k { l with fec := notes } ∧ w.out = s.out ∧ w.log = s.log)) ∧
    (Accepts s via (0x2B10 + 8 * k.val) 0x01 4 → l.st ≠ .up → ∃ w : State, exec (.laneTest via k) s = .next w ∧
      w.links = s.links ∧ w.out.head? = some (.value via (odKey (0x2B10 + 8 * k.val) 0x01) 0x08000022 [])) ∧
    (l.st = .testing → l.measured = [] → ∃ w, exec (.testReq k) s = .next w ∧
      LinkIs s w k { l with prbs := true, control := some 2, nakDue := (w.link k).nakDue, nakSent := (w.link k).nakSent
                            cvc := (w.link k).cvc } ∧
      ∃ f, w.out = .flit k.val f :: s.out) ∧
    (l.st ≠ .up → l.st ≠ .testing ∨ l.measured ≠ [] → exec (.testReq k) s = .next s) ∧
    (l.st ≠ .testing ∨ l.control ≠ some 1 → exec (.testAck k) s = .next s ∧ exec (.testReqTimeout k) s = .next s) ∧
    (∀ ms, l.st ≠ .testing ∨ l.prbs = false ∨ ms = [] → exec (.prbsTestComplete k ms) s = .next s) ∧
    (∀ peer, l.st ≠ .testing ∨ l.measured = [] → exec (.testResult k peer) s = .next s) ∧
    (l.st = .testing →
      (l.control = some 1 →
        (∃ w, exec (.testAck k) s = .next w ∧ LinkIs s w k { l with prbs := true, control := none }) ∧
        ∃ w, exec (.testReqTimeout k) s = .next w ∧ (w.link k).st = .retraining ∧ (w.link k).control = some 4 ∧
          (w.link k).retry = l.retry) ∧
      (∀ ms, l.prbs = true → ms ≠ [] → ∃ w, exec (.prbsTestComplete k ms) s = .next w ∧ (w.link k).prbs = false ∧
        (w.link k).measured = ms ∧ (w.link k).control = some 3 ∧ (∃ f, w.out = .flit k.val f :: s.out) ∧
        ∀ i : Fin 4, ((∀ m ∈ ms, m.lane ≠ i) → (w.link k).lanes[i.val] = l.lanes[i.val]) ∧
          ∀ m ∈ ms, m.lane = i → (∀ x ∈ ms, x.lane = i → x = m) → (w.link k).lanes[i.val] = { l.lanes[i.val] with
            errors := min m.errors 0xFFFF, horizontal := min m.horizontal 0xFF, vertical := min m.vertical 0xFF }) ∧
      ∀ peer, l.measured ≠ [] →
        let judged := fun u : State => ∀ i : Fin 4,
          ((u.link k).active.getLsbD i.val = true ↔ l.active.getLsbD i.val = true ∧ LaneKept s l peer i) ∧
          ((u.link k).retired.getLsbD i.val = true ↔
            l.retired.getLsbD i.val = true ∨ (l.active.getLsbD i.val = true ∧ ¬ LaneKept s l peer i))
        ((∀ i : Fin 4, l.active.getLsbD i.val = true → LaneKept s l peer i) → ∃ w,
          exec (.testResult k peer) s = .next w ∧ (w.link k).st = .up ∧ (w.link k).active = l.active ∧
          (w.link k).retired = l.retired ∧ (w.link k).replay = l.retry ∧ (w.link k).control = some 7 ∧
          Logged s w 0x0400 k.val) ∧
        ∀ i : Fin 4, l.active.getLsbD i.val = true → ¬ LaneKept s l peer i →
          (∀ a b : Fin 4, a ≠ b → l.active.getLsbD a.val = true → l.active.getLsbD b.val = true →
              LaneKept s l peer a → LaneKept s l peer b → ∃ w, exec (.testResult k peer) s = .next w ∧
            (w.link k).st = .retraining ∧ judged w ∧ (w.link k).retry = l.retry ∧ (w.link k).tx = l.tx ∧
            (w.link k).control = some 5) ∧
          ((∀ a b : Fin 4, l.active.getLsbD a.val = true → l.active.getLsbD b.val = true → LaneKept s l peer a →
              LaneKept s l peer b → a = b) → ∃ u : State,
            exec (.testResult k peer) s = .next ((Lost l u).logEvent 0x0402 k.val) ∧ (u.link k).st = .failed ∧
            (u.link k).cause = 5 ∧ (u.link k).tx = [] ∧ (u.link k).retry = [] ∧
            ∀ j : Fin 4, (u.link k).retired.getLsbD j.val = true ↔
              l.retired.getLsbD j.val = true ∨ (l.active.getLsbD j.val = true ∧ ¬ LaneKept s l peer j)))

/-- Flits (R366–R372, R383): a DATA flit is taken when its CRC holds and it is the next expected, a duplicate
is dropped, any other asks for a replay, and a failed CRC counts toward the burst that begins a lane test;
acknowledgement frees the retry buffer; a replay sends the held flits again; a new flit takes up to seven
slots that have a credit, VC4 first, then VC0, and is held until it is acknowledged. -/
def Obligations.FlitsAndReplay : Prop :=
  ∀ (s : State) (k : Fin 24), s.inv = true →
    let l := s.link k
    let nakked := fun w : State => LinkIs s w k { l with nakDue := l.nakDue || !l.nakSent }
    (∀ flit : List Byte, (l.st ≠ .up ∧ l.st ≠ .testing) ∨ flit.length ≠ 128 →
      exec (.flitReceive k flit) s = .next s) ∧
    (∀ flit : List Byte, l.st = .up ∨ l.st = .testing → flit.length = 128 →
      (sliceNat flit 120 4 ≠ crc32c (flit.take 120) → ∃ w : State,
        exec (.flitReceive k flit) s = .next (w.noteBurst k 1 []) ∧ nakked w ∧
        { w with links := s.links, od := s.od } = s ∧
        w.odGet (linkIndex k + 3) 0x03 0 = satAdd 32 (s.odGet (linkIndex k + 3) 0x03 0) 1) ∧
      (sliceNat flit 120 4 = crc32c (flit.take 120) →
        (flitType flit ≠ 1 → exec (.flitReceive k flit) s = .next s) ∧
        (flitType flit = 1 → flitSeq flit = l.rxSeq → ∃ w : State, exec (.flitReceive k flit) s = .next w ∧
          LinkIs s w k
            { l with rx := (w.link k).rx, rxSeq := (l.rxSeq + 1) % 4096, rxValid := true, nakSent := false } ∧
          (∀ vc < 5, sget [] (w.link k).rx vc = sget [] l.rx vc ++ flitSlots flit vc) ∧
          w.odGet (linkIndex k + 3) 0x02 0 = satAdd 64 (s.odGet (linkIndex k + 3) 0x02 0) 1) ∧
        (flitType flit = 1 → ∀ n, 1 ≤ n → n ≤ 2048 → l.rxSeq = (flitSeq flit + n) % 4096 →
          exec (.flitReceive k flit) s = .next s) ∧
        (flitType flit = 1 → ∀ n, 1 ≤ n → n < 2048 → flitSeq flit = (l.rxSeq + n) % 4096 → l.rxSeq < 4096 →
          ∃ w, exec (.flitReceive k flit) s = .next w ∧ nakked w))) ∧
    (∀ x : W32, l.carries = false → exec (.sidebandReceive k x) s = .next s) ∧
    (∀ x : W32, l.carries = true →
      (sidebandCrc (x.toNat % 2 ^ 24) ≠ x.toNat / 2 ^ 24 → exec (.sidebandReceive k x) s = .next s) ∧
      (sidebandCrc (x.toNat % 2 ^ 24) = x.toNat / 2 ^ 24 → x.getLsbD 13 = false ∨ l.st ≠ .up →
        ∃ w : State, exec (.sidebandReceive k x) s = .next w ∧
        (w.link k).retry = (if x.getLsbD 12 = true then l.retry.filter fun p =>
          decide (2048 ≤ (x.toNat % 2 ^ 12 + 4096 - p.1 % 4096) % 4096) else l.retry) ∧
        (let vc := x.toNat / 2 ^ 14 % 8
         let total := x.toNat / 2 ^ 17 % 128
         (vc < 5 →
           sget 0 (w.link k).credits vc = sget 0 l.credits vc + (total + 128 - sget 0 l.seen vc) % 128 ∧
           sget 0 (w.link k).seen vc = total) ∧
         ∀ c, c ≠ vc → sget 0 (w.link k).credits c = sget 0 l.credits c) ∧
        (w.link k).st = l.st ∧ (w.link k).tx = l.tx ∧ (w.link k).rx = l.rx ∧ w.out = s.out) ∧
      (sidebandCrc (x.toNat % 2 ^ 24) = x.toNat / 2 ^ 24 → x.getLsbD 13 = true → l.st = .up →
        let held := if x.getLsbD 12 = true then l.retry.filter fun p =>
          decide (2048 ≤ (x.toNat % 2 ^ 12 + 4096 - p.1 % 4096) % 4096) else l.retry
        let n := (if held.length < l.retry.length then 0 else l.replays) + 1
        ∃ w : State, exec (.sidebandReceive k x) s = .next w ∧ (w.link k).retry = held ∧ (w.link k).tx = l.tx ∧
          (w.link k).replay = held ∧
          w.odGet (linkIndex k + 3) 0x06 0 = satAdd 32 (s.odGet (linkIndex k + 3) 0x06 0) 1 ∧
          (n < 8 → (w.link k).st = .up ∧ (w.link k).replays = n ∧ w.out = s.out) ∧
          (8 ≤ n → (w.link k).st = .retraining ∧ (w.link k).cause = 8 ∧ (w.link k).replays = 0 ∧
            (w.link k).control = some 4))) ∧
    (l.st ≠ .up ∨ l.retry = [] → exec (.replayTimeout k) s = .next s) ∧
    (l.st = .up → l.retry ≠ [] → l.replays + 1 < 8 → ∃ w : State, exec (.replayTimeout k) s = .next w ∧
      LinkIs s w k { l with replay := l.retry, replays := l.replays + 1 } ∧
      w.odGet (linkIndex k + 3) 0x06 0 = satAdd 32 (s.odGet (linkIndex k + 3) 0x06 0) 1) ∧
    (∀ code, l.control = some code → ∃ w : State, exec (.controlFlitResend k) s = .next w ∧
      (w.link k).control = some code ∧ ∃ f : List Byte, w.out = .flit k.val f :: s.out ∧
        flitType f = 2 ∧ bits (sliceNat f 0 8) 48 8 = code % 256) ∧
    (l.control = none → exec (.controlFlitResend k) s = .next s) ∧
    bit l.sideband 13 = l.nakDue ∧
    (l.st = .testing → l.prbs = false → ∃ (w : State) (f : List Byte), exec (.flitTransmit k) s = .next w ∧
      w.out = .flit k.val f :: s.out ∧ flitType f = 0) ∧
    (l.st ≠ .up → l.st ≠ .testing ∨ l.prbs = true → exec (.flitTransmit k) s = .next s) ∧
    (l.st = .up →
      (∃ (w : State) (body : List Byte), exec (.flitTransmit k) s = .next w ∧
        w.out = .flit k.val (body ++ leBytes 4 l.sideband) :: s.out ∧ (w.link k).nakDue = false ∧
        (w.link k).nakSent = (l.nakSent || l.nakDue)) ∧
      (∀ seq body rest, l.replay = (seq, body) :: rest → ∃ w : State, exec (.flitTransmit k) s = .next w ∧
        w.out = .flit k.val (body ++ leBytes 4 l.sideband) :: s.out ∧ (w.link k).replay = rest ∧
        (w.link k).retry = l.retry ∧ (w.link k).txSeq = l.txSeq) ∧
      (l.replay = [] → 64 ≤ l.retry.length ∨ (∀ vc < 5, sget [] l.tx vc = [] ∨ sget 0 l.credits vc = 0) →
        ∃ w : State, exec (.flitTransmit k) s = .next w ∧ (w.link k).retry = l.retry ∧ (w.link k).tx = l.tx ∧
          (w.link k).txSeq = l.txSeq ∧ ∃ f : List Byte, w.out = .flit k.val f :: s.out ∧ flitType f = 0) ∧
      (l.replay = [] → l.retry.length < 64 → (∃ vc < 5, sget [] l.tx vc ≠ [] ∧ sget 0 l.credits vc ≠ 0) →
        ∃ (w : State) (slots : List (Nat × Bool × List Byte)) (body : List Byte),
          exec (.flitTransmit k) s = .next w ∧ slots ≠ [] ∧ slots.length ≤ 7 ∧
          (w.link k).retry = l.retry ++ [(l.txSeq, body)] ∧ (w.link k).txSeq = (l.txSeq + 1) % 4096 ∧
          w.out = .flit k.val (body ++ leBytes 4 l.sideband) :: s.out ∧
          body = flitBody (dataHeader l.txSeq slots) (slots.flatMap (·.2.2)) ∧
          (∀ vc < 5, let mine := (slots.filter fun x => x.1 == vc).map (·.2)
            sget [] l.tx vc = mine ++ sget [] (w.link k).tx vc ∧
            sget 0 l.credits vc = mine.length + sget 0 (w.link k).credits vc) ∧
          (sget [] l.tx 4 ≠ [] → sget 0 l.credits 4 ≠ 0 → slots.head?.map (·.1) = some 4) ∧
          (sget [] l.tx 4 = [] ∨ sget 0 l.credits 4 = 0 → sget [] l.tx 0 ≠ [] → sget 0 l.credits 0 ≠ 0 →
            slots.head?.map (·.1) = some 0) ∧
          w.odGet (linkIndex k + 3) 0x01 0 = satAdd 64 (s.odGet (linkIndex k + 3) 0x01 0) 1))

/-- Transactions (R373–R380): a WRITE or READ for this device is checked, made and answered with its status; a
response frees its tag and completes its request; an MREQ that starts a transfer takes its place in the
request queue; one for another device is relayed with HOPS one lower, across the die over the mesh, or
answered with 0x3 or 0x2; a reserved kind is dropped from its channel and counted. While a pseudo-channel
retires, a write to it is dropped (R302). -/
def Obligations.LinkTransactions : Prop :=
  ∀ (s : State) (k : Fin 24) (x : Txn), s.inv = true →
    let h := x.header
    let u := s.takeTxn k x
    let f := frameIx (txnDfr h)
    let serves := (s.frame f).st = .loaded ∨ (s.frame f).st = .running ∨ (s.frame f).st = .stopped
    let a := txnA h
    let stack := ∃ n o, regionOf a = .stack n o
    let staging := ∃ o, regionOf a = .staging o
    let free := u.freeTag
    (txnDst h = s.device →
      (txnKind h = 1 → txnFlag h 0 = false →
        (¬ serves → exec (.write k x) s = .next (u.respond h 5 4 false 0 0 [])) ∧
        (serves → a % 64 ≠ 0 ∨ txnLen h % 4 ≠ 0 ∨ txnLen h = 0 ∨ 4096 < a % 4096 + 16 * txnLen h →
          exec (.write k x) s = .next (u.respond h 5 5 false 0 0 [])) ∧
        (serves → a % 64 = 0 → txnLen h % 4 = 0 → txnLen h ≠ 0 → a % 4096 + 16 * txnLen h ≤ 4096 →
          x.payload.length = 16 * txnLen h →
          (s.accessCode (some f) true a (16 * txnLen h) ≠ 0 → ∃ v : State, exec (.write k x) s =
            .next (v.respond h 5 (s.accessCode (some f) true a (16 * txnLen h)) false 0 0 []) ∧ v.mem = s.mem) ∧
          (s.accessCode (some f) true a (16 * txnLen h) = 0 → txnPoison h = false →
            ∃ v : State, exec (.write k x) s = .next (v.respond h 5 0 false 0 0 []) ∧
              (∀ i, i < txnLen h / 4 → (stack → s.placeRetiring (a + 64 * i) = false) →
                v.mem.read (a + 64 * i) 64 = slice x.payload (64 * i) 64) ∧
              (∀ i, i < txnLen h / 4 → stack → s.placeRetiring (a + 64 * i) = true →
                v.mem.read (a + 64 * i) 64 = s.mem.read (a + 64 * i) 64) ∧
              ∀ b, b < a ∨ a + 16 * txnLen h ≤ b → v.mem.byte b = s.mem.byte b) ∧
          (s.accessCode (some f) true a (16 * txnLen h) = 0 → txnPoison h = true →
            (staging → exec (.write k x) s = .next (u.respond h 5 6 false 0 0 [])) ∧
            (¬ staging → ∃ v : State, exec (.write k x) s = .next (v.respond h 5 0 false 0 0 []))))) ∧
      (txnKind h = 1 → txnFlag h 0 = true →
        (a % 64 ≠ 0 ∨ txnLen h % 4 ≠ 0 ∨ txnLen h = 0 ∨ 4096 < a % 4096 + 16 * txnLen h →
          exec (.write k x) s = .next (u.respond h 5 5 false 0 0 [])) ∧
        (a % 64 = 0 → txnLen h % 4 = 0 → txnLen h ≠ 0 → a % 4096 + 16 * txnLen h ≤ 4096 →
          let r := u.writeHosted (txnSrc h) a (txnData x) (txnPoison h)
          exec (.write k x) s = .next (r.2.respond h 5 r.1 false 0 0 []))) ∧
      (txnKind h = 3 → txnFlag h 0 = true →
        (a % 64 ≠ 0 → exec (.read k x) s = .next (u.respond h 4 5 false 0 0 [])) ∧
        (a % 64 = 0 →
          let r := u.readHosted (txnSrc h) a (64 * (txnB h % 64 + 1))
          exec (.read k x) s = .next (r.2.2.respond h 4 r.1 (r.1 == 6) 0 0 r.2.1))) ∧
      (txnKind h = 3 → txnFlag h 0 = false →
        (a % 64 ≠ 0 → exec (.read k x) s = .next (u.respond h 4 5 false 0 0 [])) ∧
        (a % 64 = 0 → ¬ serves → exec (.read k x) s = .next (u.respond h 4 4 false 0 0 [])) ∧
        (a % 64 = 0 → serves → s.accessCode (some f) false a (64 * (txnB h % 64 + 1)) ≠ 0 → ∃ v : State,
          exec (.read k x) s =
            .next (v.respond h 4 (s.accessCode (some f) false a (64 * (txnB h % 64 + 1))) false 0 0 []) ∧
          v.mem = s.mem) ∧
        (a % 64 = 0 → serves → s.accessCode (some f) false a (64 * (txnB h % 64 + 1)) = 0 →
          errsIn s.errs a (64 * (txnB h % 64 + 1)) = [] →
          s.undefinedGroups = [] → (stack → ∀ i, i < txnB h % 64 + 1 → s.placeRetiring (a + 64 * i) = false) →
          exec (.read k x) s = .next (u.respond h 4 0 false 0 0 (s.mem.read a (64 * (txnB h % 64 + 1)))))) ∧
      (∀ q who, u.tagLink k h = some q → sget none (u.link q).tags (txnTag h) = some who →
        let done := (free q (txnTag h)).completeRequest who (if txnStatus h = 0 ∧
          txnPoison h = true then 6 else txnStatus h)
          (txnB h % 16) (bits (txnA h) 0 12) (txnData x)
        (txnKind h = 4 → exec (.rdata k x) s = .next done) ∧ (txnKind h = 5 → exec (.ack k x) s = .next done) ∧
        (txnKind h = 0xA → exec (.mresp k x) s = .next done)) ∧
      (u.tagLink k h = none → (txnKind h = 4 → exec (.rdata k x) s = .next u) ∧
        (txnKind h = 5 → exec (.ack k x) s = .next u) ∧ (txnKind h = 0xA → exec (.mresp k x) s = .next u)) ∧
      (∀ q, (u.link q).waits = [] →
        LinkIs u (free q (txnTag h)) q { u.link q with tags := sput none (u.link q).tags (txnTag h) none }) ∧
      (txnKind h = 9 → txnA h / 2 ^ 24 % 2 ^ 22 = 0 →
        let acc : Access := { path := .uzon (txnSrc h), write := txnFlag h 0, index := BitVec.ofNat 16 a
                              sub := BitVec.ofNat 8 (a / 2 ^ 16), data := if txnFlag h 0 then txnData x else []
                              client := h.toNat, opens := txnFlag h 0 && !txnFlag h 1 }
        let own := fun y : Session => sameClient y.who (.uzon (txnSrc h) acc.index acc.sub)
        (s.queue.length < 32 →
          (s.sessions.find? own = none → exec (.mreq k x) s = .next (u.takePlace acc)) ∧
          ∀ y, s.sessions.find? own = some y →
            exec (.mreq k x) s = .next ((u.abortSession y 0x05040000).takePlace acc)) ∧
        (32 ≤ s.queue.length → exec (.mreq k x) s = .next (u.refuseFull acc))) ∧
      (txnKind h = 8 →
        let d := txnData x
        let j := jobIx (sliceNat d 0 1)
        let devs := (List.range (min 45 (sliceNat d 4 2))).map fun i => sliceNat d (6 + 2 * i) 2
        let service := txnB h % 256
        (service = svcLoss → exec (.msg k x) s = .next (u.lossReport j (sliceNat d 1 3) devs)) ∧
        (service = svcLease → exec (.msg k x) s = .next (u.leaseReport j (sliceNat d 1 3) devs)) ∧
        (service = svcAck → txnSrc h = u.standbyOf j → exec (.msg k x) s = .next (u.decisionAcked j)) ∧
        (service ≠ svcLoss → service ≠ svcLease → service ≠ svcAck ∨ txnSrc h ≠ u.standbyOf j →
          exec (.msg k x) s = .next u))) ∧
    (txnKind h = 0 ∨ 0xA < txnKind h → ∃ w : State, exec (.reservedKind k x) s = .next w ∧
      { w with od := s.od, links := s.links } = s ∧ w.odGet 0x2B03 0x06 0 = satAdd 32 (s.odGet 0x2B03 0x06 0) 1 ∧
      ∀ vc rest, vc < 5 → firstTxn (sget [] (s.link k).rx vc) = some (x, rest) →
        (∀ c, c < vc → ∀ y, firstTxn (sget [] (s.link k).rx c) = some y → y.1 ≠ x) → sget [] (w.link k).rx vc = rest) ∧
    (txnDst h ≠ s.device →
      (txnHops h ≤ 1 → ∃ v : State, { v with od := u.od } = u ∧
        v.odGet 0x2B03 0x04 0 = satAdd 32 (s.odGet 0x2B03 0x04 0) 1 ∧
        exec (.transactionRelay k x) s = .next (if kindAnswered (txnKind h) = true
          then v.respond h (if txnKind h = 3 then 4 else if txnKind h = 9 then 0xA else 5) 3 false 0 0 [] else v)) ∧
      (1 < txnHops h →
        (∀ q, u.egress (txnDst h) = some q → (q.val < 12 ↔ k.val < 12) → ∃ w : State,
          exec (.transactionRelay k x) s = .next w ∧ (∀ j, j ≠ q → w.link j = u.link j) ∧
          (∀ i sub, i ≠ 0x2B03 → sub < 256 → w.odGet i sub 0 = s.odGet i sub 0) ∧ w.out = s.out ∧
          w.odGet 0x2B03 0x01 0 = satAdd 64 (s.odGet 0x2B03 0x01 0) 1 ∧
          ∃ y : Txn, txnHops y.header = txnHops h - 1 ∧ y.payload = x.payload ∧ txnDst y.header = txnDst h ∧
            txnTag y.header = txnTag h ∧ txnA y.header = txnA h ∧ txnKind y.header = txnKind h ∧
            w.link q = { u.link q with tx := smod [] (u.link q).tx (kindVc (txnKind h)) (· ++ txnSlots y) }) ∧
        (∀ q, u.egress (txnDst h) = some q → ¬ (q.val < 12 ↔ k.val < 12) → kindVc (txnKind h) = 0 →
          let y := withHops x (txnHops h - 1)
          let across := u.modNet (u.crossTile k) fun r => r.enter (if k.val < 12 then 3 else 1) (u.crossPacket k y)
          exec (.transactionRelay k x) s = .next (across.count64 0x2B03 0x02) ∧
          (x.payload.length % 8 = 0 → crossTxn (u.crossPacket k y) = y) ∧
          pktKind (u.crossPacket k y).header = 3 ∧ pktQueue (u.crossPacket k y).header = 3 ∧
          pktClass (u.crossPacket k y).header = 3) ∧
        ((u.egress (txnDst h) = none ∨ ∃ q, u.egress (txnDst h) = some q ∧ ¬ (q.val < 12 ↔ k.val < 12) ∧
            kindVc (txnKind h) ≠ 0) → kindAnswered (txnKind h) = true →
          ∃ v : State, { v with od := u.od } = u ∧ v.odGet 0x2B03 0x03 0 = satAdd 32 (s.odGet 0x2B03 0x03 0) 1 ∧
            exec (.transactionRelay k x) s =
              .next (v.respond h (if txnKind h = 3 then 4 else if txnKind h = 9 then 0xA else 5) 2 false 0 0 [])) ∧
        ((u.egress (txnDst h) = none ∨ ∃ q, u.egress (txnDst h) = some q ∧ ¬ (q.val < 12 ↔ k.val < 12) ∧
            kindVc (txnKind h) ≠ 0) → kindAnswered (txnKind h) = false → exec (.transactionRelay k x) s = .next u))) ∧
    ∀ t o p, (s.tile t).net.ejected (stageKey o 3) = some p → pktKind p.header = 3 → pktQueue p.header = 3 →
      pktOp p.header = 6 →
      let v := s.takeStage t o p
      (isPoisoned p = true → s.crossed t o = v.count32 0x2703 0x01) ∧
      (isPoisoned p = false → v.egress (txnDst (crossTxn p).header) = none →
        s.crossed t o = v.unroutable (crossTxn p).header) ∧
      ∀ q, isPoisoned p = false → v.egress (txnDst (crossTxn p).header) = some q →
        s.crossed t o = v.sendTxn q (crossTxn p)
end

