-- ==== Sys2Proof/Laws/Dispatch.lean ====
section
/-! SUPPORT. Laws/Dispatch: the meaning of each command, one lemma per constructor, so that no proof unfolds the
dispatch. -/

namespace Sys2Proof.Machine

theorem exec_powerUp (b : BootInputs) (s : State) : exec (.powerUp b) s = execPowerUp b s := rfl

theorem exec_modReset (b : BootInputs) (s : State) : exec (.modReset b) s = execModReset b s := rfl

theorem exec_brownOut (s : State) : exec .brownOut s = execBrownOut s := rfl

theorem exec_inputOutOfLimits (mv : Nat) (s : State) : exec (.inputOutOfLimits mv) s = execInputOutOfLimits mv s := rfl

theorem exec_inputBackInLimits (mv : Nat) (s : State) :
    exec (.inputBackInLimits mv) s = execInputBackInLimits mv s := rfl

theorem exec_hardwareTrip (sensor : Fin 16) (temp : Int) (s : State) :
    exec (.hardwareTrip sensor temp) s = execHardwareTrip sensor temp s := rfl

theorem exec_recoveryImageLoad (b : BootInputs) (s : State) :
    exec (.recoveryImageLoad b) s = execRecoveryImageLoad b s := rfl

theorem exec_clockMonitorWindow (edges : Nat) (s : State) :
    exec (.clockMonitorWindow edges) s = execClockMonitorWindow edges s := rfl

theorem exec_returnToSource (via : Path) (s : State) : exec (.returnToSource via) s = execReturnToSource via s := rfl

theorem exec_powerCapAdjust (watts : Nat) (s : State) :
    exec (.powerCapAdjust watts) s = execPowerCapAdjust watts s := rfl

theorem exec_fastPathLimit (watts : Nat) (s : State) : exec (.fastPathLimit watts) s = execFastPathLimit watts s := rfl

theorem exec_thermalAdjust (sensor : Fin 16) (temp : Int) (s : State) :
    exec (.thermalAdjust sensor temp) s = execThermalAdjust sensor temp s := rfl

theorem exec_droopStretch (sensor : Fin 32) (sag : Nat) (s : State) :
    exec (.droopStretch sensor sag) s = execDroopStretch sensor sag s := rfl

theorem exec_droopHoldExpiry (lower : Bool) (s : State) :
    exec (.droopHoldExpiry lower) s = execDroopHoldExpiry lower s := rfl

theorem exec_monitorArm (via : Path) (s : State) : exec (.monitorArm via) s = execMonitorArm via s := rfl

theorem exec_monitorFreeze (via : Path) (s : State) : exec (.monitorFreeze via) s = execMonitorFreeze via s := rfl

theorem exec_monitorClear (via : Path) (s : State) : exec (.monitorClear via) s = execMonitorClear via s := rfl

theorem exec_monitorClearAndArm (via : Path) (s : State) :
    exec (.monitorClearAndArm via) s = execMonitorClearAndArm via s := rfl

theorem exec_monitorSample (point : Fin 64) (value : Int) (s : State) :
    exec (.monitorSample point value) s = execMonitorSample point value s := rfl

theorem exec_requestQueueArrival (a : Access) (s : State) :
    exec (.requestQueueArrival a) s = execRequestQueueArrival a s := rfl

theorem exec_dictionaryWrite (via : Path) (index : W16) (sub : Byte) (data : List Byte) (s : State) :
    exec (.dictionaryWrite via index sub data) s = execDictionaryWrite via index sub data s := rfl

theorem exec_segmentedTransferSegment (seg : Segment) (s : State) :
    exec (.segmentedTransferSegment seg) s = execSegmentedTransferSegment seg s := rfl

theorem exec_sessionTimeout (who : SessionId) (s : State) :
    exec (.sessionTimeout who) s = execSessionTimeout who s := rfl

theorem exec_storeParameters (via : Path) (group : Fin 3) (s : State) :
    exec (.storeParameters via group) s = execStoreParameters via group s := rfl

theorem exec_storeComplete (ok : Bool) (s : State) : exec (.storeComplete ok) s = execStoreComplete ok s := rfl

theorem exec_restoreDefaults (via : Path) (group : Fin 3) (s : State) :
    exec (.restoreDefaults via group) s = execRestoreDefaults via group s := rfl

theorem exec_restoreDefaultsComplete (ok : Bool) (s : State) :
    exec (.restoreDefaultsComplete ok) s = execRestoreDefaultsComplete ok s := rfl

theorem exec_errorHistoryClear (via : Path) (s : State) :
    exec (.errorHistoryClear via) s = execErrorHistoryClear via s := rfl

theorem exec_emcySend (s : State) : exec .emcySend s = execEmcySend s := rfl

theorem exec_startRemoteNode (node : BitVec 7) (s : State) :
    exec (.startRemoteNode node) s = execStartRemoteNode node s := rfl

theorem exec_stopRemoteNode (node : BitVec 7) (s : State) :
    exec (.stopRemoteNode node) s = execStopRemoteNode node s := rfl

theorem exec_enterPreOperational (node : BitVec 7) (s : State) :
    exec (.enterPreOperational node) s = execEnterPreOperational node s := rfl

theorem exec_resetNode (node : BitVec 7) (b : BootInputs) (s : State) :
    exec (.resetNode node b) s = execResetNode node b s := rfl

theorem exec_resetCommunication (node : BitVec 7) (strap : BitVec 7) (s : State) :
    exec (.resetCommunication node strap) s = execResetCommunication node strap s := rfl

theorem exec_heartbeatProduce (s : State) : exec .heartbeatProduce s = execHeartbeatProduce s := rfl

theorem exec_heartbeatReceive (node : BitVec 7) (s : State) :
    exec (.heartbeatReceive node) s = execHeartbeatReceive node s := rfl

theorem exec_heartbeatConsumerTimeout (c : Fin 4) (s : State) :
    exec (.heartbeatConsumerTimeout c) s = execHeartbeatConsumerTimeout c s := rfl

theorem exec_usdoRequestReceive (req : UsdoRequest) (s : State) :
    exec (.usdoRequestReceive req) s = execUsdoRequestReceive req s := rfl

theorem exec_busOffRecovery (s : State) : exec .busOffRecovery s = execBusOffRecovery s := rfl

theorem exec_markColumnPending (via : Path) (col : Byte) (s : State) :
    exec (.markColumnPending via col) s = execMarkColumnPending via col s := rfl

theorem exec_applyRetirements (via : Path) (s : State) :
    exec (.applyRetirements via) s = execApplyRetirements via s := rfl

theorem exec_load (via : Path) (f : Fin 8) (s : State) : exec (.load via f) s = execLoad via f s := rfl

theorem exec_loadComplete (f : Fin 8) (s : State) : exec (.loadComplete f) s = execLoadComplete f s := rfl

theorem exec_start (via : Path) (f : Fin 8) (s : State) : exec (.start via f) s = execStart via f s := rfl

theorem exec_stop (via : Path) (f : Fin 8) (s : State) : exec (.stop via f) s = execStop via f s := rfl

theorem exec_stopTimeout (f : Fin 8) (s : State) : exec (.stopTimeout f) s = execStopTimeout f s := rfl

theorem exec_reset (via : Path) (f : Fin 8) (s : State) : exec (.reset via f) s = execReset via f s := rfl

theorem exec_resetComplete (f : Fin 8) (s : State) : exec (.resetComplete f) s = execResetComplete f s := rfl

theorem exec_selftest (via : Path) (f : Fin 8) (s : State) : exec (.selftest via f) s = execSelftest via f s := rfl

theorem exec_selftestComplete (f : Fin 8) (r : SelfTestResult) (s : State) :
    exec (.selftestComplete f r) s = execSelftestComplete f r s := rfl

theorem exec_unload (via : Path) (f : Fin 8) (s : State) : exec (.unload via f) s = execUnload via f s := rfl

theorem exec_add (t : Nat) (rd : Reg) (ra : Reg) (rb : Reg) (s : State) :
    exec (.add t rd ra rb) s = execAdd t rd ra rb s := rfl

theorem exec_sub (t : Nat) (rd : Reg) (ra : Reg) (rb : Reg) (s : State) :
    exec (.sub t rd ra rb) s = execSub t rd ra rb s := rfl

theorem exec_andR (t : Nat) (rd : Reg) (ra : Reg) (rb : Reg) (s : State) :
    exec (.andR t rd ra rb) s = execAndR t rd ra rb s := rfl

theorem exec_orR (t : Nat) (rd : Reg) (ra : Reg) (rb : Reg) (s : State) :
    exec (.orR t rd ra rb) s = execOrR t rd ra rb s := rfl

theorem exec_xorR (t : Nat) (rd : Reg) (ra : Reg) (rb : Reg) (s : State) :
    exec (.xorR t rd ra rb) s = execXorR t rd ra rb s := rfl

theorem exec_shl (t : Nat) (rd : Reg) (ra : Reg) (rb : Reg) (s : State) :
    exec (.shl t rd ra rb) s = execShl t rd ra rb s := rfl

theorem exec_shr (t : Nat) (rd : Reg) (ra : Reg) (rb : Reg) (s : State) :
    exec (.shr t rd ra rb) s = execShr t rd ra rb s := rfl

theorem exec_sar (t : Nat) (rd : Reg) (ra : Reg) (rb : Reg) (s : State) :
    exec (.sar t rd ra rb) s = execSar t rd ra rb s := rfl

theorem exec_mul (t : Nat) (rd : Reg) (ra : Reg) (rb : Reg) (s : State) :
    exec (.mul t rd ra rb) s = execMul t rd ra rb s := rfl

theorem exec_mulhu (t : Nat) (rd : Reg) (ra : Reg) (rb : Reg) (s : State) :
    exec (.mulhu t rd ra rb) s = execMulhu t rd ra rb s := rfl

theorem exec_mulhs (t : Nat) (rd : Reg) (ra : Reg) (rb : Reg) (s : State) :
    exec (.mulhs t rd ra rb) s = execMulhs t rd ra rb s := rfl

theorem exec_minS (t : Nat) (rd : Reg) (ra : Reg) (rb : Reg) (s : State) :
    exec (.minS t rd ra rb) s = execMinS t rd ra rb s := rfl

theorem exec_minU (t : Nat) (rd : Reg) (ra : Reg) (rb : Reg) (s : State) :
    exec (.minU t rd ra rb) s = execMinU t rd ra rb s := rfl

theorem exec_maxS (t : Nat) (rd : Reg) (ra : Reg) (rb : Reg) (s : State) :
    exec (.maxS t rd ra rb) s = execMaxS t rd ra rb s := rfl

theorem exec_maxU (t : Nat) (rd : Reg) (ra : Reg) (rb : Reg) (s : State) :
    exec (.maxU t rd ra rb) s = execMaxU t rd ra rb s := rfl

theorem exec_cmp (t : Nat) (ra : Reg) (rb : Reg) (s : State) : exec (.cmp t ra rb) s = execCmp t ra rb s := rfl

theorem exec_tst (t : Nat) (ra : Reg) (rb : Reg) (s : State) : exec (.tst t ra rb) s = execTst t ra rb s := rfl

theorem exec_jalr (t : Nat) (rd : Reg) (ra : Reg) (s : State) : exec (.jalr t rd ra) s = execJalr t rd ra s := rfl

theorem exec_addi (t : Nat) (rd : Reg) (ra : Reg) (imm : W16) (s : State) :
    exec (.addi t rd ra imm) s = execAddi t rd ra imm s := rfl

theorem exec_andi (t : Nat) (rd : Reg) (ra : Reg) (imm : W16) (s : State) :
    exec (.andi t rd ra imm) s = execAndi t rd ra imm s := rfl

theorem exec_ori (t : Nat) (rd : Reg) (ra : Reg) (imm : W16) (s : State) :
    exec (.ori t rd ra imm) s = execOri t rd ra imm s := rfl

theorem exec_xori (t : Nat) (rd : Reg) (ra : Reg) (imm : W16) (s : State) :
    exec (.xori t rd ra imm) s = execXori t rd ra imm s := rfl

theorem exec_shi (t : Nat) (rd : Reg) (ra : Reg) (op : ShiftOp) (amount : BitVec 6) (s : State) :
    exec (.shi t rd ra op amount) s = execShi t rd ra op amount s := rfl

theorem exec_cmpi (t : Nat) (ra : Reg) (imm : W16) (s : State) : exec (.cmpi t ra imm) s = execCmpi t ra imm s := rfl

theorem exec_movi (t : Nat) (rd : Reg) (imm : W16) (s : State) : exec (.movi t rd imm) s = execMovi t rd imm s := rfl

theorem exec_movk (t : Nat) (rd : Reg) (hw : Fin 4) (imm : W16) (s : State) :
    exec (.movk t rd hw imm) s = execMovk t rd hw imm s := rfl

theorem exec_ldb (t : Nat) (rd : Reg) (ra : Reg) (imm : W16) (s : State) :
    exec (.ldb t rd ra imm) s = execLdb t rd ra imm s := rfl

theorem exec_ldbu (t : Nat) (rd : Reg) (ra : Reg) (imm : W16) (s : State) :
    exec (.ldbu t rd ra imm) s = execLdbu t rd ra imm s := rfl

theorem exec_ldh (t : Nat) (rd : Reg) (ra : Reg) (imm : W16) (s : State) :
    exec (.ldh t rd ra imm) s = execLdh t rd ra imm s := rfl

theorem exec_ldhu (t : Nat) (rd : Reg) (ra : Reg) (imm : W16) (s : State) :
    exec (.ldhu t rd ra imm) s = execLdhu t rd ra imm s := rfl

theorem exec_ldw (t : Nat) (rd : Reg) (ra : Reg) (imm : W16) (s : State) :
    exec (.ldw t rd ra imm) s = execLdw t rd ra imm s := rfl

theorem exec_ldwu (t : Nat) (rd : Reg) (ra : Reg) (imm : W16) (s : State) :
    exec (.ldwu t rd ra imm) s = execLdwu t rd ra imm s := rfl

theorem exec_ldd (t : Nat) (rd : Reg) (ra : Reg) (imm : W16) (s : State) :
    exec (.ldd t rd ra imm) s = execLdd t rd ra imm s := rfl

theorem exec_stb (t : Nat) (rs : Reg) (ra : Reg) (imm : W16) (s : State) :
    exec (.stb t rs ra imm) s = execStb t rs ra imm s := rfl

theorem exec_sth (t : Nat) (rs : Reg) (ra : Reg) (imm : W16) (s : State) :
    exec (.sth t rs ra imm) s = execSth t rs ra imm s := rfl

theorem exec_stw (t : Nat) (rs : Reg) (ra : Reg) (imm : W16) (s : State) :
    exec (.stw t rs ra imm) s = execStw t rs ra imm s := rfl

theorem exec_std (t : Nat) (rs : Reg) (ra : Reg) (imm : W16) (s : State) :
    exec (.std t rs ra imm) s = execStd t rs ra imm s := rfl

theorem exec_bCond (t : Nat) (c : Fin 15) (off : BitVec 22) (s : State) :
    exec (.bCond t c off) s = execBCond t c off s := rfl

theorem exec_jump (t : Nat) (off : BitVec 26) (s : State) : exec (.jump t off) s = execJump t off s := rfl

theorem exec_jal (t : Nat) (off : BitVec 26) (s : State) : exec (.jal t off) s = execJal t off s := rfl

theorem exec_issueFwd (t : Nat) (ra : Reg) (imm : W16) (s : State) :
    exec (.issueFwd t ra imm) s = execIssueFwd t ra imm s := rfl

theorem exec_issueBwd (t : Nat) (ra : Reg) (imm : W16) (s : State) :
    exec (.issueBwd t ra imm) s = execIssueBwd t ra imm s := rfl

theorem exec_issueXch (t : Nat) (ra : Reg) (imm : W16) (s : State) :
    exec (.issueXch t ra imm) s = execIssueXch t ra imm s := rfl

theorem exec_rowMap (t : Nat) (ra : Reg) (imm : W16) (s : State) :
    exec (.rowMap t ra imm) s = execRowMap t ra imm s := rfl

theorem exec_rowBinary (t : Nat) (ra : Reg) (imm : W16) (s : State) :
    exec (.rowBinary t ra imm) s = execRowBinary t ra imm s := rfl

theorem exec_rowConvert (t : Nat) (ra : Reg) (imm : W16) (s : State) :
    exec (.rowConvert t ra imm) s = execRowConvert t ra imm s := rfl

theorem exec_rowReduce (t : Nat) (ra : Reg) (imm : W16) (s : State) :
    exec (.rowReduce t ra imm) s = execRowReduce t ra imm s := rfl

theorem exec_normFwd (t : Nat) (ra : Reg) (imm : W16) (s : State) :
    exec (.normFwd t ra imm) s = execNormFwd t ra imm s := rfl

theorem exec_normBwd (t : Nat) (ra : Reg) (imm : W16) (s : State) :
    exec (.normBwd t ra imm) s = execNormBwd t ra imm s := rfl

theorem exec_softmaxFwd (t : Nat) (ra : Reg) (imm : W16) (s : State) :
    exec (.softmaxFwd t ra imm) s = execSoftmaxFwd t ra imm s := rfl

theorem exec_softmaxBwd (t : Nat) (ra : Reg) (imm : W16) (s : State) :
    exec (.softmaxBwd t ra imm) s = execSoftmaxBwd t ra imm s := rfl

theorem exec_attnProb (t : Nat) (ra : Reg) (imm : W16) (s : State) :
    exec (.attnProb t ra imm) s = execAttnProb t ra imm s := rfl

theorem exec_attnDs (t : Nat) (ra : Reg) (imm : W16) (s : State) :
    exec (.attnDs t ra imm) s = execAttnDs t ra imm s := rfl

theorem exec_actBwd (t : Nat) (ra : Reg) (imm : W16) (s : State) :
    exec (.actBwd t ra imm) s = execActBwd t ra imm s := rfl

theorem exec_dropout (t : Nat) (ra : Reg) (imm : W16) (s : State) :
    exec (.dropout t ra imm) s = execDropout t ra imm s := rfl

theorem exec_dmaMove (t : Nat) (ra : Reg) (imm : W16) (s : State) :
    exec (.dmaMove t ra imm) s = execDmaMove t ra imm s := rfl

theorem exec_dmaTranspose (t : Nat) (ra : Reg) (imm : W16) (s : State) :
    exec (.dmaTranspose t ra imm) s = execDmaTranspose t ra imm s := rfl

theorem exec_dmaStagedRead (t : Nat) (ra : Reg) (imm : W16) (s : State) :
    exec (.dmaStagedRead t ra imm) s = execDmaStagedRead t ra imm s := rfl

theorem exec_dmaStagedWrite (t : Nat) (ra : Reg) (imm : W16) (s : State) :
    exec (.dmaStagedWrite t ra imm) s = execDmaStagedWrite t ra imm s := rfl

theorem exec_dmaLinkWrite (t : Nat) (ra : Reg) (imm : W16) (s : State) :
    exec (.dmaLinkWrite t ra imm) s = execDmaLinkWrite t ra imm s := rfl

theorem exec_dmaZero (t : Nat) (ra : Reg) (imm : W16) (s : State) :
    exec (.dmaZero t ra imm) s = execDmaZero t ra imm s := rfl

theorem exec_waitk (t : Nat) (c : Fin 8) (n : W16) (s : State) : exec (.waitk t c n) s = execWaitk t c n s := rfl

theorem exec_sync (t : Nat) (kind : Fin 4) (stepAdvance : Bool) (scanClose : Bool) (switchPoint : Bool) (s : State) :
    exec (.sync t kind stepAdvance scanClose switchPoint) s = execSync t kind stepAdvance scanClose switchPoint s := rfl

theorem exec_send (t : Nat) (ra : Reg) (rb : Reg) (nq : Fin 4) (s : State) :
    exec (.send t ra rb nq) s = execSend t ra rb nq s := rfl

theorem exec_sendn (t : Nat) (rd : Reg) (ra : Reg) (rb : Reg) (nq : Fin 4) (s : State) :
    exec (.sendn t rd ra rb nq) s = execSendn t rd ra rb nq s := rfl

theorem exec_recv (t : Nat) (rd : Reg) (q : Fin 4) (s : State) : exec (.recv t rd q) s = execRecv t rd q s := rfl

theorem exec_recvn (t : Nat) (rd : Reg) (ra : Reg) (q : Fin 4) (s : State) :
    exec (.recvn t rd ra q) s = execRecvn t rd ra q s := rfl

theorem exec_tsr (t : Nat) (rd : Reg) (ix : Fin 64) (s : State) : exec (.tsr t rd ix) s = execTsr t rd ix s := rfl

theorem exec_tsww (t : Nat) (ra : Reg) (ix : Fin 64) (s : State) : exec (.tsww t ra ix) s = execTsww t ra ix s := rfl

theorem exec_rdk (t : Nat) (rd : Reg) (c : Fin 8) (s : State) : exec (.rdk t rd c) s = execRdk t rd c s := rfl

theorem exec_setk (t : Nat) (ra : Reg) (c : Fin 8) (s : State) : exec (.setk t ra c) s = execSetk t ra c s := rfl

theorem exec_rstep (t : Nat) (rd : Reg) (s : State) : exec (.rstep t rd) s = execRstep t rd s := rfl

theorem exec_trap (t : Nat) (ix : Fin 64) (s : State) : exec (.trap t ix) s = execTrap t ix s := rfl

theorem exec_rte (t : Nat) (s : State) : exec (.rte t) s = execRte t s := rfl

theorem exec_endProgram (t : Nat) (s : State) : exec (.endProgram t) s = execEndProgram t s := rfl

theorem exec_trapEntryComplete (t : Nat) (s : State) : exec (.trapEntryComplete t) s = execTrapEntryComplete t s := rfl

theorem exec_engineOperationComplete (t : Nat) (e : ArrayEngine) (u : PortUse) (s : State) :
    exec (.engineOperationComplete t e u) s = execEngineOperationComplete t e u s := rfl

theorem exec_dmaComplete (t : Nat) (u : PortUse) (s : State) : exec (.dmaComplete t u) s = execDmaComplete t u s := rfl

theorem exec_stagedReadWordArrival (t : Nat) (s : State) :
    exec (.stagedReadWordArrival t) s = execStagedReadWordArrival t s := rfl

theorem exec_stagedWriteComplete (t : Nat) (s : State) :
    exec (.stagedWriteComplete t) s = execStagedWriteComplete t s := rfl

theorem exec_counterWaitTimeout (t : Nat) (s : State) :
    exec (.counterWaitTimeout t) s = execCounterWaitTimeout t s := rfl

theorem exec_laidTableEntry (f : Fin 8) (s : State) : exec (.laidTableEntry f) s = execLaidTableEntry f s := rfl

theorem exec_xchTableEnd (t : Nat) (s : State) : exec (.xchTableEnd t) s = execXchTableEnd t s := rfl

theorem exec_syncRelease (f : Fin 8) (s : State) : exec (.syncRelease f) s = execSyncRelease f s := rfl

theorem exec_syncWatchdogExpiry (f : Fin 8) (s : State) :
    exec (.syncWatchdogExpiry f) s = execSyncWatchdogExpiry f s := rfl

theorem exec_syncTokenSend (f : Fin 8) (peer : Fin 32) (s : State) :
    exec (.syncTokenSend f peer) s = execSyncTokenSend f peer s := rfl

theorem exec_syncTokenReceive (k : Fin 24) (x : Txn) (s : State) :
    exec (.syncTokenReceive k x) s = execSyncTokenReceive k x s := rfl

theorem exec_externalSyncRelease (f : Fin 8) (s : State) :
    exec (.externalSyncRelease f) s = execExternalSyncRelease f s := rfl

theorem exec_externalTimeout (f : Fin 8) (s : State) : exec (.externalTimeout f) s = execExternalTimeout f s := rfl

theorem exec_contextSwitch (t : Nat) (s : State) : exec (.contextSwitch t) s = execContextSwitch t s := rfl

theorem exec_packetHop (t : Nat) (port : Fin 5) (cls : Fin 4) (badParity : Bool) (s : State) :
    exec (.packetHop t port cls badParity) s = execPacketHop t port cls badParity s := rfl

theorem exec_tupleArrival (t : Nat) (p : Packet) (s : State) :
    exec (.tupleArrival t p) s = execTupleArrival t p s := rfl

theorem exec_tupleEnterAfterWait (t : Nat) (q : Fin 4) (s : State) :
    exec (.tupleEnterAfterWait t q) s = execTupleEnterAfterWait t q s := rfl

theorem exec_refusalArrival (t : Nat) (p : Packet) (s : State) :
    exec (.refusalArrival t p) s = execRefusalArrival t p s := rfl

theorem exec_sendStallTimeout (t : Nat) (s : State) : exec (.sendStallTimeout t) s = execSendStallTimeout t s := rfl

theorem exec_receiveWaitTimeout (t : Nat) (s : State) :
    exec (.receiveWaitTimeout t) s = execReceiveWaitTimeout t s := rfl

theorem exec_rowReadRequest (t : Nat) (p : Packet) (u : PortUse) (s : State) :
    exec (.rowReadRequest t p u) s = execRowReadRequest t p u s := rfl

theorem exec_rowWrite (t : Nat) (p : Packet) (u : PortUse) (s : State) :
    exec (.rowWrite t p u) s = execRowWrite t p u s := rfl

theorem exec_readResponse (t : Nat) (p : Packet) (s : State) :
    exec (.readResponse t p) s = execReadResponse t p s := rfl

theorem exec_writeAcknowledgement (t : Nat) (p : Packet) (s : State) :
    exec (.writeAcknowledgement t p) s = execWriteAcknowledgement t p s := rfl

theorem exec_memoryGatewayRequest (south : Bool) (p : Packet) (s : State) :
    exec (.memoryGatewayRequest south p) s = execMemoryGatewayRequest south p s := rfl

theorem exec_supervisorQueueArrival (p : Packet) (s : State) :
    exec (.supervisorQueueArrival p) s = execSupervisorQueueArrival p s := rfl

theorem exec_supervisorTupleService (f : Fin 8) (s : State) :
    exec (.supervisorTupleService f) s = execSupervisorTupleService f s := rfl

theorem exec_supervisorTupleSend (t : Nat) (q : Fin 4) (words : List W64) (s : State) :
    exec (.supervisorTupleSend t q words) s = execSupervisorTupleSend t q words s := rfl

theorem exec_h2sData (i0 : Fin 8) (w : W32) (s : State) : exec (.h2sData i0 w) s = execH2sData i0 w s := rfl

theorem exec_s2hData (i0 : Fin 8) (s : State) : exec (.s2hData i0) s = execS2hData i0 s := rfl

theorem exec_supervisorMailboxWrite (i0 : Fin 8) (w : W32) (s : State) :
    exec (.supervisorMailboxWrite i0 w) s = execSupervisorMailboxWrite i0 w s := rfl

theorem exec_supervisorMailboxRead (i0 : Fin 8) (s : State) :
    exec (.supervisorMailboxRead i0) s = execSupervisorMailboxRead i0 s := rfl

theorem exec_mbClear (i0 : Fin 8) (host : Bool) (w : W32) (s : State) :
    exec (.mbClear i0 host w) s = execMbClear i0 host w s := rfl

theorem exec_mailboxTimeout (i0 : Fin 8) (h2s : Bool) (s : State) :
    exec (.mailboxTimeout i0 h2s) s = execMailboxTimeout i0 h2s s := rfl

theorem exec_dbH2s (w : W64) (s : State) : exec (.dbH2s w) s = execDbH2s w s := rfl

theorem exec_dbS2h (w : W64) (s : State) : exec (.dbS2h w) s = execDbS2h w s := rfl

theorem exec_supervisorDoorbellSet (w : W64) (s : State) :
    exec (.supervisorDoorbellSet w) s = execSupervisorDoorbellSet w s := rfl

theorem exec_supervisorDoorbellClear (w : W64) (s : State) :
    exec (.supervisorDoorbellClear w) s = execSupervisorDoorbellClear w s := rfl

theorem exec_watchLineCopy (t : Nat) (slot : Fin 16) (s : State) :
    exec (.watchLineCopy t slot) s = execWatchLineCopy t slot s := rfl

theorem exec_watchRecordArrival (r : WatchPost) (poisoned : Bool) (s : State) :
    exec (.watchRecordArrival r poisoned) s = execWatchRecordArrival r poisoned s := rfl

theorem exec_watchStepClose (f : Fin 8) (s : State) : exec (.watchStepClose f) s = execWatchStepClose f s := rfl

theorem exec_shadowJobComplete (t : Nat) (s : State) : exec (.shadowJobComplete t) s = execShadowJobComplete t s := rfl

theorem exec_scrubStart (via : Path) (u : Fin 5) (s : State) :
    exec (.scrubStart via u) s = execScrubStart via u s := rfl

theorem exec_scrubAbort (via : Path) (u : Fin 5) (s : State) :
    exec (.scrubAbort via u) s = execScrubAbort via u s := rfl

theorem exec_scrubRead (u : Fin 5) (s : State) : exec (.scrubRead u) s = execScrubRead u s := rfl

theorem exec_scrubPassDone (u : Fin 5) (s : State) : exec (.scrubPassDone u) s = execScrubPassDone u s := rfl

theorem exec_stackRefresh (stack : Fin 4) (s : State) : exec (.stackRefresh stack) s = execStackRefresh stack s := rfl

theorem exec_stackPeriodicCheck (stack : Fin 4) (temp : Int) (onDie : List (Nat × Nat)) (s : State) :
    exec (.stackPeriodicCheck stack temp onDie) s = execStackPeriodicCheck stack temp onDie s := rfl

theorem exec_retirePseudoChannel (via : Path) (value : W16) (s : State) :
    exec (.retirePseudoChannel via value) s = execRetirePseudoChannel via value s := rfl

theorem exec_pseudoChannelRetirementDrained (pc : Fin 256) (s : State) :
    exec (.pseudoChannelRetirementDrained pc) s = execPseudoChannelRetirementDrained pc s := rfl

theorem exec_rowTest (t : Nat) (row : Nat) (fails : Bool) (s : State) :
    exec (.rowTest t row fails) s = execRowTest t row fails s := rfl

theorem exec_runPseudoChannelTests (via : Path) (s : State) :
    exec (.runPseudoChannelTests via) s = execRunPseudoChannelTests via s := rfl

theorem exec_pseudoChannelTest (pc : Fin 256) (fails : Bool) (s : State) :
    exec (.pseudoChannelTest pc fails) s = execPseudoChannelTest pc fails s := rfl

theorem exec_faultLogFlashCopy (s : State) : exec .faultLogFlashCopy s = execFaultLogFlashCopy s := rfl

theorem exec_tallySendRecord (j : Fin 16) (r : Nat) (s : State) :
    exec (.tallySendRecord j r) s = execTallySendRecord j r s := rfl

theorem exec_tallySegmentArrival (src : TallySource) (header : BitVec 128) (data : List Byte) (s : State) :
    exec (.tallySegmentArrival src header data) s = execTallySegmentArrival src header data s := rfl

theorem exec_tallyAckReceive (j : Fin 16) (r : Nat) (step : Nat) (revision : Fin 16) (status : Fin 16) (e : BitVec 12)
    (s : State) :
    exec (.tallyAckReceive j r step revision status e) s = execTallyAckReceive j r step revision status e s := rfl

theorem exec_tallyRetry (j : Fin 16) (r : Nat) (s : State) : exec (.tallyRetry j r) s = execTallyRetry j r s := rfl

theorem exec_tallyContextClose (c : Fin 16384) (s : State) :
    exec (.tallyContextClose c) s = execTallyContextClose c s := rfl

theorem exec_tallyNoticeReceive (header : BitVec 128) (s : State) :
    exec (.tallyNoticeReceive header) s = execTallyNoticeReceive header s := rfl

theorem exec_tallyLeaseExpiry (c : Fin 16384) (s : State) :
    exec (.tallyLeaseExpiry c) s = execTallyLeaseExpiry c s := rfl

theorem exec_tallyDiscardComplete (c : Fin 16384) (s : State) :
    exec (.tallyDiscardComplete c) s = execTallyDiscardComplete c s := rfl

theorem exec_rollCallAnswer (j : Fin 16) (s : State) : exec (.rollCallAnswer j) s = execRollCallAnswer j s := rfl

theorem exec_rollAnswerReceive (j : Fin 16) (dev : Nat) (step : Nat) (ready : Bool) (s : State) :
    exec (.rollAnswerReceive j dev step ready) s = execRollAnswerReceive j dev step ready s := rfl

theorem exec_rollDeadlineExpiry (j : Fin 16) (s : State) :
    exec (.rollDeadlineExpiry j) s = execRollDeadlineExpiry j s := rfl

theorem exec_membershipReceive (j : Fin 16) (m : Membership) (s : State) :
    exec (.membershipReceive j m) s = execMembershipReceive j m s := rfl

theorem exec_reportReceive (j : Fin 16) (dev : Nat) (step : Nat) (rev : Nat) (sent : Bool) (s : State) :
    exec (.reportReceive j dev step rev sent) s = execReportReceive j dev step rev sent s := rfl

theorem exec_sealReceive (j : Fin 16) (dev : Nat) (step : Nat) (s : State) :
    exec (.sealReceive j dev step) s = execSealReceive j dev step s := rfl

theorem exec_withdrawLate (j : Fin 16) (s : State) : exec (.withdrawLate j) s = execWithdrawLate j s := rfl

theorem exec_withdrawLateReceive (j : Fin 16) (dev : Nat) (step : Nat) (retractable : Bool) (floats : List Nat)
    (s : State) :
    exec (.withdrawLateReceive j dev step retractable floats) s = execWithdrawLateReceive j dev step retractable floats s := rfl

theorem exec_keeperHeartbeat (j : Fin 16) (dev : Nat) (s : State) :
    exec (.keeperHeartbeat j dev) s = execKeeperHeartbeat j dev s := rfl

theorem exec_keeperLeaseExpiry (j : Fin 16) (s : State) :
    exec (.keeperLeaseExpiry j) s = execKeeperLeaseExpiry j s := rfl

theorem exec_takeoverReceive (j : Fin 16) (dev : Nat) (s : State) :
    exec (.takeoverReceive j dev) s = execTakeoverReceive j dev s := rfl

theorem exec_updateBucket (e : Fin 4) (s : State) : exec (.updateBucket e) s = execUpdateBucket e s := rfl

theorem exec_weightReturnReceive (src : Nat) (x : Txn) (s : State) :
    exec (.weightReturnReceive src x) s = execWeightReturnReceive src x s := rfl

theorem exec_weightReturnResend (e : Fin 4) (s : State) :
    exec (.weightReturnResend e) s = execWeightReturnResend e s := rfl

theorem exec_regenerateBucket (via : Path) (j : Fin 16) (bucket : W16) (s : State) :
    exec (.regenerateBucket via j bucket) s = execRegenerateBucket via j bucket s := rfl

theorem exec_moveStart (via : Path) (j : Fin 16) (s : State) : exec (.moveStart via j) s = execMoveStart via j s := rfl

theorem exec_moveAbort (via : Path) (j : Fin 16) (s : State) : exec (.moveAbort via j) s = execMoveAbort via j s := rfl

theorem exec_moveListDone (j : Fin 16) (s : State) : exec (.moveListDone j) s = execMoveListDone j s := rfl

theorem exec_linkTrain (via : Path) (k : Fin 24) (s : State) : exec (.linkTrain via k) s = execLinkTrain via k s := rfl

theorem exec_linkDisable (via : Path) (k : Fin 24) (s : State) :
    exec (.linkDisable via k) s = execLinkDisable via k s := rfl

theorem exec_linkRetrain (via : Path) (k : Fin 24) (s : State) :
    exec (.linkRetrain via k) s = execLinkRetrain via k s := rfl

theorem exec_laneTest (via : Path) (k : Fin 24) (s : State) : exec (.laneTest via k) s = execLaneTest via k s := rfl

theorem exec_clearRetirements (via : Path) (k : Fin 24) (s : State) :
    exec (.clearRetirements via k) s = execClearRetirements via k s := rfl

theorem exec_trainingComplete (k : Fin 24) (r : TrainResult) (s : State) :
    exec (.trainingComplete k r) s = execTrainingComplete k r s := rfl

theorem exec_trainingTimeout (k : Fin 24) (s : State) : exec (.trainingTimeout k) s = execTrainingTimeout k s := rfl

theorem exec_retrainingTimeout (k : Fin 24) (s : State) :
    exec (.retrainingTimeout k) s = execRetrainingTimeout k s := rfl

theorem exec_retrainingComplete (k : Fin 24) (s : State) :
    exec (.retrainingComplete k) s = execRetrainingComplete k s := rfl

theorem exec_autoRetrain (k : Fin 24) (s : State) : exec (.autoRetrain k) s = execAutoRetrain k s := rfl

theorem exec_peerSilent (k : Fin 24) (s : State) : exec (.peerSilent k) s = execPeerSilent k s := rfl

theorem exec_flitReceive (k : Fin 24) (flit : List Byte) (s : State) :
    exec (.flitReceive k flit) s = execFlitReceive k flit s := rfl

theorem exec_sidebandReceive (k : Fin 24) (w : W32) (s : State) :
    exec (.sidebandReceive k w) s = execSidebandReceive k w s := rfl

theorem exec_replayTimeout (k : Fin 24) (s : State) : exec (.replayTimeout k) s = execReplayTimeout k s := rfl

theorem exec_burstThreshold (k : Fin 24) (codewords : Nat) (symbols : List Nat) (s : State) :
    exec (.burstThreshold k codewords symbols) s = execBurstThreshold k codewords symbols s := rfl

theorem exec_testReq (k : Fin 24) (s : State) : exec (.testReq k) s = execTestReq k s := rfl

theorem exec_testAck (k : Fin 24) (s : State) : exec (.testAck k) s = execTestAck k s := rfl

theorem exec_testReqTimeout (k : Fin 24) (s : State) : exec (.testReqTimeout k) s = execTestReqTimeout k s := rfl

theorem exec_prbsTestComplete (k : Fin 24) (lanes : List LaneMeasure) (s : State) :
    exec (.prbsTestComplete k lanes) s = execPrbsTestComplete k lanes s := rfl

theorem exec_testResult (k : Fin 24) (peer : List LaneMeasure) (s : State) :
    exec (.testResult k peer) s = execTestResult k peer s := rfl

theorem exec_retrain (k : Fin 24) (s : State) : exec (.retrain k) s = execRetrain k s := rfl

theorem exec_caps (k : Fin 24) (c : CapsData) (s : State) : exec (.caps k c) s = execCaps k c s := rfl

theorem exec_creditInit (k : Fin 24) (s : State) : exec (.creditInit k) s = execCreditInit k s := rfl

theorem exec_resume (k : Fin 24) (ackSeq : BitVec 12) (s : State) :
    exec (.resume k ackSeq) s = execResume k ackSeq s := rfl

theorem exec_write (k : Fin 24) (x : Txn) (s : State) : exec (.write k x) s = execWrite k x s := rfl

theorem exec_read (k : Fin 24) (x : Txn) (s : State) : exec (.read k x) s = execRead k x s := rfl

theorem exec_rdata (k : Fin 24) (x : Txn) (s : State) : exec (.rdata k x) s = execRdata k x s := rfl

theorem exec_ack (k : Fin 24) (x : Txn) (s : State) : exec (.ack k x) s = execAck k x s := rfl

theorem exec_msg (k : Fin 24) (x : Txn) (s : State) : exec (.msg k x) s = execMsg k x s := rfl

theorem exec_mreq (k : Fin 24) (x : Txn) (s : State) : exec (.mreq k x) s = execMreq k x s := rfl

theorem exec_mresp (k : Fin 24) (x : Txn) (s : State) : exec (.mresp k x) s = execMresp k x s := rfl

theorem exec_reservedKind (k : Fin 24) (x : Txn) (s : State) :
    exec (.reservedKind k x) s = execReservedKind k x s := rfl

theorem exec_transactionRelay (k : Fin 24) (x : Txn) (s : State) :
    exec (.transactionRelay k x) s = execTransactionRelay k x s := rfl

theorem exec_snapshotTake (via : Path) (j : Fin 16) (s : State) :
    exec (.snapshotTake via j) s = execSnapshotTake via j s := rfl

theorem exec_snapshotAbort (via : Path) (j : Fin 16) (s : State) :
    exec (.snapshotAbort via j) s = execSnapshotAbort via j s := rfl

theorem exec_clearPartnerLost (via : Path) (j : Fin 16) (s : State) :
    exec (.clearPartnerLost via j) s = execClearPartnerLost via j s := rfl

theorem exec_snapshotStart (j : Fin 16) (s : State) : exec (.snapshotStart j) s = execSnapshotStart j s := rfl

theorem exec_snapshotStatePartDone (j : Fin 16) (s : State) :
    exec (.snapshotStatePartDone j) s = execSnapshotStatePartDone j s := rfl

theorem exec_snapshotEnd (j : Fin 16) (r : SnapshotResult) (s : State) :
    exec (.snapshotEnd j r) s = execSnapshotEnd j r s := rfl

theorem exec_hostingLeaseExpiry (slot : Fin 8) (gen : Fin 2) (s : State) :
    exec (.hostingLeaseExpiry slot gen) s = execHostingLeaseExpiry slot gen s := rfl

theorem exec_restore (via : Path) (j : Fin 16) (s : State) : exec (.restore via j) s = execRestore via j s := rfl

theorem exec_restoreAbort (via : Path) (j : Fin 16) (s : State) :
    exec (.restoreAbort via j) s = execRestoreAbort via j s := rfl

theorem exec_tallyReset (via : Path) (j : Fin 16) (s : State) :
    exec (.tallyReset via j) s = execTallyReset via j s := rfl

theorem exec_weightResend (via : Path) (j : Fin 16) (s : State) :
    exec (.weightResend via j) s = execWeightResend via j s := rfl

theorem exec_weightResendRequestReceive (j : Fin 16) (dev : Nat) (s : State) :
    exec (.weightResendRequestReceive j dev) s = execWeightResendRequestReceive j dev s := rfl

theorem exec_restoreVerifyDone (j : Fin 16) (s : State) :
    exec (.restoreVerifyDone j) s = execRestoreVerifyDone j s := rfl

theorem exec_restoreDone (j : Fin 16) (s : State) : exec (.restoreDone j) s = execRestoreDone j s := rfl

theorem exec_dwRead (ctl : W32) (s : State) : exec (.dwRead ctl) s = execDwRead ctl s := rfl

theorem exec_dwWrite (ctl : W32) (s : State) : exec (.dwWrite ctl) s = execDwWrite ctl s := rfl

theorem exec_dwComplete (s : State) : exec .dwComplete s = execDwComplete s := rfl

theorem exec_ackResult (seq : W32) (s : State) : exec (.ackResult seq) s = execAckResult seq s := rfl

theorem exec_ringEnable (r : Fin 16) (ctl : W32) (s : State) :
    exec (.ringEnable r ctl) s = execRingEnable r ctl s := rfl

theorem exec_ringDisable (r : Fin 16) (ctl : W32) (s : State) :
    exec (.ringDisable r ctl) s = execRingDisable r ctl s := rfl

theorem exec_ringResume (r : Fin 16) (ctl : W32) (s : State) :
    exec (.ringResume r ctl) s = execRingResume r ctl s := rfl

theorem exec_prod (r : Fin 16) (v : W32) (s : State) : exec (.prod r v) s = execProd r v s := rfl

theorem exec_ringDescriptorProcess (r : Fin 16) (desc : List Byte) (data : List Byte) (failed : Option HostFailure)
    (s : State) :
    exec (.ringDescriptorProcess r desc data failed) s = execRingDescriptorProcess r desc data failed s := rfl

theorem exec_ringDescriptorComplete (r : Fin 16) (s : State) :
    exec (.ringDescriptorComplete r) s = execRingDescriptorComplete r s := rfl

theorem exec_hostRegisterWrite (off : Nat) (size : Nat) (v : Option W64) (s : State) :
    exec (.hostRegisterWrite off size v) s = execHostRegisterWrite off size v s := rfl

theorem exec_stagingWrite (off : Nat) (data : List Byte) (s : State) :
    exec (.stagingWrite off data) s = execStagingWrite off data s := rfl

theorem exec_functionLevelReset (s : State) : exec .functionLevelReset s = execFunctionLevelReset s := rfl

theorem exec_hotReset (s : State) : exec .hotReset s = execHotReset s := rfl

theorem exec_perstN (high : Bool) (s : State) : exec (.perstN high) s = execPerstN high s := rfl

theorem exec_firmwareProgram (via : Path) (s : State) : exec (.firmwareProgram via) s = execFirmwareProgram via s := rfl

theorem exec_firmwareProgramComplete (flash : FlashOutcome) (s : State) :
    exec (.firmwareProgramComplete flash) s = execFirmwareProgramComplete flash s := rfl

theorem exec_firmwareRestart (via : Path) (s : State) : exec (.firmwareRestart via) s = execFirmwareRestart via s := rfl

theorem exec_raiseSecurityVersion (via : Path) (s : State) :
    exec (.raiseSecurityVersion via) s = execRaiseSecurityVersion via s := rfl

theorem exec_bypass (tdi : Bool) (s : State) : exec (.bypass tdi) s = execBypass tdi s := rfl

theorem exec_idcode (s : State) : exec .idcode s = execIdcode s := rfl

theorem exec_samplePreload (preload : Option W64) (s : State) :
    exec (.samplePreload preload) s = execSamplePreload preload s := rfl

theorem exec_extest (s : State) : exec .extest s = execExtest s := rfl

theorem exec_canBusError (tec : Nat) (recv : Nat) (s : State) :
    exec (.canBusError tec recv) s = execCanBusError tec recv s := rfl

theorem exec_canReceiveOverrun (s : State) : exec .canReceiveOverrun s = execCanReceiveOverrun s := rfl

theorem exec_pcieRefclkChange (good : Bool) (s : State) :
    exec (.pcieRefclkChange good) s = execPcieRefclkChange good s := rfl

theorem exec_codewordLockLost (k : Fin 24) (codewords : Nat) (s : State) :
    exec (.codewordLockLost k codewords) s = execCodewordLockLost k codewords s := rfl

theorem exec_controlFlitResend (k : Fin 24) (s : State) :
    exec (.controlFlitResend k) s = execControlFlitResend k s := rfl

theorem exec_flitTransmit (k : Fin 24) (s : State) : exec (.flitTransmit k) s = execFlitTransmit k s := rfl

theorem exec_outboundQueueDrain (t : Nat) (s : State) :
    exec (.outboundQueueDrain t) s = execOutboundQueueDrain t s := rfl

theorem exec_standbyLeaseExpiry (j : Fin 16) (s : State) :
    exec (.standbyLeaseExpiry j) s = execStandbyLeaseExpiry j s := rfl

theorem exec_pciePowerStateChange (d3hot : Bool) (l2 : Bool) (s : State) :
    exec (.pciePowerStateChange d3hot l2) s = execPciePowerStateChange d3hot l2 s := rfl

theorem exec_pcieLinkUp (speed : Fin 6) (width : Nat) (maxPayload : Nat) (corrected : Nat) (s : State) :
    exec (.pcieLinkUp speed width maxPayload corrected) s = execPcieLinkUp speed width maxPayload corrected s := rfl

theorem exec_msixTableWrite (off : Nat) (v : W32) (s : State) :
    exec (.msixTableWrite off v) s = execMsixTableWrite off v s := rfl

theorem exec_supervisorRestartComplete (s : State) :
    exec .supervisorRestartComplete s = execSupervisorRestartComplete s := rfl

theorem exec_illegalInstruction (t : Nat) (word : W32) (s : State) :
    exec (.illegalInstruction t word) s = execIllegalInstruction t word s := rfl

end Sys2Proof.Machine
end

