-- ==== Sys2Proof/Laws/Sparse.lean ====
section
/-! SUPPORT. Laws of sparse data and byte memories: what a read gives after a write, and that every memory operation
keeps the canonical form. -/

namespace Sys2Proof.Machine

variable {α : Type}

/-! ### Rising keys -/

/-- Every key lies at or above `lo`, keys strictly rising. -/
def above (lo : Nat) : SMap α → Prop
  | [] => True
  | (j, _) :: m => lo ≤ j ∧ above (j + 1) m

theorem above_mono {lo lo' : Nat} (h : lo' ≤ lo) : ∀ {m : SMap α}, above lo m → above lo' m
  | [], _ => trivial
  | (_, _) :: _, hm => ⟨Nat.le_trans h hm.1, hm.2⟩

theorem srising_cons_iff : ∀ {j : Nat} {v : α} {m : SMap α}, srising ((j, v) :: m) = true ↔ above (j + 1) m
  | _, _, [] => by simp [srising, above]
  | j, v, (k, w) :: m => by
    rw [srising, Bool.and_eq_true, srising_cons_iff]
    simp [above, Nat.succ_le_iff]

theorem srising_iff : ∀ {m : SMap α}, srising m = true ↔ above 0 m
  | [] => by simp [srising, above]
  | (j, v) :: m => by rw [srising_cons_iff]; simp [above]

theorem sget_below {d : α} {k lo : Nat} (h : k < lo) : ∀ {m : SMap α}, above lo m → sget d m k = d
  | [], _ => rfl
  | (j, _) :: _, hm => by
    have : k < j := Nat.lt_of_lt_of_le h hm.1
    simp [sget, this, Nat.ne_of_gt this]

theorem sput_above [DecidableEq α] {d : α} {k : Nat} {v : α} :
    ∀ {lo : Nat} {m : SMap α}, lo ≤ k → above lo m → above lo (sput d m k v)
  | lo, [], hk, _ => by
    by_cases hv : v = d <;> simp [sput, above, hv, hk]
  | lo, (j, w) :: m, hk, hm => by
    rw [sput]
    split
    · split
      · exact hm
      · exact ⟨hk, ‹k < j›, hm.2⟩
    · split
      · rename_i h1 h2
        subst h2
        split
        · exact above_mono (by omega) hm.2
        · exact ⟨hk, hm.2⟩
      · exact ⟨hm.1, sput_above (by omega) hm.2⟩

theorem filter_above {p : Nat × α → Bool} : ∀ {lo : Nat} {m : SMap α}, above lo m → above lo (m.filter p)
  | _, [], _ => trivial
  | lo, (j, v) :: m, hm => by
    rw [List.filter_cons]
    split
    · exact ⟨hm.1, filter_above hm.2⟩
    · exact filter_above (above_mono (Nat.le_succ_of_le hm.1) hm.2)

theorem filterMap_above {β : Type} {g : Nat × α → Option (Nat × β)} (hg : ∀ p q, g p = some q → q.1 = p.1) :
    ∀ {lo : Nat} {m : SMap α}, above lo m → above lo (m.filterMap g)
  | _, [], _ => trivial
  | lo, p :: m, hm => by
    rw [List.filterMap_cons]
    split
    · exact filterMap_above hg (above_mono (Nat.le_succ_of_le hm.1) hm.2)
    · rename_i q h
      have e := hg p q h
      exact ⟨e ▸ hm.1, e ▸ filterMap_above hg hm.2⟩

theorem srising_sput [DecidableEq α] {d : α} {m : SMap α} (h : srising m = true) (k : Nat) (v : α) :
    srising (sput d m k v) = true := srising_iff.mpr (sput_above (Nat.zero_le _) (srising_iff.mp h))

theorem srising_smod [DecidableEq α] {d : α} {m : SMap α} (h : srising m = true) (k : Nat) (f : α → α) :
    srising (smod d m k f) = true := srising_sput h ..

theorem srising_filter {m : SMap α} (h : srising m = true) (p : Nat × α → Bool) : srising (m.filter p) = true :=
  srising_iff.mpr (filter_above (srising_iff.mp h))

theorem srising_sclear {m : SMap α} (h : srising m = true) (lo hi : Nat) : srising (sclear m lo hi) = true :=
  srising_filter h _

theorem srising_filterMap {β : Type} {m : SMap α} (h : srising m = true) (g : Nat × α → Option (Nat × β))
    (hg : ∀ p q, g p = some q → q.1 = p.1) : srising (m.filterMap g) = true :=
  srising_iff.mpr (filterMap_above hg (srising_iff.mp h))

theorem srising_map {β : Type} {m : SMap α} (h : srising m = true) (g : Nat × α → β) :
    srising (m.map fun p => (p.1, g p)) = true := by
  rw [← List.filterMap_eq_map]
  exact srising_filterMap h _ fun p q e => by cases e; rfl

theorem srising_foldl [DecidableEq α] {β : Type} {d : α} (g : β → Option (Nat × α)) :
    ∀ (l : List β) {m : SMap α}, srising m = true →
      srising (l.foldl (fun a p => match g p with | some q => sput d a q.1 q.2 | none => a) m) = true
  | [], _, h => h
  | p :: l, m, h => by
    refine srising_foldl g l ?_
    show srising (match g p with | some q => sput d m q.1 q.2 | none => m) = true
    cases g p with
    | none => exact h
    | some q => exact srising_sput h ..

/-! ### A read after a write -/

theorem sget_sput_above [DecidableEq α] {d : α} {k : Nat} {v : α} :
    ∀ {lo : Nat} {m : SMap α}, above lo m → sget d (sput d m k v) k = v
  | _, [], _ => by
    by_cases hv : v = d <;> simp [sput, sget, hv]
  | lo, (j, w) :: m, hm => by
    rw [sput]
    split
    · rename_i hkj
      by_cases hv : v = d
      · simp [hv, sget, hkj, Nat.ne_of_gt hkj]
      · simp [hv, sget]
    · split
      · rename_i h1 h2
        subst h2
        by_cases hv : v = d
        · simp only [hv, if_true]
          exact sget_below (Nat.lt_succ_self _) hm.2
        · simp [hv, sget]
      · rename_i h1 h2
        simp only [sget, if_neg h2, if_neg h1]
        exact sget_sput_above hm.2

theorem sget_sput_ne [DecidableEq α] {d : α} {k i : Nat} {v : α} (hik : i ≠ k) :
    ∀ {lo : Nat} {m : SMap α}, above lo m → sget d (sput d m k v) i = sget d m i
  | _, [], _ => by
    by_cases hv : v = d <;> simp [sput, sget, hv, Ne.symm hik]
  | lo, (j, w) :: m, hm => by
    rw [sput]
    split
    · rename_i hkj
      by_cases hv : v = d
      · simp [hv]
      · rw [if_neg hv, sget, if_neg (Ne.symm hik)]
        by_cases hi : i < k
        · have : i < j := Nat.lt_trans hi hkj
          simp [sget, hi, this, Nat.ne_of_gt this]
        · rw [if_neg hi]
    · split
      · rename_i h1 h2
        subst h2
        by_cases hv : v = d
        · rw [if_pos hv]
          by_cases hi : i < j
          · simp only [sget, if_neg (Ne.symm hik), if_pos hi]
            exact sget_below (by omega) hm.2
          · simp [sget, Ne.symm hik, hi]
        · simp [hv, sget, Ne.symm hik]
      · rename_i h1 h2
        by_cases hi : j = i
        · simp [sget, hi]
        · simp only [sget, if_neg hi]
          rw [sget_sput_ne hik hm.2]

/-- What was written is read. -/
theorem sget_sput_same [DecidableEq α] {d : α} {m : SMap α} (h : srising m = true) (k : Nat) (v : α) :
    sget d (sput d m k v) k = v := sget_sput_above (srising_iff.mp h)

/-- Every other key reads as before. -/
theorem sget_sput_other [DecidableEq α] {d : α} {m : SMap α} (h : srising m = true) {k i : Nat} (v : α) (hik : i ≠ k) :
    sget d (sput d m k v) i = sget d m i := sget_sput_ne hik (srising_iff.mp h)

/-- What a cleared range reads as, and that nothing else changes. -/
theorem sget_sclear_above {d : α} {a b i : Nat} : ∀ {lo : Nat} {m : SMap α}, above lo m →
    sget d (sclear m a b) i = if a ≤ i ∧ i < b then d else sget d m i
  | _, [], _ => by simp [sclear, sget]
  | lo, (j, v) :: m, hm => by
    have ih := sget_sclear_above (d := d) (a := a) (b := b) (i := i) hm.2
    rw [sclear, List.filter_cons]
    by_cases hj : j < a ∨ b ≤ j
    · rw [if_pos (by simpa using hj)]
      by_cases h1 : j = i
      · subst h1
        rw [if_neg (by omega)]
        simp [sget]
      · by_cases h2 : i < j
        · simp [sget, h1, h2]
        · simp only [sget, if_neg h1, if_neg h2]
          exact ih
    · rw [if_neg (by simpa using hj)]
      refine ih.trans ?_
      by_cases h1 : j = i
      · subst h1
        rw [if_pos (by omega), if_pos (by omega)]
      · by_cases h2 : i < j
        · rw [sget_below (by omega : i < j + 1) hm.2]
          simp [sget, h1, h2]
        · simp [sget, h1, h2]

/-! ### The canonical form -/

/-- Rising keys from `lo`, and no entry equal to the default. -/
def sorted [DecidableEq α] (d : α) (lo : Nat) (m : SMap α) : Prop := above lo m ∧ ∀ p ∈ m, p.2 ≠ d

theorem swf_iff [DecidableEq α] {d : α} : ∀ {m : SMap α}, swf d m = true ↔ sorted d 0 m
  | [] => by simp [swf, sorted, above]
  | [(j, v)] => by simp [swf, sorted, above]
  | (j, v) :: (k, w) :: m => by
    rw [swf, Bool.and_eq_true, Bool.and_eq_true, swf_iff]
    simp [sorted, above, Nat.succ_le_iff]
    grind

theorem swf_rising [DecidableEq α] {d : α} {m : SMap α} (h : swf d m = true) : srising m = true :=
  srising_iff.mpr (swf_iff.mp h).1

theorem sput_mem [DecidableEq α] {d : α} {k : Nat} {v : α} : ∀ {m : SMap α}, (∀ p ∈ m, p.2 ≠ d) →
    ∀ p ∈ sput d m k v, p.2 ≠ d
  | [], _, p, hp => by
    by_cases hv : v = d <;> simp_all [sput]
  | (j, w) :: m, hm, p, hp => by
    rw [sput] at hp
    have ih := sput_mem (k := k) (v := v) (m := m) (fun p h => hm p (List.mem_cons_of_mem _ h)) p
    split at hp <;> (try split at hp) <;> (try split at hp) <;> simp_all <;> grind

theorem swf_sput [DecidableEq α] {d : α} {m : SMap α} (h : swf d m = true) (k : Nat) (v : α) :
    swf d (sput d m k v) = true :=
  swf_iff.mpr ⟨sput_above (Nat.zero_le _) (swf_iff.mp h).1, sput_mem (swf_iff.mp h).2⟩

theorem swf_filter [DecidableEq α] {d : α} {m : SMap α} (h : swf d m = true) (p : Nat × α → Bool) :
    swf d (m.filter p) = true :=
  swf_iff.mpr ⟨filter_above (swf_iff.mp h).1, fun q hq => (swf_iff.mp h).2 q (List.mem_filter.mp hq).1⟩

theorem swf_foldl [DecidableEq α] {β : Type} {d : α} (g : β → Option (Nat × α)) :
    ∀ (l : List β) {m : SMap α}, swf d m = true →
      swf d (l.foldl (fun a p => match g p with | some q => sput d a q.1 q.2 | none => a) m) = true
  | [], _, h => h
  | p :: l, m, h => by
    refine swf_foldl g l ?_
    show swf d (match g p with | some q => sput d m q.1 q.2 | none => m) = true
    cases g p with
    | none => exact h
    | some q => exact swf_sput h ..

/-! ### Byte memories -/

/-- Writing one byte keeps the canonical form. -/
theorem Mem.setByte_wf {m : Mem} (h : m.wf = true) (a : Nat) (b : Byte) : (m.setByte a b).wf = true :=
  swf_sput h ..

/-- Writing bytes keeps the canonical form. -/
theorem Mem.write_wf : ∀ (bs : List Byte) {m : Mem} (a : Nat), m.wf = true → (m.write a bs).wf = true
  | [], _, _, h => h
  | _ :: bs, _, a, h => Mem.write_wf bs (a + 1) (Mem.setByte_wf h a _)

/-- Clearing a range keeps the canonical form. -/
theorem Mem.zero_wf {m : Mem} (h : m.wf = true) (a n : Nat) : (m.zero a n).wf = true :=
  swf_filter h _

/-- The byte just written. -/
theorem Mem.byte_setByte_same {m : Mem} (h : m.wf = true) (a : Nat) (b : Byte) : (m.setByte a b).byte a = b :=
  sget_sput_same (swf_rising h) ..

/-- Every other byte. -/
theorem Mem.byte_setByte_other {m : Mem} (h : m.wf = true) {a i : Nat} (b : Byte) (hi : i ≠ a) :
    (m.setByte a b).byte i = m.byte i :=
  sget_sput_other (swf_rising h) _ hi

/-- A byte outside a written range. -/
theorem Mem.byte_write_outside : ∀ (bs : List Byte) {m : Mem} {a i : Nat}, m.wf = true →
    (i < a ∨ a + bs.length ≤ i) → (m.write a bs).byte i = m.byte i
  | [], _, _, _, _, _ => rfl
  | b :: bs, m, a, i, h, hi => by
    rw [Mem.write, Mem.byte_write_outside bs (Mem.setByte_wf h a b) (by simp at hi; omega)]
    exact Mem.byte_setByte_other h b (by simp at hi; omega)

/-- A byte inside a written range. -/
theorem Mem.byte_write_inside : ∀ (bs : List Byte) {m : Mem} {a : Nat} (i : Nat) (hi : i < bs.length), m.wf = true →
    (m.write a bs).byte (a + i) = bs[i]
  | b :: bs, m, a, 0, _, h => by
    rw [Mem.write, Nat.add_zero, Mem.byte_write_outside bs (Mem.setByte_wf h a b) (by omega)]
    exact Mem.byte_setByte_same h a b
  | b :: bs, m, a, i + 1, hi, h => by
    have := Mem.byte_write_inside bs (a := a + 1) i (by simpa using hi) (Mem.setByte_wf h a b)
    simpa [Mem.write, Nat.add_assoc, Nat.add_comm 1 i] using this

/-- The bytes just written. -/
theorem Mem.read_write_same : ∀ (bs : List Byte) {m : Mem} (a : Nat), m.wf = true →
    (m.write a bs).read a bs.length = bs
  | [], _, _, _ => rfl
  | b :: bs, m, a, h => by
    rw [List.length_cons, Mem.read, Mem.write, Mem.read_write_same bs (a + 1) (Mem.setByte_wf h a b),
      Mem.byte_write_outside bs (Mem.setByte_wf h a b) (by omega), Mem.byte_setByte_same h a b]

/-- A byte of a cleared range reads as zero, every other byte as before. -/
theorem Mem.byte_zero {m : Mem} (h : m.wf = true) (a n i : Nat) :
    (m.zero a n).byte i = if a ≤ i ∧ i < a + n then 0 else m.byte i :=
  sget_sclear_above (swf_iff.mp h).1

end Sys2Proof.Machine
end

