-- ==== Sys2Proof/Laws/Kept.lean ====
section
/-! SUPPORT. Kept: every operation of the model leaves the queue of waiting commands alone and keeps a sound state
sound; here the named operations. One lemma per operation. -/

namespace Sys2Proof.Machine

/-- A sound state, fact by fact (State.inv). -/
structure Sound (s : State) : Prop where
  mem : s.mem.wf = true
  stat : s.stat.wf = true
  columns : s.grid.columns.length = 50
  width : s.grid.width ≤ 48
  log : s.log.length ≤ 256
  kept : s.flash.log.length ≤ 256
  emcy : s.can.queue.length ≤ 16
  history : s.can.history.length ≤ 16
  queue : s.queue.length ≤ 32
  first : 1 ≤ s.host.nextSeq
  last : s.host.nextSeq ≤ 0xFFFFFFFF
  flash : s.flash.ok = true
  rising : s.rising = true

theorem inv_iff {s : State} : s.inv = true ↔ Sound s := by
  constructor
  · intro h
    simp only [State.inv, Bool.and_eq_true, decide_eq_true_eq] at h
    obtain ⟨⟨⟨⟨⟨⟨⟨⟨⟨⟨⟨⟨h1, h2⟩, h3⟩, h4⟩, h5⟩, h6⟩, h7⟩, h8⟩, h9⟩, h10⟩, h11⟩, h12⟩, h13⟩ := h
    exact ⟨h1, h2, h3, h4, h5, h6, h7, h8, h9, h10, h11, h12, h13⟩
  · intro h
    simp only [State.inv, Bool.and_eq_true, decide_eq_true_eq]
    exact ⟨⟨⟨⟨⟨⟨⟨⟨⟨⟨⟨⟨h.mem, h.stat⟩, h.columns⟩, h.width⟩, h.log⟩, h.kept⟩, h.emcy⟩, h.history⟩, h.queue⟩, h.first⟩,
      h.last⟩, h.flash⟩, h.rising⟩

/-- What no command and no operation changes, and the soundness that each keeps: the queue of waiting commands is
left alone, and a sound state stays sound. -/
def Kept (s t : State) : Prop := t.pending = s.pending ∧ (Sound s → Sound t)

theorem Kept.rfl (s : State) : Kept s s := by grind [Kept]

theorem Kept.trans {a b c : State} (h : Kept a b) (g : Kept b c) : Kept a c := by grind [Kept]

theorem Kept.ite {s a b : State} {c : Prop} [Decidable c] (h : Kept s a) (g : Kept s b) :
    Kept s (if c then a else b) := by split <;> assumption

/-- A kept state that was sound is sound. -/
theorem Kept.inv {s t : State} (h : Kept s t) (hs : s.inv = true) : t.inv = true := inv_iff.mpr (h.2 (inv_iff.mp hs))

theorem foldl_kept {α : Type} (g : State → α → State) (h : ∀ s x, Kept s (g s x)) (l : List α) :
    ∀ s, Kept s (l.foldl g s) := by
  induction l with
  | nil => exact fun s => Kept.rfl s
  | cons x l ih => exact fun s => Kept.trans (h s x) (ih _)

theorem foldl_rel {α β : Type} (P : β → Prop) (g : β → α → β) (h : ∀ b a, P b → P (g b a)) :
    ∀ (l : List α) (b : β), P b → P (l.foldl g b)
  | [], _, hb => hb
  | a :: l, b, hb => foldl_rel P g h l (g b a) (h b a hb)

theorem repeat_kept (g : State → State) (h : ∀ s, Kept s (g s)) : ∀ (n : Nat) (s : State), Kept s (Nat.repeat g n s)
  | 0, s => Kept.rfl s
  | n + 1, s => Kept.trans (repeat_kept g h n s) (h _)

/-! ### Ops.lean -/

theorem State.odSet_kept (s : State) (i : Nat) (sub : Nat) (v : Nat) : Kept s (State.odSet s i sub v) := by
  grind [State.odSet, Kept, Sound, State.rising, srising_sput, srising_smod, srising_sclear, Mem.write_wf,
      Mem.zero_wf]

theorem State.odAdd_kept (s : State) (w : Nat) (i : Nat) (sub : Nat) (n : Nat) : Kept s (State.odAdd s w i sub n)
    := by
  grind [State.odAdd, Kept, !. State.odSet_kept]

theorem State.count32_kept (s : State) (i : Nat) (sub : Nat) : Kept s (State.count32 s i sub) := by
  grind [State.count32, Kept, !. State.odAdd_kept]

theorem State.count64_kept (s : State) (i : Nat) (sub : Nat) : Kept s (State.count64 s i sub) := by
  grind [State.count64, Kept, !. State.odAdd_kept]

theorem State.draw_kept (s : State) : Kept s (State.draw s).2 := by
  grind [State.draw, Kept, Sound, State.rising, srising_sput, srising_smod, srising_sclear, Mem.write_wf,
      Mem.zero_wf]

theorem State.setTile_kept (s : State) (t : Nat) (x : Tile) : Kept s (State.setTile s t x) := by
  grind [State.setTile, Kept, Sound, State.rising, srising_sput, srising_smod, srising_sclear, Mem.write_wf,
      Mem.zero_wf]

theorem State.modTile_kept (s : State) (t : Nat) (f : Tile → Tile) : Kept s (State.modTile s t f) := by
  grind [State.modTile, Kept, !. State.setTile_kept]

theorem State.setFrame_kept (s : State) (f : Fin 8) (x : Frame) : Kept s (State.setFrame s f x) := by
  grind [State.setFrame, Kept, Sound, State.rising, srising_sput, srising_smod, srising_sclear, Mem.write_wf,
      Mem.zero_wf]

theorem State.modFrame_kept (s : State) (f : Fin 8) (g : Frame → Frame) : Kept s (State.modFrame s f g) := by
  grind [State.modFrame, Kept, !. State.setFrame_kept]

theorem State.modTiles_kept (s : State) (ts : List Nat) (f : Nat → Tile → Tile) : Kept s (State.modTiles s ts f)
    := by
  unfold State.modTiles
  refine foldl_kept _ (fun s x => ?_) _ _
  grind [Kept, !. State.modTile_kept]

theorem State.emit_kept (s : State) (o : Out) : Kept s (State.emit s o) := by
  grind [State.emit, Kept, Sound, State.rising, srising_sput, srising_smod, srising_sclear, Mem.write_wf,
      Mem.zero_wf]

theorem State.raise_kept (s : State) (v : Nat) : Kept s (State.raise s v) := by
  grind [State.raise, Kept, Sound, State.rising, srising_sput, srising_smod, srising_sclear, Mem.write_wf,
      Mem.zero_wf, !. State.emit_kept]

theorem State.queueEmcy_kept (s : State) (e : Emcy) : Kept s (State.queueEmcy s e) := by
  grind [State.queueEmcy, Kept, Sound, State.rising, srising_sput, srising_smod, srising_sclear, Mem.write_wf,
      Mem.zero_wf, !. State.count32_kept]

theorem State.setSummary_kept (s : State) (code : Nat) : Kept s (State.setSummary s code) := by
  grind [State.setSummary, Kept, Sound, State.rising, srising_sput, srising_smod, srising_sclear, Mem.write_wf,
      Mem.zero_wf, !. State.raise_kept]

theorem State.publishAt_kept (s : State) (i : Nat) (source : Nat) (payload : List Byte) : Kept s (State.publishAt
    s i source payload) := by
  grind [State.publishAt, Kept, Sound, State.rising, srising_sput, srising_smod, srising_sclear, Mem.write_wf,
      Mem.zero_wf, !. State.raise_kept, !. State.count64_kept]

theorem State.publish_kept (s : State) (source : Nat) (payload : List Byte) : Kept s (State.publish s source
    payload) := by
  grind [State.publish, Kept, Sound, State.rising, srising_sput, srising_smod, srising_sclear, Mem.write_wf,
      Mem.zero_wf, !. State.publishAt_kept, !. State.count32_kept]

theorem logLog_kept (a : State) (e) : Kept a { a with log := (e :: a.log).take 256 } := by
  grind [Kept, Sound, State.rising]
theorem logCan_kept (a : State) (e x y) : Kept a { a with can := { a.can with
      history := (e :: a.can.history).take 16, conditions := x, held := y } } := by
  grind [Kept, Sound, State.rising]
theorem State.logWith_kept (s : State) (event : Nat) (detail : Nat) (emcy : Nat) : Kept s (State.logWith s event
    detail emcy) := by
  unfold State.logWith
  extract_lets a b
  have ka : Kept s a := by
    unfold a
    split
    · exact State.count32_kept ..
    · exact Kept.trans (State.count32_kept ..) (State.count32_kept ..)
  have kb : Kept s b := Kept.trans ka (logLog_kept ..)
  split
  · exact kb
  · rename_i src c d hn
    have kd : Kept s d := Kept.trans (Kept.trans kb (logCan_kept ..)) (Kept.trans (State.queueEmcy_kept ..)
        (State.setSummary_kept ..))
    split
    · exact Kept.trans kd (State.publish_kept ..)
    · exact kd

theorem State.logEvent_kept (s : State) (event : Nat) (detail : Nat) : Kept s (State.logEvent s event detail) := by
  grind [State.logEvent, Kept, !. State.logWith_kept]

theorem State.clearCondition_kept (s : State) (code : Nat) : Kept s (State.clearCondition s code) := by
  grind [State.clearCondition, Kept, Sound, State.rising, srising_sput, srising_smod, srising_sclear,
      Mem.write_wf, Mem.zero_wf, !. State.queueEmcy_kept]

/-! ### Memory.lean -/

theorem State.logSplit_kept (s : State) (e : CellErr) (code unit : Nat) : Kept s (State.logSplit s e code unit) := by
  grind [State.logSplit, Kept, !. State.logEvent_kept]

theorem State.pendRow_kept (s : State) (t : Nat) (row : Nat) : Kept s (State.pendRow s t row) := by
  grind [State.pendRow, Kept, Sound, State.rising, srising_sput, srising_smod, srising_sclear, Mem.write_wf,
      Mem.zero_wf]

theorem scanGroup_kept (t row req cyc : Nat) (r : RowScan) (p : Nat × CellErr) : Kept r.s (scanGroup t row req cyc r
    p).s := by
  grind [scanGroup, Kept, !. State.draw_kept, !. State.logSplit_kept, !. State.modTile_kept]
theorem State.scanRow_kept (s : State) (t row req : Nat) : Kept s (State.scanRow s t row req).s :=
  foldl_rel (fun r : RowScan => Kept s r.s) _ (fun _ _ h => Kept.trans h (scanGroup_kept ..)) _ _ (Kept.rfl s)


theorem RowScan.close_kept (r : RowScan) (t row : Nat) : Kept r.s (RowScan.close r t row) := by
  grind [RowScan.close, Kept, !. State.modTile_kept, !. State.pendRow_kept, !. State.logEvent_kept, !.
      State.count64_kept]

theorem State.readRow_kept (s : State) (t : Nat) (row : Nat) (req : Nat) : Kept s (State.readRow s t row req).2 :=
  Kept.trans (State.scanRow_kept ..) (RowScan.close_kept ..)

theorem State.writeRow_kept (s : State) (t : Nat) (row : Nat) (data : List Byte) (poison : Bool) : Kept s
    (State.writeRow s t row data poison) := by
  unfold State.writeRow
  dsimp only
  split
  all_goals first
    | grind [Kept, Sound, State.rising, srising_sput, srising_smod, srising_sclear, Mem.write_wf]
    | (refine foldl_kept _ (fun s x => ?_) _ _ <;> grind [Kept, Sound, State.rising, srising_sput, srising_smod,
        srising_sclear, Mem.write_wf])
    | (refine Kept.trans ?_ (foldl_kept _ (fun s x => ?_) _ _) <;> grind [Kept, Sound, State.rising, srising_sput,
        srising_smod, srising_sclear, Mem.write_wf])

theorem State.readScratch_kept (s : State) (t : Nat) (off : Nat) (n : Nat) : Kept s (State.readScratch s t off
    n).2.2 := by
  unfold State.readScratch
  refine foldl_rel (fun r : ReadOut × Option Nat × State => Kept s r.2.2) _ (fun r p h => ?_) _ _ (Kept.rfl s)
  refine Kept.trans h ?_
  grind [Kept, !. State.draw_kept, !. State.logEvent_kept, !. State.modTile_kept, !. State.logSplit_kept]

theorem State.writeScratch_kept (s : State) (t : Nat) (off : Nat) (data : List Byte) : Kept s (State.writeScratch
    s t off data) := by
  grind [State.writeScratch, Kept, Sound, State.rising, srising_sput, srising_smod, srising_sclear, Mem.write_wf,
      Mem.zero_wf]

theorem State.readLine_kept (s : State) (t : Nat) (line : Nat) : Kept s (State.readLine s t line).2 := by
  unfold State.readLine
  refine foldl_rel (fun r : ReadOut × State => Kept s r.2) _ (fun r p h => ?_) _ _ (Kept.rfl s)
  refine Kept.trans h ?_
  grind [Kept, !. State.draw_kept, !. State.logEvent_kept, !. State.modTile_kept, !. State.logSplit_kept]

theorem State.writeLine_kept (s : State) (t : Nat) (line : Nat) (data : List Byte) : Kept s (State.writeLine s t
    line data) := by
  grind [State.writeLine, Kept, Sound, State.rising, srising_sput, srising_smod, srising_sclear, Mem.write_wf,
      Mem.zero_wf]

theorem State.windowRefusal_kept (s : State) (t : Nat) (ctx : Nat) (mem : Nat) (u : Nat) : Kept s
    (State.windowRefusal s t ctx mem u) := by
  grind [State.windowRefusal, Kept, !. State.modTile_kept]

theorem State.modPc_kept (s : State) (i : Nat) (f : PseudoChannel → PseudoChannel) : Kept s (State.modPc s i f) :=
    by
  grind [State.modPc, Kept, Sound, State.rising, srising_sput, srising_smod, srising_sclear, Mem.write_wf,
      Mem.zero_wf]

theorem State.pendPc_kept (s : State) (pc : Nat) (block : Nat) : Kept s (State.pendPc s pc block) := by
  grind [State.pendPc, Kept, Sound, State.rising, srising_sput, srising_smod, srising_sclear, Mem.write_wf,
      Mem.zero_wf]

theorem State.lastStackError_kept (s : State) (a : Nat) (kind : Nat) (pc : Nat) (loc : Nat) : Kept s
    (State.lastStackError s a kind pc loc) := by
  grind [State.lastStackError, Kept, !. State.modPc_kept, !. State.odSet_kept]

theorem State.blockLost_kept (s : State) (a : Nat) : Kept s (State.blockLost s a) := by
  grind [State.blockLost, Kept, !. State.modPc_kept, !. State.count64_kept, !. State.lastStackError_kept, !.
      State.pendPc_kept, !. State.logEvent_kept]

theorem State.readBlock_kept (s : State) (a : Nat) : Kept s (State.readBlock s a).2 := by
  grind [State.readBlock, Kept, !. State.draw_kept, !. State.logSplit_kept, !. State.blockLost_kept, !.
      State.count64_kept, !. State.lastStackError_kept, !. State.modPc_kept]

theorem State.writeBlock_kept (s : State) (a : Nat) (data : List Byte) (poison : Bool) : Kept s (State.writeBlock
    s a data poison) := by
  grind [State.writeBlock, Kept, Sound, State.rising, srising_sput, srising_smod, srising_sclear, Mem.write_wf,
      Mem.zero_wf]

theorem State.readBlocks_kept (s : State) (a : Nat) (blocks : Nat) : Kept s (State.readBlocks s a blocks).2 := by
  induction blocks generalizing s a with
  | zero => exact Kept.rfl s
  | succ n ih => exact Kept.trans (State.readBlock_kept ..) (ih ..)

theorem State.writeBlocks_kept (s : State) (a : Nat) (data : List Byte) (poison : Bool) : Kept s
    (State.writeBlocks s a data poison) := by
  unfold State.writeBlocks
  refine foldl_kept _ (fun s x => ?_) _ _
  grind [Kept, !. State.writeBlock_kept]

theorem State.readStaging_kept (s : State) (a : Nat) (n : Nat) : Kept s (State.readStaging s a n).2 := by
  unfold State.readStaging
  refine foldl_rel (fun r : ReadOut × State => Kept s r.2) _ (fun r p h => ?_) _ _ (Kept.rfl s)
  refine Kept.trans h ?_
  grind [Kept, !. State.draw_kept, !. State.logSplit_kept]

theorem State.writeStaging_kept (s : State) (a : Nat) (data : List Byte) : Kept s (State.writeStaging s a data).2 := by
  have key : ∀ (l : List Nat) (q : Bool × State), Kept s q.2 → Kept s (l.foldl (fun q w =>
      let r := q.2.readStaging w 8; (q.1 || r.1.bad, r.2)) q).2 :=
    fun l q h => foldl_rel (fun q : Bool × State => Kept s q.2) _
      (fun q w h => Kept.trans h (State.readStaging_kept ..)) l q h
  have k := key (partWords a data.length) (false, s) (Kept.rfl s)
  unfold State.writeStaging
  split
  · exact Kept.rfl s
  · dsimp only
    split
    · exact k
    · refine Kept.trans k ?_
      grind [Kept, Sound, State.rising, Mem.write_wf]

theorem State.readDevice_kept (s : State) (a : Nat) (n : Nat) : Kept s (State.readDevice s a n).2 := by
  grind [State.readDevice, Kept, !. State.readBlocks_kept, !. State.readStaging_kept]

theorem State.writeDevice_kept (s : State) (a : Nat) (data : List Byte) (poison : Bool) : Kept s (State.writeDevice s
    a data poison).2 := by
  grind [State.writeDevice, Kept, !. State.writeBlocks_kept, !. State.writeStaging_kept]

theorem State.gatewayRead_kept (s : State) (f : Fin 8) (ctx a : Nat) : Kept s (State.gatewayRead s f ctx a).2.2 := by
  grind [State.gatewayRead, Kept, !. State.readDevice_kept]

theorem State.gatewayWrite_kept (s : State) (f : Fin 8) (ctx a : Nat) (data : List Byte) (poison : Bool) : Kept s
    (State.gatewayWrite s f ctx a data poison).2 := by
  grind [State.gatewayWrite, Kept, !. State.writeDevice_kept]

theorem State.readTable_kept (s : State) (a : Nat) (n : Nat) : Kept s (State.readTable s a n).2 := by
  grind [State.readTable, Kept, !. State.readDevice_kept]

theorem State.mergeBlock_kept (s : State) (a : Nat) (off : Nat) (new : List Byte) : Kept s (State.mergeBlock s a
    off new) := by
  grind [State.mergeBlock, Kept, !. State.readBlock_kept, !. State.writeBlock_kept]

theorem State.writeTable_kept (s : State) (a : Nat) (data : List Byte) : Kept s (State.writeTable s a data) := by
  unfold State.writeTable
  split
  · exact State.writeStaging_kept ..
  · refine foldl_kept _ (fun s i => ?_) _ _
    grind [Kept, !. State.mergeBlock_kept]
  · exact Kept.rfl s

/-! ### Mesh.lean -/

theorem State.modNet_kept (s : State) (t : Nat) (f : Router → Router) : Kept s (State.modNet s t f) := by
  grind [State.modNet, Kept, !. State.modTile_kept]

theorem State.inject_kept (s : State) (t : Nat) (p : Packet) : Kept s (State.inject s t p) := by
  grind [State.inject, Kept, !. State.modNet_kept]

theorem State.apronSend_kept (s : State) (south : Bool) (p : Packet) : Kept s (State.apronSend s south p) := by
  grind [State.apronSend, Kept, !. State.modNet_kept]

theorem State.supervisorRefusal_kept (s : State) (src : Nat) (frame : Nat) : Kept s (State.supervisorRefusal s src
    frame) := by
  grind [State.supervisorRefusal, Kept, !. State.apronSend_kept]

theorem State.refuse_kept (s : State) (t : Nat) (h : W64) (code : Nat) : Kept s (State.refuse s t h code) := by
  grind [State.refuse, Kept, !. State.count32_kept, !. State.inject_kept]

theorem State.refuseTuple_kept (s : State) (t : Nat) (p : Packet) : Kept s (State.refuseTuple s t p) := by
  grind [State.refuseTuple, Kept, !. State.modTile_kept, !. State.refuse_kept, !. State.count32_kept]

theorem State.takeStage_kept (s : State) (t o : Nat) (p : Packet) : Kept s (State.takeStage s t o p) := by
  grind [State.takeStage, Kept, !. State.modNet_kept]

theorem State.takeEjected_kept (s : State) (t : Nat) (p : Packet) : Kept s (State.takeEjected s t p) := by
  grind [State.takeEjected, Kept, !. State.takeStage_kept]

theorem State.takeApron_kept (s : State) (p : Packet) : Kept s (State.takeApron s p) := by
  grind [State.takeApron, Kept, !. State.takeStage_kept]

theorem State.holdApron_kept (s : State) (p : Packet) : Kept s (State.holdApron s p) := by
  grind [State.holdApron, Kept, !. State.modNet_kept]

theorem State.holdEjected_kept (s : State) (t : Nat) (p : Packet) : Kept s (State.holdEjected s t p) := by
  grind [State.holdEjected, Kept, !. State.modNet_kept]

theorem State.enterQueue_kept (s : State) (t : Nat) (p : Packet) : Kept s (State.enterQueue s t p) := by
  grind [State.enterQueue, Kept, !. State.modTile_kept]

theorem State.discardTuple_kept (s : State) (t : Nat) (q : Nat) : Kept s (State.discardTuple s t q) := by
  grind [State.discardTuple, Kept, !. State.count32_kept, !. State.modTile_kept]

theorem State.arriveTuple_kept (s : State) (t : Nat) (p : Packet) : Kept s (State.arriveTuple s t p) := by
  grind [State.arriveTuple, Kept, !. State.discardTuple_kept, !. State.takeEjected_kept, !.
      State.refuseTuple_kept, !. State.enterQueue_kept, !. State.holdEjected_kept]

theorem State.hop_kept (s : State) (t : Nat) (port : Nat) (cls : Nat) (o : Nat) (badParity : Bool) : Kept s
    (State.hop s t port cls o badParity) := by
  grind [State.hop, Kept, !. State.modNet_kept]

theorem State.drainOnce_kept (s : State) (t cls : Nat) : Kept s (State.drainOnce s t cls) := by
  grind [State.drainOnce, Kept, !. State.hop_kept]

theorem State.drainStage_kept (s : State) (t : Nat) : Kept s (State.drainStage s t) :=
  repeat_kept _ (fun s => State.drainOnce_kept s t 0) 4 s

theorem State.closeQueues_kept (s : State) (t : Nat) : Kept s (State.closeQueues s t) := by
  grind [State.closeQueues, Kept, !. State.modTile_kept, !. State.drainStage_kept, !.
      State.takeEjected_kept, !. State.refuseTuple_kept]

/-! ### FrameFault.lean -/

theorem State.closeSupervisorQueue_kept (s : State) (f : Fin 8) : Kept s (State.closeSupervisorQueue s f) := by
  unfold State.closeSupervisorQueue
  refine Kept.trans ?_ (foldl_kept _ (fun s x => ?_) _ _) <;> grind [Kept, !. State.setFrame_kept,
    !. State.odAdd_kept, !. State.supervisorRefusal_kept, !. State.takeApron_kept]

theorem State.dropPosts_kept (s : State) (f : Fin 8) : Kept s (State.dropPosts s f) := by
  grind [State.dropPosts, Kept, Sound, State.rising, srising_sput, srising_smod, srising_sclear, Mem.write_wf,
      Mem.zero_wf]

theorem State.abandonLinks_kept (s : State) (f : Fin 8) : Kept s (State.abandonLinks s f) := by
  refine ⟨Eq.refl _, fun h => ⟨h.mem, h.stat, h.columns, h.width, h.log, h.kept, h.emcy, h.history, h.queue,
      h.first, h.last, h.flash, ?_⟩⟩
  have k := h.rising
  simp only [State.rising, State.abandonLinks, Bool.and_eq_true] at k ⊢
  obtain ⟨⟨⟨⟨k, kl⟩, k1⟩, k2⟩, k3⟩ := k
  exact ⟨⟨⟨⟨k, srising_map kl _⟩, k1⟩, k2⟩, k3⟩

theorem State.frameFault_kept (s : State) (f : Fin 8) (cause : Nat) (tile : Nat) (detail : Nat) : Kept s
    (State.frameFault s f cause tile detail) := by
  have key : ∀ (l : List Nat) (s : State), Kept s (l.foldl (fun s t => (s.closeQueues t).modTile t
      Tile.abandonRemote) s) :=
    fun l s => foldl_kept _ (fun s t => Kept.trans (State.closeQueues_kept ..) (State.modTile_kept ..)) l s
  grind [State.frameFault, Kept, !. State.count32_kept, !. State.setFrame_kept, !. State.modTile_kept, !.
      State.closeQueues_kept, !. State.abandonLinks_kept, !. State.dropPosts_kept, !. State.closeSupervisorQueue_kept,
      !. State.odSet_kept, !. State.logEvent_kept]

/-! ### Trap.lean -/

theorem State.enterTrap_kept (s : State) (t : Nat) (f : Fin 8) (q0 : TrapCause) : Kept s (State.enterTrap s t f
    q0) := by
  grind [State.enterTrap, Kept, !. State.writeScratch_kept, !. State.modTile_kept]

theorem State.raiseTrap_kept (s : State) (t : Nat) (f : Fin 8) (q : TrapCause) : Kept s (State.raiseTrap s t f q)
    := by
  grind [State.raiseTrap, Kept, !. State.modTile_kept, !. State.enterTrap_kept]

theorem State.trapFaults_kept (s : State) (t : Nat) (f : Fin 8) : Kept s (State.trapFaults s t f) := by
  grind [State.trapFaults, Kept, !. State.modTile_kept, !. State.frameFault_kept]

theorem State.trapHaltsGuest_kept (s : State) (t : Nat) (f : Fin 8) : Kept s (State.trapHaltsGuest s t f) := by
  grind [State.trapHaltsGuest, Kept, !. State.modTile_kept, !. State.modFrame_kept, !. State.logEvent_kept]

theorem State.trapHandles_kept (s : State) (t : Nat) (q : TrapCause) (vector : Nat) : Kept s (State.trapHandles s
    t q vector) := by
  grind [State.trapHandles, Kept, !. State.modTile_kept]

theorem State.endEntry_kept (s : State) (t : Nat) (f : Fin 8) : Kept s (State.endEntry s t f) := by
  simp only [State.endEntry]
  split
  · exact Kept.rfl s
  · split
    · exact State.trapHaltsGuest_kept ..
    · split
      · exact State.trapFaults_kept ..
      · split
        · exact State.trapFaults_kept ..
        · split
          · exact State.trapHandles_kept ..
          · exact Kept.trans (State.trapHandles_kept ..) (State.enterTrap_kept ..)

end Sys2Proof.Machine
end

