-- ==== Sys2Proof/Laws/KeptTiles.lean ====
section
/-! SUPPORT. KeptTiles: every operation of the model leaves the queue of waiting commands alone and keeps a sound state
sound; here what a tile, its engines and the message mesh do. One lemma per operation. -/

namespace Sys2Proof.Machine

/-! ### TileCore.lean -/

theorem State.modCore_kept (s : State) (t : Nat) (g : RegContext → RegContext) : Kept s (State.modCore s t g) := by
  grind [State.modCore, Kept, !. State.modTile_kept]

theorem State.coreTrap_kept (s : State) (t : Nat) (f : Fin 8) (cause : Nat) (detail : Nat) (word : Nat) : Kept s
    (State.coreTrap s t f cause detail word) := by
  grind [State.coreTrap, Kept, !. State.raiseTrap_kept]

theorem State.wordlessTrap_kept (s : State) (t : Nat) (f : Fin 8) (cause : Nat) (detail : Nat) : Kept s
    (State.wordlessTrap s t f cause detail) := by
  grind [State.wordlessTrap, Kept, !. State.draw_kept, !. State.coreTrap_kept]

theorem State.fetchPair_kept (s : State) (t : Nat) (f : Fin 8) : Kept s (State.fetchPair s t f).2 := by
  grind [State.fetchPair, Kept, !. State.windowRefusal_kept, !. State.wordlessTrap_kept, !. State.readScratch_kept, !.
      State.modTile_kept]

theorem State.fetchWord_kept (s : State) (t : Nat) (f : Fin 8) : Kept s (State.fetchWord s t f).2 := by
  grind [State.fetchWord, Kept, !. State.wordlessTrap_kept, !. State.fetchPair_kept]

theorem runFetched_kept (s : State) (t : Nat) (claims : Nat → Bool) (body : State → Fin 8 → Nat → State)
    (h : ∀ s f w, Kept s (body s f w)) : ∀ u, runFetched s t claims body = .next u → Kept s u := by
  intro u hu
  unfold runFetched at hu
  split at hu
  · cases hu
  · split at hu
    · cases hu
      exact Kept.rfl s
    · rename_i f hf
      have k := State.fetchWord_kept s t f
      split at hu
      · rename_i e
        cases hu
        rw [e] at k
        exact k
      · rename_i w u' e
        rw [e] at k
        split at hu
        · cases hu
          exact Kept.trans k (h ..)
        · cases hu
          exact Kept.rfl s

theorem runCore_kept (s : State) (t : Nat) (i : Instr) (body : State → Fin 8 → Nat → State)
    (h : ∀ s f w, Kept s (body s f w)) : ∀ u, runCore s t i body = .next u → Kept s u :=
  runFetched_kept s t _ body h

theorem coreAccess_kept (r s : State) (t : Nat) (f : Fin 8) (word a n : Nat) (write : Bool) (body : State) (hr :
    Kept r s)
    (h : Kept r body) : Kept r (coreAccess s t f word a n write body) := by
  grind [coreAccess, Kept, !. State.coreTrap_kept, !. State.windowRefusal_kept]

theorem State.retire_kept (s : State) (t : Nat) (rd : Reg) (v : W64) : Kept s (State.retire s t rd v) := by
  grind [State.retire, Kept, !. State.modCore_kept]

theorem State.retireNone_kept (s : State) (t : Nat) : Kept s (State.retireNone s t) := by
  grind [State.retireNone, Kept, !. State.modCore_kept]

theorem State.jumpTo_kept (s : State) (t : Nat) (pc : W64) : Kept s (State.jumpTo s t pc) := by
  grind [State.jumpTo, Kept, !. State.modCore_kept]

theorem State.illegal_kept (s : State) (t : Nat) (f : Fin 8) (word : Nat) : Kept s (State.illegal s t f word) := by
  grind [State.illegal, Kept, !. State.coreTrap_kept]

theorem State.startWait_kept (s : State) (t : Nat) (f : Fin 8) (w : Wait) : Kept s (State.startWait s t f w) := by
  grind [State.startWait, Kept, !. State.modTile_kept]

theorem State.endWait_kept (s : State) (t : Nat) : Kept s (State.endWait s t) := by
  grind [State.endWait, Kept, !. State.modTile_kept]

theorem State.signal_kept (s : State) (t : Nat) (ctx : Nat) (k : Nat) : Kept s (State.signal s t ctx k) := by
  grind [State.signal, Kept, !. State.modTile_kept]

theorem State.collide_kept (s : State) (t : Nat) (row : Nat) : Kept s (State.collide s t row) := by
  grind [State.collide, Kept, !. State.modTile_kept]

theorem State.usePorts_kept (s : State) (t : Nat) (u : PortUse) : Kept s (State.usePorts s t u) :=
  Kept.trans (State.modTile_kept ..) (foldl_kept _ (fun s _ => State.collide_kept s t _) _ _)

theorem State.load_kept (s : State) (t : Nat) (f : Fin 8) (word : Nat) (n : Nat) (isSigned : Bool) (rd : Reg) (ra
    : Reg) (imm : W16) : Kept s (State.load s t f word n isSigned rd ra imm) := by
  refine coreAccess_kept s s _ _ _ _ _ _ _ (Kept.rfl s) ?_
  split
  · exact Kept.trans (State.readScratch_kept ..) (State.coreTrap_kept ..)
  · exact Kept.trans (State.readScratch_kept ..) (State.retire_kept ..)

theorem State.store_kept (s : State) (t : Nat) (f : Fin 8) (word : Nat) (n : Nat) (rs : Reg) (ra : Reg) (imm :
    W16) : Kept s (State.store s t f word n rs ra imm) := by
  refine coreAccess_kept s s _ _ _ _ _ _ _ (Kept.rfl s) ?_
  exact Kept.trans (State.writeScratch_kept ..) (State.retireNone_kept ..)

/-! ### WatchRegion.lean -/

theorem State.putWatch_kept (s : State) (tid : Nat) (b : List Byte) : Kept s (State.putWatch s tid b) := by
  grind [State.putWatch, Kept, !. State.writeBlocks_kept]

theorem State.setWatch_kept (s : State) (tid : Nat) (e : WatchEntry) : Kept s (State.setWatch s tid e) :=
  State.putWatch_kept ..

/-! ### WatchTile.lean -/

theorem State.modSlot_kept (s : State) (t : Nat) (i : Nat) (f : WatchSlot → WatchSlot) : Kept s (State.modSlot s t
    i f) := by
  grind [State.modSlot, Kept, !. State.modTile_kept]

theorem State.countDropped_kept (s : State) : Kept s (State.countDropped s) := by
  grind [State.countDropped, Kept, !. State.count32_kept]

theorem State.recordWatch_kept (s : State) (t : Nat) (ctx : Nat) (tid : Nat) (sat : Nat) (flush : Nat) (nonfinite
    : Nat) (amax : Option W32) : Kept s (State.recordWatch s t ctx tid sat flush nonfinite amax) := by
  grind [State.recordWatch, Kept, !. State.countDropped_kept, !. State.modTile_kept, !. State.count32_kept, !.
      State.modSlot_kept]

theorem State.recordNonfinite_kept (s : State) (t : Nat) (ctx : Nat) (n : Nat) (grad : Bool) : Kept s
    (State.recordNonfinite s t ctx n grad) := by
  grind [State.recordNonfinite, Kept, !. State.modTile_kept]

theorem State.sampleFwd_kept (s : State) (t : Nat) (ctx : Nat) (f : Fin 8) (d : List Byte) : Kept s
    (State.sampleFwd s t ctx f d).2 := by
  simp only [State.sampleFwd]
  repeat' split
  all_goals grind [Kept, !. State.modSlot_kept, !. State.count32_kept]

theorem State.abandonShadow_kept (s : State) (t : Nat) : Kept s (State.abandonShadow s t) := by
  grind [State.abandonShadow, Kept, !. State.modTile_kept, !. State.modSlot_kept, !. State.setWatch_kept]

/-! ### Engines.lean -/

theorem State.modEngine_kept (s : State) (t : Nat) (e : Nat) (g : Engine → Engine) : Kept s (State.modEngine s t e
    g) := by
  grind [State.modEngine, Kept, !. State.modTile_kept]

theorem State.finishOp_kept (s : State) (t : Nat) (f : Fin 8) (e : Nat) (op : EngOp) (bus : Option Nat) : Kept s
    (State.finishOp s t f e op bus) := by
  simp only [State.finishOp]
  split
  · exact Kept.trans (Kept.trans (State.count64_kept ..) (State.modEngine_kept ..)) (State.signal_kept ..)
  · exact Kept.trans (Kept.trans (Kept.trans (Kept.trans (State.count64_kept ..) (State.modEngine_kept ..))
      (State.signal_kept ..)) (State.draw_kept ..)) (State.raiseTrap_kept ..)

theorem State.engineRow_kept (s : State) (t : Nat) (ctx : Nat) (req : Nat) (r : Nat) : Kept s (State.engineRow s t
    ctx req r).2 := by
  grind [State.engineRow, Kept, !. State.readRow_kept, !. State.windowRefusal_kept]

theorem State.engineWrite_kept (s : State) (t : Nat) (ctx : Nat) (r : Nat) (data : List Byte) (poison : Bool) :
    Kept s (State.engineWrite s t ctx r data poison).2 := by
  grind [State.engineWrite, Kept, !. State.writeRow_kept, !. State.windowRefusal_kept]

theorem readEngineRow_kept (t ctx req : Nat) (a : EngineReads) (r : Nat) : Kept a.s (readEngineRow t ctx req a
    r).s := by
  grind [readEngineRow, Kept, !. State.engineRow_kept]
theorem State.engineReads_kept (s : State) (t ctx req : Nat) (rows : List Nat) : Kept s (s.engineReads t ctx req
    rows).s :=
  foldl_rel (fun a : EngineReads => Kept s a.s) _ (fun a r h => Kept.trans h (readEngineRow_kept ..)) rows _
      (Kept.rfl s)
theorem State.writeOut_kept (s : State) (t : Nat) (ctx : Nat) (b : OutBuf) (bus : Option Nat) : Kept s
    (State.writeOut s t ctx b bus).2 := by
  unfold State.writeOut
  refine foldl_rel (fun a : Option Nat × State => Kept s a.2) _ (fun a r h => ?_) _ _ (Kept.rfl s)
  exact Kept.trans h (State.engineWrite_kept ..)

theorem State.recordOutputs_kept (s : State) (t : Nat) (op : EngOp) (h : Header) (b : OutBuf) (amax : Option W32)
    : Kept s (State.recordOutputs s t op h b amax) := by
  grind [State.recordOutputs, Kept, !. State.recordWatch_kept, !. State.recordNonfinite_kept]

theorem State.completeFwd_kept (s : State) (t : Nat) (f : Fin 8) (op : EngOp) : Kept s (State.completeFwd s t f op) :=
    by
  grind [State.completeFwd, Kept, Sound, State.rising, srising_sput, srising_smod, srising_sclear, Mem.write_wf,
      Mem.zero_wf, !. State.engineReads_kept, !. State.writeOut_kept, !. State.recordOutputs_kept, !.
      State.abandonShadow_kept, !. State.modTile_kept, !. State.finishOp_kept]

theorem State.completeBwd_kept (s : State) (t : Nat) (f : Fin 8) (op : EngOp) : Kept s (State.completeBwd s t f
    op) := by
  grind [State.completeBwd, !. State.engineReads_kept, Kept, !. State.writeOut_kept, !. State.recordOutputs_kept,
      !. State.count64_kept, !. State.finishOp_kept]

theorem State.statRecord_kept (s : State) (t : Nat) (ctx : Nat) (i : Nat) : Kept s (State.statRecord s t ctx
    i).2.2 := by
  grind [State.statRecord, Kept, !. State.windowRefusal_kept, !. State.readLine_kept]

theorem State.writeRecord_kept (s : State) (t : Nat) (ctx : Nat) (i : Nat) (r : W32 × W32) : Kept s
    (State.writeRecord s t ctx i r).2 := by
  grind [State.writeRecord, Kept, Sound, State.rising, srising_sput, srising_smod, srising_sclear, Mem.write_wf,
      Mem.zero_wf, !. State.windowRefusal_kept]

theorem State.statReads_kept (s : State) (t ctx first n : Nat) : Kept s (s.statReads t ctx first n).s :=
  foldl_rel (fun a : StatReads => Kept s a.s) _ (fun a r h => Kept.trans h (State.statRecord_kept ..)) (List.range
      n) _ (Kept.rfl s)
theorem State.completeRow_kept (s : State) (t : Nat) (f : Fin 8) (op : EngOp) : Kept s (State.completeRow s t f
    op) := by
  have key : ∀ (ctx first : Nat) (l : List (RowOutput × Nat)) (w : Option Nat × State), Kept w.2 (l.foldl (fun w p
      =>
      match p.1.record with
      | none => w
      | some r =>
        let q := w.2.writeRecord t ctx (first + p.2) r
        (firstBus w.1 q.1, q.2)) w).2 := by
    intro ctx first l w
    refine foldl_rel (fun a : Option Nat × State => Kept w.2 a.2) _ (fun a r h => ?_) l w (Kept.rfl _)
    grind [Kept, !. State.writeRecord_kept]
  unfold State.completeRow
  refine Kept.trans (Kept.trans ?_ (State.recordOutputs_kept ..)) (State.finishOp_kept ..)
  refine Kept.trans ?_ (key ..)
  refine Kept.trans ?_ (State.writeOut_kept ..)
  have h1 := State.engineReads_kept
  have h2 := State.statReads_kept
  split
  · exact Kept.trans (State.engineReads_kept ..) (State.statReads_kept ..)
  · exact State.engineReads_kept ..

/-! ### LinkOps.lean -/

theorem State.setLink_kept (s : State) (k : Fin 24) (x : LinkSt) : Kept s (State.setLink s k x) := by
  grind [State.setLink, Kept, Sound, State.rising, srising_sput, srising_smod, srising_sclear, Mem.write_wf,
      Mem.zero_wf]

theorem State.modLink_kept (s : State) (k : Fin 24) (f : LinkSt → LinkSt) : Kept s (State.modLink s k f) := by
  grind [State.modLink, Kept, !. State.setLink_kept]

theorem State.sendTxn_kept (s : State) (k : Fin 24) (x : Txn) : Kept s (State.sendTxn s k x) := by
  grind [State.sendTxn, Kept, !. State.modLink_kept]

theorem State.takeTag_kept (s : State) (k : Fin 24) (who : Requester) : ∀ p, s.takeTag k who = some p → Kept s p.2
    := by
  intro p h
  simp only [State.takeTag] at h
  split at h
  · cases h
  · cases h
    exact State.modLink_kept ..

theorem State.tryRequest_kept (s : State) (k : Fin 24) (who : Requester) (x : Txn) : ∀ t, State.tryRequest s k who
    x = some t → Kept s t := by
  intro u h
  simp only [State.tryRequest] at h
  split at h
  · cases h
  · rename_i heq
    cases h
    exact Kept.trans (State.takeTag_kept _ _ _ _ heq) (State.sendTxn_kept ..)

theorem State.request_kept (s : State) (k : Fin 24) (who : Requester) (f : TxnFields) (payload : List Byte) : ∀ t,
    State.request s k who f payload = some t → Kept s t := by
  grind [State.request, Kept, !. State.tryRequest_kept]

theorem State.requestOrWait_kept (s : State) (k : Fin 24) (who : Requester) (f : TxnFields) (payload : List Byte)
    : Kept s (State.requestOrWait s k who f payload) := by
  simp only [State.requestOrWait]
  split
  · cases h : s.tryRequest k who (s.requestTxn f payload) with
    | none => exact (State.modLink_kept s k (fun l => { l with waits := l.waits ++ [(who, s.requestTxn f payload)]
        }))
    | some u => exact State.tryRequest_kept _ _ _ _ u h
  · exact State.modLink_kept ..

theorem State.freeTag_kept (s : State) (k : Fin 24) (tag : Nat) : Kept s (State.freeTag s k tag) := by
  simp only [State.freeTag]
  split
  · exact State.modLink_kept ..
  · split
    · exact State.modLink_kept ..
    · rename_i u h
      exact Kept.trans (Kept.trans (State.modLink_kept ..) (State.tryRequest_kept _ _ _ _ u h))
          (State.modLink_kept ..)

theorem State.abandon_kept (s : State) (p : Requester → Bool) : Kept s (State.abandon s p) := by
  unfold State.abandon
  refine foldl_kept _ (fun s x => ?_) _ _
  grind [Kept, !. State.modLink_kept]

theorem State.respond_kept (s : State) (h : BitVec 128) (kind : Nat) (status : Nat) (poison : Bool) (a : Nat) (b :
    Nat) (payload : List Byte) : Kept s (State.respond s h kind status poison a b payload) := by
  grind [State.respond, Kept, !. State.sendTxn_kept]

theorem State.ackTxn_kept (s : State) (h : BitVec 128) (status : Nat) : Kept s (State.ackTxn s h status) := by
  grind [State.ackTxn, Kept, !. State.respond_kept]

theorem State.sendMsgPart_kept (s : State) (dev : Nat) (service : Nat) (payload : List Byte) : Kept s
    (State.sendMsgPart s dev service payload) := by
  grind [State.sendMsgPart, Kept, !. State.sendTxn_kept]

theorem State.sendMsg_kept (s : State) (dev : Nat) (service : Nat) (payload : List Byte) : Kept s (State.sendMsg s
    dev service payload) := by
  unfold State.sendMsg
  dsimp only
  split
  all_goals first
    | grind [Kept, !. State.emit_kept, !. State.sendMsgPart_kept]
    | (refine foldl_kept _ (fun s x => ?_) _ _ <;> grind [Kept, !. State.emit_kept, !. State.sendMsgPart_kept])
    | (refine Kept.trans ?_ (foldl_kept _ (fun s x => ?_) _ _) <;> grind [Kept, !. State.emit_kept, !.
        State.sendMsgPart_kept])

theorem State.refuseTxn_kept (s : State) (h : BitVec 128) (status : Nat) : Kept s (State.refuseTxn s h status) := by
  grind [State.refuseTxn, Kept, !. State.respond_kept]

theorem State.unroutable_kept (s : State) (h : BitVec 128) : Kept s (State.unroutable s h) := by
  grind [State.unroutable, Kept, !. State.refuseTxn_kept, !. State.odSet_kept, !. State.count32_kept]

theorem State.takeTxnOn_kept (s : State) (k : Fin 24) (vc : Nat) (x : Txn) : Kept s (State.takeTxnOn s k vc x) := by
  grind [State.takeTxnOn, Kept, !. State.modLink_kept]

theorem State.takeTxn_kept (s : State) (k : Fin 24) (x : Txn) : Kept s (State.takeTxn s k x) := by
  grind [State.takeTxn, Kept, !. State.takeTxnOn_kept]

/-! ### Dma.lean -/

theorem State.readPiece_kept (s : State) (t : Nat) (ctx : Nat) (space : Nat) (at_ : Nat) (i : Nat) : Kept s
    (State.readPiece s t ctx space at_ i).2.2 := by
  grind [State.readPiece, Kept, !. State.windowRefusal_kept, !. State.readScratch_kept, !. State.readLine_kept]

theorem State.writePiece_kept (s : State) (t : Nat) (ctx : Nat) (space : Nat) (at_ : Nat) (i : Nat) (data : List
    Byte) : Kept s (State.writePiece s t ctx space at_ i data).2 := by
  grind [State.writePiece, Kept, !. State.writeScratch_kept, !. State.windowRefusal_kept, !. State.writeLine_kept]

theorem State.readPieces_kept (s : State) (t ctx space at_ n : Nat) : Kept s (s.readPieces t ctx space at_ n).s :=
    by
  unfold State.readPieces
  split
  · exact State.engineReads_kept ..
  · refine foldl_rel (fun a : Pieces => Kept s a.s) _ (fun a r h => ?_) _ _ (Kept.rfl s)
    exact Kept.trans h (State.readPiece_kept ..)
theorem State.writePieces_kept (s : State) (t : Nat) (ctx : Nat) (space : Nat) (at_ : Nat) (ps : List (List Byte ×
    Bool)) (bus : Option Nat) : Kept s (State.writePieces s t ctx space at_ ps bus).2 := by
  unfold State.writePieces
  split
  · refine foldl_rel (fun a : Option Nat × State => Kept s a.2) _ (fun a r h => ?_) _ _ (Kept.rfl s)
    exact Kept.trans h (State.engineWrite_kept ..)
  · refine foldl_rel (fun a : Option Nat × State => Kept s a.2) _ (fun a r h => ?_) _ _ (Kept.rfl s)
    exact Kept.trans h (State.writePiece_kept ..)

theorem State.countOutside_kept (s : State) (code : Nat) : Kept s (State.countOutside s code) := by
  grind [State.countOutside, Kept, !. State.count32_kept]

theorem State.modDma_kept (s : State) (t : Nat) (g : EngOp → EngOp) : Kept s (State.modDma s t g) := by
  grind [State.modDma, Kept, !. State.modEngine_kept]

theorem State.rowDone_kept (s : State) (t : Nat) (bus : Option Nat) : Kept s (State.rowDone s t bus) := by
  grind [State.rowDone, Kept, !. State.modDma_kept]

theorem State.requestRead_kept (s : State) (t : Nat) (f : Fin 8) (op : EngOp) (i tag : Nat) : Kept s
    (State.requestRead s t f op i tag) := by
  grind [State.requestRead, Kept, !. State.modDma_kept, !. State.countOutside_kept, !. State.rowDone_kept, !.
      State.engineWrite_kept, !. State.modTile_kept, !. State.inject_kept]

theorem State.requestWrite_kept (s : State) (t : Nat) (f : Fin 8) (op : EngOp) (i tag : Nat) : Kept s
    (State.requestWrite s t f op i tag) := by
  grind [State.requestWrite, Kept, !. State.modDma_kept, !. State.countOutside_kept, !. State.rowDone_kept, !.
      State.engineRow_kept, !. State.modTile_kept, !. State.inject_kept]

theorem State.requestLink_kept (s : State) (t : Nat) (f : Fin 8) (op : EngOp) (i : Nat) : Kept s
    (State.requestLink s t f op i) := by
  simp only [State.requestLink]
  split
  · exact Kept.trans (State.modDma_kept ..) (State.rowDone_kept ..)
  · split
    · exact Kept.rfl s
    · rename_i u h
      exact Kept.trans (Kept.trans (Kept.trans (State.engineRow_kept ..) (State.request_kept _ _ _ _ _ u h))
          (State.modDma_kept ..)) (State.modFrame_kept ..)

theorem State.pumpOnce_kept (s : State) (t : Nat) (f : Fin 8) : Kept s (State.pumpOnce s t f) := by
  grind [State.pumpOnce, Kept, !. State.requestLink_kept, !. State.requestWrite_kept, !. State.requestRead_kept]

theorem State.pumpDma_kept (s : State) (t : Nat) (f : Fin 8) : Kept s (State.pumpDma s t f) := by
  unfold State.pumpDma
  exact repeat_kept _ (fun s => State.pumpOnce_kept ..) 8 s

theorem State.completeDma_kept (s : State) (t : Nat) (f : Fin 8) (op : EngOp) : Kept s (State.completeDma s t f
    op) := by
  grind [State.completeDma, !. State.engineReads_kept, !. State.readPieces_kept, Kept, !. State.finishOp_kept, !.
      State.writePieces_kept, !. State.writeOut_kept]

theorem State.postStaged_kept (s : State) (t : Nat) (ctx : Nat) (addr : Nat) (d : List Byte) : Kept s
    (State.postStaged s t ctx addr d) := by
  grind [State.postStaged, Kept, !. State.modTile_kept]

theorem State.finishStaged_kept (s : State) (t : Nat) (f : Fin 8) (r : Staged) : Kept s (State.finishStaged s t f
    r) := by
  grind [State.finishStaged, Kept, !. State.signal_kept, !. State.count64_kept, !. State.draw_kept, !.
      State.raiseTrap_kept]

theorem State.stagedWord_kept (s : State) (t : Nat) (f : Fin 8) : Kept s (State.stagedWord s t f) := by
  grind [State.stagedWord, Kept, !. State.readBlock_kept, !. State.modTile_kept, !. State.finishStaged_kept]

theorem State.drainWord_kept (s : State) (t : Nat) (f : Fin 8) : Kept s (State.drainWord s t f) := by
  grind [State.drainWord, Kept, !. State.writeBlock_kept, !. State.modTile_kept]

/-! ### Issue.lean -/

theorem State.recordTableFault_kept (s : State) (t : Nat) : Kept s (State.recordTableFault s t) := by
  grind [State.recordTableFault, Kept, !. State.modTile_kept]

theorem State.xchRefused_kept (s : State) (t : Nat) (f : Fin 8) (row : Nat) : Kept s (State.xchRefused s t f row)
    := by
  grind [State.xchRefused, Kept, !. State.draw_kept, !. State.raiseTrap_kept]

theorem State.fetchTableRow_kept (s : State) (t : Nat) (f : Fin 8) (l : LaidTable) (i : Nat) : Kept s
    (State.fetchTableRow s t f l i).2 := by
  grind [State.fetchTableRow, Kept, !. State.engineRow_kept, !. State.xchRefused_kept, !. State.frameFault_kept, !.
      State.recordTableFault_kept]

theorem State.fetchFirst_kept (s : State) (t : Nat) (f : Fin 8) (l : LaidTable) : Kept s (State.fetchFirst s t f
    l).2 := by
  grind [State.fetchFirst, Kept, !. State.fetchTableRow_kept]

theorem State.holdWait_kept (s : State) (t : Nat) (f : Fin 8) (w : Wait) : Kept s (State.holdWait s t f w) := by
  grind [State.holdWait, Kept, !. State.startWait_kept]

theorem State.refuseIssue_kept (s : State) (t : Nat) (f : Fin 8) (eng : Nat) (a : Nat) (word : Nat) (code : Nat) :
    Kept s (State.refuseIssue s t f eng a word code) := by
  grind [State.refuseIssue, Kept, !. State.modEngine_kept, !. State.odSet_kept, !. State.count32_kept, !.
      State.raiseTrap_kept]

theorem State.issueDone_kept (s : State) (t : Nat) : Kept s (State.issueDone s t) := by
  grind [State.issueDone, Kept, !. State.retireNone_kept, !. State.endWait_kept]

theorem State.acceptIssue_kept (s : State) (t : Nat) (f : Fin 8) (eng : Nat) (a : Nat) (d : List Byte) : Kept s
    (State.acceptIssue s t f eng a d) := by
  simp only [State.acceptIssue]
  split
  · exact Kept.trans (Kept.trans (State.sampleFwd_kept ..) (State.modEngine_kept ..)) (State.issueDone_kept ..)
  · exact Kept.trans (Kept.trans (State.abandonShadow_kept ..) (State.modEngine_kept ..)) (State.issueDone_kept ..)
  · exact Kept.trans (State.modEngine_kept ..) (State.issueDone_kept ..)
  · split
    · exact Kept.trans (Kept.trans (State.modEngine_kept ..) (State.postStaged_kept ..)) (State.issueDone_kept ..)
    · exact Kept.trans (Kept.trans (State.modEngine_kept ..) (State.pumpDma_kept ..)) (State.issueDone_kept ..)
  · exact Kept.trans (Kept.trans (State.issueDone_kept ..) (State.fetchFirst_kept ..)) (State.modTile_kept ..)

theorem State.issueRead_kept (s : State) (t : Nat) (f : Fin 8) (eng : Nat) (a : Nat) (word : Nat) (d : List Byte)
    : Kept s (State.issueRead s t f eng a word d) := by
  grind [State.issueRead, Kept, !. State.refuseIssue_kept, !. State.holdWait_kept, !. State.acceptIssue_kept]

theorem State.tryIssue_kept (s : State) (t : Nat) (f : Fin 8) (eng : Nat) (a : Nat) (word : Nat) : Kept s
    (State.tryIssue s t f eng a word) := by
  grind [State.tryIssue, Kept, !. State.holdWait_kept, !. State.coreTrap_kept, !. State.windowRefusal_kept, !.
      State.readScratch_kept, !. State.issueRead_kept]

theorem State.issue_kept (s : State) (t : Nat) (f : Fin 8) (eng : Nat) (a : Nat) (word : Nat) : Kept s
    (State.issue s t f eng a word) := by
  grind [State.issue, Kept, !. State.tryIssue_kept, !. State.coreTrap_kept]

/-! ### CoreSys.lean -/

theorem State.tryWaitk_kept (s : State) (t : Nat) (f : Fin 8) (k : Nat) (n : Nat) : Kept s (State.tryWaitk s t f k
    n) := by
  grind [State.tryWaitk, Kept, !. State.issueDone_kept, !. State.modCore_kept, !. State.holdWait_kept]

theorem execWaitk_kept (t : Nat) (c : Fin 8) (n : W16) (s : State) : ∀ nx, execWaitk t c n s = .next nx → Kept s
    nx := by
  grind [execWaitk, Kept, !. runCore_kept, !. State.tryWaitk_kept]

theorem execRdk_kept (t : Nat) (rd : Reg) (c : Fin 8) (s : State) : ∀ nx, execRdk t rd c s = .next nx → Kept s nx
    := by
  grind [execRdk, Kept, !. runCore_kept, !. State.retire_kept]

theorem execSetk_kept (t : Nat) (ra : Reg) (c : Fin 8) (s : State) : ∀ nx, execSetk t ra c s = .next nx → Kept s
    nx := by
  grind [execSetk, Kept, !. runCore_kept, !. State.retireNone_kept, !. State.modCore_kept]

theorem execTsr_kept (t : Nat) (rd : Reg) (ix : Fin 64) (s : State) : ∀ nx, execTsr t rd ix s = .next nx → Kept s
    nx := by
  grind [execTsr, Kept, !. runCore_kept, !. State.retire_kept]

theorem execTsww_kept (t : Nat) (ra : Reg) (ix : Fin 64) (s : State) : ∀ nx, execTsww t ra ix s = .next nx → Kept
    s nx := by
  grind [execTsww, Kept, !. runCore_kept, !. State.retireNone_kept, !. State.modTile_kept, !. State.illegal_kept]

theorem execRstep_kept (t : Nat) (rd : Reg) (s : State) : ∀ nx, execRstep t rd s = .next nx → Kept s nx := by
  grind [execRstep, Kept, !. runCore_kept, !. State.retire_kept]

theorem State.firstArrives_kept (s : State) (f : Fin 8) : Kept s (State.firstArrives s f) := by
  grind [State.firstArrives, Kept, !. State.modFrame_kept]

theorem State.arrive_kept (s : State) (t : Nat) (f : Fin 8) (kind : Nat) (stepAdvance : Bool) (scanClose : Bool)
    (switchPoint : Bool) : Kept s (State.arrive s t f kind stepAdvance scanClose switchPoint) := by
  grind [State.arrive, Kept, !. State.startWait_kept, !. State.modTile_kept, !. State.firstArrives_kept]

theorem execSync_kept (t : Nat) (kind : Fin 4) (stepAdvance : Bool) (scanClose : Bool) (switchPoint : Bool) (s :
    State) : ∀ nx, execSync t kind stepAdvance scanClose switchPoint s = .next nx → Kept s nx := by
  grind [execSync, Kept, !. runCore_kept, !. State.illegal_kept, !. State.arrive_kept]

theorem State.refuseAtSource_kept (s : State) (t : Nat) (d : SendDest) : Kept s (State.refuseAtSource s t d) := by
  grind [State.refuseAtSource, Kept, !. State.modTile_kept, !. State.count32_kept]

theorem State.sendTuple_kept (s : State) (t : Nat) (f : Fin 8) (ra : Nat) (nq : Nat) (rb : W64) : Kept s
    (State.sendTuple s t f ra nq rb).2 := by
  grind [State.sendTuple, Kept, !. State.refuseAtSource_kept, !. State.inject_kept]

theorem State.trySend_kept (s : State) (t : Nat) (f : Fin 8) (ra : Nat) (rb : Nat) (nq : Nat) : Kept s
    (State.trySend s t f ra rb nq) := by
  grind [State.trySend, Kept, !. State.sendTuple_kept, !. State.holdWait_kept, !. State.issueDone_kept]

theorem execSend_kept (t : Nat) (ra : Reg) (rb : Reg) (nq : Fin 4) (s : State) : ∀ nx, execSend t ra rb nq s =
    .next nx → Kept s nx := by
  grind [execSend, Kept, !. runCore_kept, !. State.illegal_kept, !. State.trySend_kept]

theorem execSendn_kept (t : Nat) (rd : Reg) (ra : Reg) (rb : Reg) (nq : Fin 4) (s : State) : ∀ nx, execSendn t rd
    ra rb nq s = .next nx → Kept s nx := by
  grind [execSendn, Kept, !. runCore_kept, !. State.illegal_kept, !. State.sendTuple_kept, !. State.retire_kept]

theorem State.takeWord_kept (s : State) (t q : Nat) : ∀ p, s.takeWord t q = some p → Kept s p.2 := by
  intro p h
  simp only [State.takeWord] at h
  split at h
  · cases h
  · cases h
    exact State.modTile_kept ..

theorem State.tryRecv_kept (s : State) (t : Nat) (f : Fin 8) (q : Nat) (rd : Nat) : Kept s (State.tryRecv s t f q
    rd) := by
  simp only [State.tryRecv]
  split
  · exact State.holdWait_kept ..
  · rename_i w u h
    exact Kept.trans (Kept.trans (State.takeWord_kept _ _ _ _ h) (State.endWait_kept ..)) (State.modCore_kept ..)

theorem execRecv_kept (t : Nat) (rd : Reg) (q : Fin 4) (s : State) : ∀ nx, execRecv t rd q s = .next nx → Kept s
    nx := by
  grind [execRecv, Kept, !. runCore_kept, !. State.tryRecv_kept]

theorem execRecvn_kept (t : Nat) (rd ra : Reg) (q : Fin 4) (s : State) : ∀ nx, execRecvn t rd ra q s = .next nx → Kept
    s nx := by
  refine runCore_kept s t _ _ (fun s f w => ?_)
  split
  · exact State.illegal_kept ..
  · split
    · exact State.retire_kept ..
    · rename_i w u h
      exact Kept.trans (Kept.trans (State.takeWord_kept _ _ _ _ h) (State.modCore_kept ..)) (State.retire_kept ..)

theorem execTrap_kept (t : Nat) (ix : Fin 64) (s : State) : ∀ nx, execTrap t ix s = .next nx → Kept s nx := by
  grind [execTrap, Kept, !. runCore_kept, !. State.raiseTrap_kept]

theorem execRte_kept (t : Nat) (s : State) : ∀ nx, execRte t s = .next nx → Kept s nx := by
  grind [execRte, Kept, !. runCore_kept, !. State.readScratch_kept, !. State.coreTrap_kept, !. State.modCore_kept,
      !. State.illegal_kept]

theorem execIllegalInstruction_kept (t : Nat) (word : W32) (s : State) : ∀ nx, execIllegalInstruction t word s = .next
    nx → Kept s nx := by
  grind [execIllegalInstruction, Kept, !. runFetched_kept, !. State.illegal_kept]

theorem execTrapEntryComplete_kept (t : Nat) (s : State) : ∀ nx, execTrapEntryComplete t s = .next nx → Kept s nx
    := by
  grind [execTrapEntryComplete, Kept, !. State.endEntry_kept]

theorem State.edgeFault_kept (s : State) (t : Nat) (f : Fin 8) (overrun : Bool) : Kept s (State.edgeFault s t f
    overrun) := by
  grind [State.edgeFault, Kept, !. State.frameFault_kept, !. State.count32_kept, !. State.odSet_kept]

theorem State.stopIfEnded_kept (s : State) (f : Fin 8) : Kept s (State.stopIfEnded s f) := by
  grind [State.stopIfEnded, Kept, !. State.modFrame_kept]

theorem State.tryEnd_kept (s : State) (t : Nat) (f : Fin 8) : Kept s (State.tryEnd s t f) := by
  grind [State.tryEnd, Kept, !. State.holdWait_kept, !. State.edgeFault_kept, !. State.endWait_kept, !.
      State.closeQueues_kept, !. State.modTile_kept, !. State.stopIfEnded_kept]

theorem execEndProgram_kept (t : Nat) (s : State) : ∀ nx, execEndProgram t s = .next nx → Kept s nx := by
  grind [execEndProgram, Kept, !. runCore_kept, !. State.tryEnd_kept]

/-! ### Wake.lean -/

theorem State.wake_kept (s : State) (t : Nat) : Kept s (State.wake s t) := by
  grind [State.wake, Kept, !. State.tryWaitk_kept, !. State.tryIssue_kept, !. State.trySend_kept, !.
      State.tryRecv_kept, !. State.tryEnd_kept]

theorem State.wakeFrame_kept (s : State) (f : Fin 8) : Kept s (State.wakeFrame s f) := by
  unfold State.wakeFrame
  refine foldl_kept _ (fun s x => ?_) _ _
  grind [Kept, !. State.wake_kept]

theorem onTile_kept (s : State) (t : Nat) (body : State) (h : Kept s body) : ∀ u, onTile s t body = .next u → Kept
    s u := by
  intro u hu
  simp only [onTile] at hu
  split at hu
  · cases hu
  · cases hu
    exact h

theorem onRunning_kept (s : State) (t : Nat) (body : Fin 8 → State) (h : ∀ f, Kept s (body f)) :
    ∀ u, onRunning s t body = .next u → Kept s u := by
  intro u hu
  simp only [onRunning, onTile] at hu
  split at hu
  · cases hu
  · cases hu
    split
    · exact Kept.rfl s
    · exact h _

theorem execCounterWaitTimeout_kept (t : Nat) (s : State) : ∀ nx, execCounterWaitTimeout t s = .next nx → Kept s
    nx := by
  grind [execCounterWaitTimeout, Kept, !. onRunning_kept, !. State.coreTrap_kept]

theorem State.freezeStall_kept (s : State) (f : Fin 8) : Kept s (State.freezeStall s f) := by
  grind [State.freezeStall, Kept, Sound, State.rising, srising_sput, srising_smod, srising_sclear]

theorem State.stallFault_kept (s : State) (f : Fin 8) (t : Nat) (dest : Nat) (q : Nat) (receive : Bool) : Kept s
    (State.stallFault s f t dest q receive) := by
  grind [State.stallFault, Kept, !. State.frameFault_kept, !. State.odSet_kept, !. State.freezeStall_kept]

theorem execSendStallTimeout_kept (t : Nat) (s : State) : ∀ nx, execSendStallTimeout t s = .next nx → Kept s nx :=
    by
  grind [execSendStallTimeout, Kept, !. onRunning_kept, !. State.stallFault_kept]

theorem execReceiveWaitTimeout_kept (t : Nat) (s : State) : ∀ nx, execReceiveWaitTimeout t s = .next nx → Kept s
    nx := by
  grind [execReceiveWaitTimeout, Kept, !. onRunning_kept, !. State.stallFault_kept]

theorem execEngineOperationComplete_kept (t : Nat) (e : ArrayEngine) (use : PortUse) (s : State) : ∀ nx,
    execEngineOperationComplete t e use s = .next nx → Kept s nx := by
  grind [execEngineOperationComplete, Kept, !. onRunning_kept, !. State.usePorts_kept, !. State.completeFwd_kept, !.
      State.completeBwd_kept, !. State.completeRow_kept, !. State.wake_kept]

theorem execDmaComplete_kept (t : Nat) (use : PortUse) (s : State) : ∀ nx, execDmaComplete t use s = .next nx → Kept s
    nx := by
  grind [execDmaComplete, Kept, !. onRunning_kept, !. State.usePorts_kept, !. State.completeDma_kept, !.
      State.pumpDma_kept, !. State.wake_kept]

theorem execStagedReadWordArrival_kept (t : Nat) (s : State) : ∀ nx, execStagedReadWordArrival t s = .next nx →
    Kept s nx := by
  grind [execStagedReadWordArrival, Kept, !. onRunning_kept, !. State.wake_kept, !. State.stagedWord_kept]

theorem execOutboundQueueDrain_kept (t : Nat) (s : State) : ∀ nx, execOutboundQueueDrain t s = .next nx → Kept s
    nx := by
  grind [execOutboundQueueDrain, Kept, !. onRunning_kept, !. State.drainWord_kept]

theorem execStagedWriteComplete_kept (t : Nat) (s : State) : ∀ nx, execStagedWriteComplete t s = .next nx → Kept s
    nx := by
  grind [execStagedWriteComplete, Kept, !. onRunning_kept, !. State.wake_kept, !. State.finishStaged_kept, !.
      State.modTile_kept]

/-! ### Packets.lean -/

theorem State.crossDie_kept (s : State) (k : Fin 24) (x : Txn) : Kept s (State.crossDie s k x) := by
  grind [State.crossDie, Kept, !. State.modNet_kept, !. State.count64_kept]

theorem State.crossed_kept (s : State) (t o : Nat) : Kept s (State.crossed s t o) := by
  grind [State.crossed, Kept, !. State.takeStage_kept, !. State.count32_kept, !. State.unroutable_kept, !.
      State.sendTxn_kept]

theorem execPacketHop_kept (t : Nat) (port : Fin 5) (cls : Fin 4) (badParity : Bool) (s : State) : ∀ nx,
    execPacketHop t port cls badParity s = .next nx → Kept s nx := by
  refine onTile_kept s t _ ?_
  grind [Kept, !. State.logEvent_kept, !. State.count32_kept, !. State.wake_kept, !. State.hop_kept, Sound,
      State.rising, srising_sput, srising_smod, srising_sclear, !. onTile_kept, !. State.crossed_kept]

theorem execTupleArrival_kept (t : Nat) (p : Packet) (s : State) : ∀ nx, execTupleArrival t p s = .next nx → Kept
    s nx := by
  refine onTile_kept s t _ ?_
  grind [Kept, !. State.wake_kept, !. State.arriveTuple_kept, Sound, State.rising, srising_sput, srising_smod,
      srising_sclear, !. onTile_kept, !. State.drainStage_kept]

theorem execTupleEnterAfterWait_kept (t : Nat) (q : Fin 4) (s : State) : ∀ nx, execTupleEnterAfterWait t q s =
    .next nx → Kept s nx := by
  refine onTile_kept s t _ ?_
  grind [Kept, !. State.wake_kept, !. State.enterQueue_kept, !. State.takeEjected_kept, Sound, State.rising,
      srising_sput, srising_smod, srising_sclear, !. State.drainStage_kept, !. onTile_kept]

theorem State.answer_kept (s : State) (t : Nat) (h : W64) (op : Nat) (status : Nat) (data : List W64) : Kept s
    (State.answer s t h op status data) := by
  grind [State.answer, Kept, !. State.inject_kept]

theorem execRowReadRequest_kept (t : Nat) (p : Packet) (use : PortUse) (s : State) : ∀ nx, execRowReadRequest t p use
    s = .next nx → Kept s nx := by
  refine onTile_kept s t _ ?_
  have k := State.takeEjected_kept s t p
  have k1 := fun (s : State) h k st ds => State.answer_kept s t h k st ds
  have k2 := fun (s : State) r => Kept.trans (State.usePorts_kept s t use) (State.readRow_kept _ t r 5)
  dsimp only
  repeat' split
  all_goals first
    | exact Kept.rfl s
    | exact Kept.trans k (k1 ..)
    | exact Kept.trans k (Kept.trans (State.windowRefusal_kept ..) (k1 ..))
    | exact Kept.trans k (Kept.trans (k2 ..) (k1 ..))

theorem execRowWrite_kept (t : Nat) (p : Packet) (use : PortUse) (s : State) : ∀ nx, execRowWrite t p use s = .next nx
    → Kept s nx := by
  refine onTile_kept s t _ ?_
  grind [Kept, !. State.takeEjected_kept, !. State.answer_kept, !. State.windowRefusal_kept, !. State.writeRow_kept,
      !. State.usePorts_kept]

theorem State.freeRemote_kept (s : State) (t : Nat) (tag : Nat) : Kept s (State.freeRemote s t tag) := by
  grind [State.freeRemote, Kept, !. State.modTile_kept]

theorem State.landRow_kept (s : State) (t : Nat) (f : Fin 8) (o : RemoteOp) (data : List Byte) (bad : Bool) : Kept
    s (State.landRow s t f o data bad) := by
  grind [State.landRow, Kept, !. State.rowDone_kept, !. State.engineWrite_kept, !. State.modDma_kept, !.
      State.pumpDma_kept]

theorem execReadResponse_kept (t : Nat) (p : Packet) (s : State) : ∀ nx, execReadResponse t p s = .next nx → Kept
    s nx := by
  refine onTile_kept s t _ ?_
  grind [Kept, !. State.takeEjected_kept, !. State.landRow_kept, !. State.freeRemote_kept, Sound, State.rising,
      srising_sput, srising_smod, srising_sclear]

theorem State.ackRow_kept (s : State) (t : Nat) (h : W64) (bad : Bool) : Kept s (State.ackRow s t h bad) := by
  grind [State.ackRow, Kept, !. State.pumpDma_kept, !. State.rowDone_kept, !. State.freeRemote_kept, !.
      State.landRow_kept]

theorem execWriteAcknowledgement_kept (t : Nat) (p : Packet) (s : State) : ∀ nx, execWriteAcknowledgement t p s =
    .next nx → Kept s nx := by
  refine onTile_kept s t _ ?_
  grind [Kept, !. State.ackRow_kept, !. State.takeEjected_kept, Sound, State.rising, srising_sput, srising_smod,
      srising_sclear]

theorem execRefusalArrival_kept (t : Nat) (p : Packet) (s : State) : ∀ nx, execRefusalArrival t p s = .next nx →
    Kept s nx := by
  refine onTile_kept s t _ ?_
  grind [Kept, !. State.takeEjected_kept, !. State.ackRow_kept, !. State.modTile_kept, Sound, State.rising,
      srising_sput, srising_smod, srising_sclear, !. onTile_kept, !. State.takeApron_kept, !. State.count32_kept]

theorem State.gatewayAnswer_kept (s : State) (south : Bool) (h : W64) (op : Nat) (status : Nat) (data : List W64)
    : Kept s (State.gatewayAnswer s south h op status data) := by
  grind [State.gatewayAnswer, Kept, !. State.apronSend_kept]

theorem execMemoryGatewayRequest_kept (south : Bool) (p : Packet) (s : State) : ∀ nx, execMemoryGatewayRequest south p
    s = .next nx → Kept s nx := by
  grind [execMemoryGatewayRequest, Kept, !. State.holdApron_kept, !. State.takeApron_kept, !. State.gatewayAnswer_kept,
      !. State.gatewayRead_kept, !. State.gatewayWrite_kept]

theorem execSupervisorQueueArrival_kept (p : Packet) (s : State) : ∀ nx, execSupervisorQueueArrival p s = .next nx →
    Kept s nx := by
  grind [execSupervisorQueueArrival, Kept, Sound, State.rising, srising_sput, srising_smod, srising_sclear,
      Mem.write_wf, Mem.zero_wf, !. State.takeApron_kept, !. State.count32_kept, !. State.supervisorRefusal_kept, !.
      State.setFrame_kept, !. State.holdApron_kept]

theorem State.letIn_kept (s : State) (f : Fin 8) : Kept s (State.letIn s f) := by
  grind [State.letIn, Kept, Sound, State.rising, srising_sput, srising_smod, srising_sclear, Mem.write_wf, Mem.zero_wf,
      !. State.takeApron_kept, !. State.setFrame_kept]

theorem execSupervisorTupleService_kept (f : Fin 8) (s : State) : ∀ nx, execSupervisorTupleService f s = .next nx →
    Kept s nx := by
  have key : ∀ (n : Nat) (s : State), Kept s (Nat.repeat (fun s => s.letIn f) n s) :=
    fun n s => repeat_kept _ (fun s => State.letIn_kept s f) n s
  grind [execSupervisorTupleService, Kept, !. State.setFrame_kept, !. State.publishAt_kept]

theorem State.supervisorSend_kept (s : State) (t : Nat) (q : Nat) (words : List W64) : Kept s
    (State.supervisorSend s t q words) := by
  grind [State.supervisorSend, Kept, !. State.apronSend_kept]

theorem execSupervisorTupleSend_kept (t : Nat) (q : Fin 4) (words : List W64) (s : State) : ∀ nx,
    execSupervisorTupleSend t q words s = .next nx → Kept s nx := by
  refine onTile_kept s t _ ?_
  grind [Kept, !. State.supervisorSend_kept, Sound, State.rising, srising_sput, srising_smod, srising_sclear]

end Sys2Proof.Machine
end

