-- ==== Sys2Proof/Laws/State.lean ====
section
/-! SUPPORT. Laws/State: what each update of the state leaves as it was, one lemma per field and update. -/

namespace Sys2Proof.Machine

/-! ### Dictionary scalars and free values -/

@[simp] theorem State.odSet_pending (s : State) (i sub v : Nat) :
    (s.odSet i sub v).pending = s.pending := rfl

@[simp] theorem State.odSet_supCycles (s : State) (i sub v : Nat) :
    (s.odSet i sub v).supCycles = s.supCycles := rfl

@[simp] theorem State.odSet_freeCtr (s : State) (i sub v : Nat) :
    (s.odSet i sub v).freeCtr = s.freeCtr := rfl

@[simp] theorem State.odSet_mem (s : State) (i sub v : Nat) :
    (s.odSet i sub v).mem = s.mem := rfl

@[simp] theorem State.odSet_stat (s : State) (i sub v : Nat) :
    (s.odSet i sub v).stat = s.stat := rfl

@[simp] theorem State.odSet_errs (s : State) (i sub v : Nat) :
    (s.odSet i sub v).errs = s.errs := rfl

@[simp] theorem State.odSet_statErrs (s : State) (i sub v : Nat) :
    (s.odSet i sub v).statErrs = s.statErrs := rfl

@[simp] theorem State.odSet_tables (s : State) (i sub v : Nat) :
    (s.odSet i sub v).tables = s.tables := rfl

@[simp] theorem State.odSet_grid (s : State) (i sub v : Nat) :
    (s.odSet i sub v).grid = s.grid := rfl

@[simp] theorem State.odSet_frames (s : State) (i sub v : Nat) :
    (s.odSet i sub v).frames = s.frames := rfl

@[simp] theorem State.odSet_tiles (s : State) (i sub v : Nat) :
    (s.odSet i sub v).tiles = s.tiles := rfl

@[simp] theorem State.odSet_stall (s : State) (i sub v : Nat) :
    (s.odSet i sub v).stall = s.stall := rfl

@[simp] theorem State.odSet_undefinedGroups (s : State) (i sub v : Nat) :
    (s.odSet i sub v).undefinedGroups = s.undefinedGroups := rfl

@[simp] theorem State.odSet_rewritten (s : State) (i sub v : Nat) :
    (s.odSet i sub v).rewritten = s.rewritten := rfl

@[simp] theorem State.odSet_queue (s : State) (i sub v : Nat) :
    (s.odSet i sub v).queue = s.queue := rfl

@[simp] theorem State.odSet_queueFresh (s : State) (i sub v : Nat) :
    (s.odSet i sub v).queueFresh = s.queueFresh := rfl

@[simp] theorem State.odSet_sessions (s : State) (i sub v : Nat) :
    (s.odSet i sub v).sessions = s.sessions := rfl

@[simp] theorem State.odSet_storing (s : State) (i sub v : Nat) :
    (s.odSet i sub v).storing = s.storing := rfl

@[simp] theorem State.odSet_can (s : State) (i sub v : Nat) :
    (s.odSet i sub v).can = s.can := rfl

@[simp] theorem State.odSet_pcs (s : State) (i sub v : Nat) :
    (s.odSet i sub v).pcs = s.pcs := rfl

@[simp] theorem State.odSet_scrubs (s : State) (i sub v : Nat) :
    (s.odSet i sub v).scrubs = s.scrubs := rfl

@[simp] theorem State.odSet_tests (s : State) (i sub v : Nat) :
    (s.odSet i sub v).tests = s.tests := rfl

@[simp] theorem State.odSet_watch (s : State) (i sub v : Nat) :
    (s.odSet i sub v).watch = s.watch := rfl

@[simp] theorem State.odSet_posts (s : State) (i sub v : Nat) :
    (s.odSet i sub v).posts = s.posts := rfl

@[simp] theorem State.odSet_posting (s : State) (i sub v : Nat) :
    (s.odSet i sub v).posting = s.posting := rfl

@[simp] theorem State.odSet_mail (s : State) (i sub v : Nat) :
    (s.odSet i sub v).mail = s.mail := rfl

@[simp] theorem State.odSet_dw (s : State) (i sub v : Nat) :
    (s.odSet i sub v).dw = s.dw := rfl

@[simp] theorem State.odSet_rings (s : State) (i sub v : Nat) :
    (s.odSet i sub v).rings = s.rings := rfl

@[simp] theorem State.odSet_host (s : State) (i sub v : Nat) :
    (s.odSet i sub v).host = s.host := rfl

@[simp] theorem State.odSet_clock (s : State) (i sub v : Nat) :
    (s.odSet i sub v).clock = s.clock := rfl

@[simp] theorem State.odSet_power (s : State) (i sub v : Nat) :
    (s.odSet i sub v).power = s.power := rfl

@[simp] theorem State.odSet_monitors (s : State) (i sub v : Nat) :
    (s.odSet i sub v).monitors = s.monitors := rfl

@[simp] theorem State.odSet_contexts (s : State) (i sub v : Nat) :
    (s.odSet i sub v).contexts = s.contexts := rfl

@[simp] theorem State.odSet_sentExp (s : State) (i sub v : Nat) :
    (s.odSet i sub v).sentExp = s.sentExp := rfl

@[simp] theorem State.odSet_tallyBlocks (s : State) (i sub v : Nat) :
    (s.odSet i sub v).tallyBlocks = s.tallyBlocks := rfl

@[simp] theorem State.odSet_rolls (s : State) (i sub v : Nat) :
    (s.odSet i sub v).rolls = s.rolls := rfl

@[simp] theorem State.odSet_buckets (s : State) (i sub v : Nat) :
    (s.odSet i sub v).buckets = s.buckets := rfl

@[simp] theorem State.odSet_returns (s : State) (i sub v : Nat) :
    (s.odSet i sub v).returns = s.returns := rfl

@[simp] theorem State.odSet_landings (s : State) (i sub v : Nat) :
    (s.odSet i sub v).landings = s.landings := rfl

@[simp] theorem State.odSet_moves (s : State) (i sub v : Nat) :
    (s.odSet i sub v).moves = s.moves := rfl

@[simp] theorem State.odSet_closes (s : State) (i sub v : Nat) :
    (s.odSet i sub v).closes = s.closes := rfl

@[simp] theorem State.odSet_links (s : State) (i sub v : Nat) :
    (s.odSet i sub v).links = s.links := rfl

@[simp] theorem State.odSet_snaps (s : State) (i sub v : Nat) :
    (s.odSet i sub v).snaps = s.snaps := rfl

@[simp] theorem State.odSet_rests (s : State) (i sub v : Nat) :
    (s.odSet i sub v).rests = s.rests := rfl

@[simp] theorem State.odSet_flash (s : State) (i sub v : Nat) :
    (s.odSet i sub v).flash = s.flash := rfl

@[simp] theorem State.odSet_sup (s : State) (i sub v : Nat) :
    (s.odSet i sub v).sup = s.sup := rfl

@[simp] theorem State.odSet_jtag (s : State) (i sub v : Nat) :
    (s.odSet i sub v).jtag = s.jtag := rfl

@[simp] theorem State.odSet_log (s : State) (i sub v : Nat) :
    (s.odSet i sub v).log = s.log := rfl

@[simp] theorem State.odSet_out (s : State) (i sub v : Nat) :
    (s.odSet i sub v).out = s.out := rfl

@[simp] theorem State.odAdd_pending (s : State) (w i sub n : Nat) :
    (s.odAdd w i sub n).pending = s.pending := rfl

@[simp] theorem State.odAdd_supCycles (s : State) (w i sub n : Nat) :
    (s.odAdd w i sub n).supCycles = s.supCycles := rfl

@[simp] theorem State.odAdd_freeCtr (s : State) (w i sub n : Nat) :
    (s.odAdd w i sub n).freeCtr = s.freeCtr := rfl

@[simp] theorem State.odAdd_mem (s : State) (w i sub n : Nat) :
    (s.odAdd w i sub n).mem = s.mem := rfl

@[simp] theorem State.odAdd_stat (s : State) (w i sub n : Nat) :
    (s.odAdd w i sub n).stat = s.stat := rfl

@[simp] theorem State.odAdd_errs (s : State) (w i sub n : Nat) :
    (s.odAdd w i sub n).errs = s.errs := rfl

@[simp] theorem State.odAdd_statErrs (s : State) (w i sub n : Nat) :
    (s.odAdd w i sub n).statErrs = s.statErrs := rfl

@[simp] theorem State.odAdd_tables (s : State) (w i sub n : Nat) :
    (s.odAdd w i sub n).tables = s.tables := rfl

@[simp] theorem State.odAdd_grid (s : State) (w i sub n : Nat) :
    (s.odAdd w i sub n).grid = s.grid := rfl

@[simp] theorem State.odAdd_frames (s : State) (w i sub n : Nat) :
    (s.odAdd w i sub n).frames = s.frames := rfl

@[simp] theorem State.odAdd_tiles (s : State) (w i sub n : Nat) :
    (s.odAdd w i sub n).tiles = s.tiles := rfl

@[simp] theorem State.odAdd_stall (s : State) (w i sub n : Nat) :
    (s.odAdd w i sub n).stall = s.stall := rfl

@[simp] theorem State.odAdd_undefinedGroups (s : State) (w i sub n : Nat) :
    (s.odAdd w i sub n).undefinedGroups = s.undefinedGroups := rfl

@[simp] theorem State.odAdd_rewritten (s : State) (w i sub n : Nat) :
    (s.odAdd w i sub n).rewritten = s.rewritten := rfl

@[simp] theorem State.odAdd_queue (s : State) (w i sub n : Nat) :
    (s.odAdd w i sub n).queue = s.queue := rfl

@[simp] theorem State.odAdd_queueFresh (s : State) (w i sub n : Nat) :
    (s.odAdd w i sub n).queueFresh = s.queueFresh := rfl

@[simp] theorem State.odAdd_sessions (s : State) (w i sub n : Nat) :
    (s.odAdd w i sub n).sessions = s.sessions := rfl

@[simp] theorem State.odAdd_storing (s : State) (w i sub n : Nat) :
    (s.odAdd w i sub n).storing = s.storing := rfl

@[simp] theorem State.odAdd_can (s : State) (w i sub n : Nat) :
    (s.odAdd w i sub n).can = s.can := rfl

@[simp] theorem State.odAdd_pcs (s : State) (w i sub n : Nat) :
    (s.odAdd w i sub n).pcs = s.pcs := rfl

@[simp] theorem State.odAdd_scrubs (s : State) (w i sub n : Nat) :
    (s.odAdd w i sub n).scrubs = s.scrubs := rfl

@[simp] theorem State.odAdd_tests (s : State) (w i sub n : Nat) :
    (s.odAdd w i sub n).tests = s.tests := rfl

@[simp] theorem State.odAdd_watch (s : State) (w i sub n : Nat) :
    (s.odAdd w i sub n).watch = s.watch := rfl

@[simp] theorem State.odAdd_posts (s : State) (w i sub n : Nat) :
    (s.odAdd w i sub n).posts = s.posts := rfl

@[simp] theorem State.odAdd_posting (s : State) (w i sub n : Nat) :
    (s.odAdd w i sub n).posting = s.posting := rfl

@[simp] theorem State.odAdd_mail (s : State) (w i sub n : Nat) :
    (s.odAdd w i sub n).mail = s.mail := rfl

@[simp] theorem State.odAdd_dw (s : State) (w i sub n : Nat) :
    (s.odAdd w i sub n).dw = s.dw := rfl

@[simp] theorem State.odAdd_rings (s : State) (w i sub n : Nat) :
    (s.odAdd w i sub n).rings = s.rings := rfl

@[simp] theorem State.odAdd_host (s : State) (w i sub n : Nat) :
    (s.odAdd w i sub n).host = s.host := rfl

@[simp] theorem State.odAdd_clock (s : State) (w i sub n : Nat) :
    (s.odAdd w i sub n).clock = s.clock := rfl

@[simp] theorem State.odAdd_power (s : State) (w i sub n : Nat) :
    (s.odAdd w i sub n).power = s.power := rfl

@[simp] theorem State.odAdd_monitors (s : State) (w i sub n : Nat) :
    (s.odAdd w i sub n).monitors = s.monitors := rfl

@[simp] theorem State.odAdd_contexts (s : State) (w i sub n : Nat) :
    (s.odAdd w i sub n).contexts = s.contexts := rfl

@[simp] theorem State.odAdd_sentExp (s : State) (w i sub n : Nat) :
    (s.odAdd w i sub n).sentExp = s.sentExp := rfl

@[simp] theorem State.odAdd_tallyBlocks (s : State) (w i sub n : Nat) :
    (s.odAdd w i sub n).tallyBlocks = s.tallyBlocks := rfl

@[simp] theorem State.odAdd_rolls (s : State) (w i sub n : Nat) :
    (s.odAdd w i sub n).rolls = s.rolls := rfl

@[simp] theorem State.odAdd_buckets (s : State) (w i sub n : Nat) :
    (s.odAdd w i sub n).buckets = s.buckets := rfl

@[simp] theorem State.odAdd_returns (s : State) (w i sub n : Nat) :
    (s.odAdd w i sub n).returns = s.returns := rfl

@[simp] theorem State.odAdd_landings (s : State) (w i sub n : Nat) :
    (s.odAdd w i sub n).landings = s.landings := rfl

@[simp] theorem State.odAdd_moves (s : State) (w i sub n : Nat) :
    (s.odAdd w i sub n).moves = s.moves := rfl

@[simp] theorem State.odAdd_closes (s : State) (w i sub n : Nat) :
    (s.odAdd w i sub n).closes = s.closes := rfl

@[simp] theorem State.odAdd_links (s : State) (w i sub n : Nat) :
    (s.odAdd w i sub n).links = s.links := rfl

@[simp] theorem State.odAdd_snaps (s : State) (w i sub n : Nat) :
    (s.odAdd w i sub n).snaps = s.snaps := rfl

@[simp] theorem State.odAdd_rests (s : State) (w i sub n : Nat) :
    (s.odAdd w i sub n).rests = s.rests := rfl

@[simp] theorem State.odAdd_flash (s : State) (w i sub n : Nat) :
    (s.odAdd w i sub n).flash = s.flash := rfl

@[simp] theorem State.odAdd_sup (s : State) (w i sub n : Nat) :
    (s.odAdd w i sub n).sup = s.sup := rfl

@[simp] theorem State.odAdd_jtag (s : State) (w i sub n : Nat) :
    (s.odAdd w i sub n).jtag = s.jtag := rfl

@[simp] theorem State.odAdd_log (s : State) (w i sub n : Nat) :
    (s.odAdd w i sub n).log = s.log := rfl

@[simp] theorem State.odAdd_out (s : State) (w i sub n : Nat) :
    (s.odAdd w i sub n).out = s.out := rfl

@[simp] theorem State.count32_pending (s : State) (i sub : Nat) :
    (s.count32 i sub).pending = s.pending := rfl

@[simp] theorem State.count32_supCycles (s : State) (i sub : Nat) :
    (s.count32 i sub).supCycles = s.supCycles := rfl

@[simp] theorem State.count32_freeCtr (s : State) (i sub : Nat) :
    (s.count32 i sub).freeCtr = s.freeCtr := rfl

@[simp] theorem State.count32_mem (s : State) (i sub : Nat) :
    (s.count32 i sub).mem = s.mem := rfl

@[simp] theorem State.count32_stat (s : State) (i sub : Nat) :
    (s.count32 i sub).stat = s.stat := rfl

@[simp] theorem State.count32_errs (s : State) (i sub : Nat) :
    (s.count32 i sub).errs = s.errs := rfl

@[simp] theorem State.count32_statErrs (s : State) (i sub : Nat) :
    (s.count32 i sub).statErrs = s.statErrs := rfl

@[simp] theorem State.count32_tables (s : State) (i sub : Nat) :
    (s.count32 i sub).tables = s.tables := rfl

@[simp] theorem State.count32_grid (s : State) (i sub : Nat) :
    (s.count32 i sub).grid = s.grid := rfl

@[simp] theorem State.count32_frames (s : State) (i sub : Nat) :
    (s.count32 i sub).frames = s.frames := rfl

@[simp] theorem State.count32_tiles (s : State) (i sub : Nat) :
    (s.count32 i sub).tiles = s.tiles := rfl

@[simp] theorem State.count32_stall (s : State) (i sub : Nat) :
    (s.count32 i sub).stall = s.stall := rfl

@[simp] theorem State.count32_undefinedGroups (s : State) (i sub : Nat) :
    (s.count32 i sub).undefinedGroups = s.undefinedGroups := rfl

@[simp] theorem State.count32_rewritten (s : State) (i sub : Nat) :
    (s.count32 i sub).rewritten = s.rewritten := rfl

@[simp] theorem State.count32_queue (s : State) (i sub : Nat) :
    (s.count32 i sub).queue = s.queue := rfl

@[simp] theorem State.count32_queueFresh (s : State) (i sub : Nat) :
    (s.count32 i sub).queueFresh = s.queueFresh := rfl

@[simp] theorem State.count32_sessions (s : State) (i sub : Nat) :
    (s.count32 i sub).sessions = s.sessions := rfl

@[simp] theorem State.count32_storing (s : State) (i sub : Nat) :
    (s.count32 i sub).storing = s.storing := rfl

@[simp] theorem State.count32_can (s : State) (i sub : Nat) :
    (s.count32 i sub).can = s.can := rfl

@[simp] theorem State.count32_pcs (s : State) (i sub : Nat) :
    (s.count32 i sub).pcs = s.pcs := rfl

@[simp] theorem State.count32_scrubs (s : State) (i sub : Nat) :
    (s.count32 i sub).scrubs = s.scrubs := rfl

@[simp] theorem State.count32_tests (s : State) (i sub : Nat) :
    (s.count32 i sub).tests = s.tests := rfl

@[simp] theorem State.count32_watch (s : State) (i sub : Nat) :
    (s.count32 i sub).watch = s.watch := rfl

@[simp] theorem State.count32_posts (s : State) (i sub : Nat) :
    (s.count32 i sub).posts = s.posts := rfl

@[simp] theorem State.count32_posting (s : State) (i sub : Nat) :
    (s.count32 i sub).posting = s.posting := rfl

@[simp] theorem State.count32_mail (s : State) (i sub : Nat) :
    (s.count32 i sub).mail = s.mail := rfl

@[simp] theorem State.count32_dw (s : State) (i sub : Nat) :
    (s.count32 i sub).dw = s.dw := rfl

@[simp] theorem State.count32_rings (s : State) (i sub : Nat) :
    (s.count32 i sub).rings = s.rings := rfl

@[simp] theorem State.count32_host (s : State) (i sub : Nat) :
    (s.count32 i sub).host = s.host := rfl

@[simp] theorem State.count32_clock (s : State) (i sub : Nat) :
    (s.count32 i sub).clock = s.clock := rfl

@[simp] theorem State.count32_power (s : State) (i sub : Nat) :
    (s.count32 i sub).power = s.power := rfl

@[simp] theorem State.count32_monitors (s : State) (i sub : Nat) :
    (s.count32 i sub).monitors = s.monitors := rfl

@[simp] theorem State.count32_contexts (s : State) (i sub : Nat) :
    (s.count32 i sub).contexts = s.contexts := rfl

@[simp] theorem State.count32_sentExp (s : State) (i sub : Nat) :
    (s.count32 i sub).sentExp = s.sentExp := rfl

@[simp] theorem State.count32_tallyBlocks (s : State) (i sub : Nat) :
    (s.count32 i sub).tallyBlocks = s.tallyBlocks := rfl

@[simp] theorem State.count32_rolls (s : State) (i sub : Nat) :
    (s.count32 i sub).rolls = s.rolls := rfl

@[simp] theorem State.count32_buckets (s : State) (i sub : Nat) :
    (s.count32 i sub).buckets = s.buckets := rfl

@[simp] theorem State.count32_returns (s : State) (i sub : Nat) :
    (s.count32 i sub).returns = s.returns := rfl

@[simp] theorem State.count32_landings (s : State) (i sub : Nat) :
    (s.count32 i sub).landings = s.landings := rfl

@[simp] theorem State.count32_moves (s : State) (i sub : Nat) :
    (s.count32 i sub).moves = s.moves := rfl

@[simp] theorem State.count32_closes (s : State) (i sub : Nat) :
    (s.count32 i sub).closes = s.closes := rfl

@[simp] theorem State.count32_links (s : State) (i sub : Nat) :
    (s.count32 i sub).links = s.links := rfl

@[simp] theorem State.count32_snaps (s : State) (i sub : Nat) :
    (s.count32 i sub).snaps = s.snaps := rfl

@[simp] theorem State.count32_rests (s : State) (i sub : Nat) :
    (s.count32 i sub).rests = s.rests := rfl

@[simp] theorem State.count32_flash (s : State) (i sub : Nat) :
    (s.count32 i sub).flash = s.flash := rfl

@[simp] theorem State.count32_sup (s : State) (i sub : Nat) :
    (s.count32 i sub).sup = s.sup := rfl

@[simp] theorem State.count32_jtag (s : State) (i sub : Nat) :
    (s.count32 i sub).jtag = s.jtag := rfl

@[simp] theorem State.count32_log (s : State) (i sub : Nat) :
    (s.count32 i sub).log = s.log := rfl

@[simp] theorem State.count32_out (s : State) (i sub : Nat) :
    (s.count32 i sub).out = s.out := rfl

@[simp] theorem State.count64_pending (s : State) (i sub : Nat) :
    (s.count64 i sub).pending = s.pending := rfl

@[simp] theorem State.count64_supCycles (s : State) (i sub : Nat) :
    (s.count64 i sub).supCycles = s.supCycles := rfl

@[simp] theorem State.count64_freeCtr (s : State) (i sub : Nat) :
    (s.count64 i sub).freeCtr = s.freeCtr := rfl

@[simp] theorem State.count64_mem (s : State) (i sub : Nat) :
    (s.count64 i sub).mem = s.mem := rfl

@[simp] theorem State.count64_stat (s : State) (i sub : Nat) :
    (s.count64 i sub).stat = s.stat := rfl

@[simp] theorem State.count64_errs (s : State) (i sub : Nat) :
    (s.count64 i sub).errs = s.errs := rfl

@[simp] theorem State.count64_statErrs (s : State) (i sub : Nat) :
    (s.count64 i sub).statErrs = s.statErrs := rfl

@[simp] theorem State.count64_tables (s : State) (i sub : Nat) :
    (s.count64 i sub).tables = s.tables := rfl

@[simp] theorem State.count64_grid (s : State) (i sub : Nat) :
    (s.count64 i sub).grid = s.grid := rfl

@[simp] theorem State.count64_frames (s : State) (i sub : Nat) :
    (s.count64 i sub).frames = s.frames := rfl

@[simp] theorem State.count64_tiles (s : State) (i sub : Nat) :
    (s.count64 i sub).tiles = s.tiles := rfl

@[simp] theorem State.count64_stall (s : State) (i sub : Nat) :
    (s.count64 i sub).stall = s.stall := rfl

@[simp] theorem State.count64_undefinedGroups (s : State) (i sub : Nat) :
    (s.count64 i sub).undefinedGroups = s.undefinedGroups := rfl

@[simp] theorem State.count64_rewritten (s : State) (i sub : Nat) :
    (s.count64 i sub).rewritten = s.rewritten := rfl

@[simp] theorem State.count64_queue (s : State) (i sub : Nat) :
    (s.count64 i sub).queue = s.queue := rfl

@[simp] theorem State.count64_queueFresh (s : State) (i sub : Nat) :
    (s.count64 i sub).queueFresh = s.queueFresh := rfl

@[simp] theorem State.count64_sessions (s : State) (i sub : Nat) :
    (s.count64 i sub).sessions = s.sessions := rfl

@[simp] theorem State.count64_storing (s : State) (i sub : Nat) :
    (s.count64 i sub).storing = s.storing := rfl

@[simp] theorem State.count64_can (s : State) (i sub : Nat) :
    (s.count64 i sub).can = s.can := rfl

@[simp] theorem State.count64_pcs (s : State) (i sub : Nat) :
    (s.count64 i sub).pcs = s.pcs := rfl

@[simp] theorem State.count64_scrubs (s : State) (i sub : Nat) :
    (s.count64 i sub).scrubs = s.scrubs := rfl

@[simp] theorem State.count64_tests (s : State) (i sub : Nat) :
    (s.count64 i sub).tests = s.tests := rfl

@[simp] theorem State.count64_watch (s : State) (i sub : Nat) :
    (s.count64 i sub).watch = s.watch := rfl

@[simp] theorem State.count64_posts (s : State) (i sub : Nat) :
    (s.count64 i sub).posts = s.posts := rfl

@[simp] theorem State.count64_posting (s : State) (i sub : Nat) :
    (s.count64 i sub).posting = s.posting := rfl

@[simp] theorem State.count64_mail (s : State) (i sub : Nat) :
    (s.count64 i sub).mail = s.mail := rfl

@[simp] theorem State.count64_dw (s : State) (i sub : Nat) :
    (s.count64 i sub).dw = s.dw := rfl

@[simp] theorem State.count64_rings (s : State) (i sub : Nat) :
    (s.count64 i sub).rings = s.rings := rfl

@[simp] theorem State.count64_host (s : State) (i sub : Nat) :
    (s.count64 i sub).host = s.host := rfl

@[simp] theorem State.count64_clock (s : State) (i sub : Nat) :
    (s.count64 i sub).clock = s.clock := rfl

@[simp] theorem State.count64_power (s : State) (i sub : Nat) :
    (s.count64 i sub).power = s.power := rfl

@[simp] theorem State.count64_monitors (s : State) (i sub : Nat) :
    (s.count64 i sub).monitors = s.monitors := rfl

@[simp] theorem State.count64_contexts (s : State) (i sub : Nat) :
    (s.count64 i sub).contexts = s.contexts := rfl

@[simp] theorem State.count64_sentExp (s : State) (i sub : Nat) :
    (s.count64 i sub).sentExp = s.sentExp := rfl

@[simp] theorem State.count64_tallyBlocks (s : State) (i sub : Nat) :
    (s.count64 i sub).tallyBlocks = s.tallyBlocks := rfl

@[simp] theorem State.count64_rolls (s : State) (i sub : Nat) :
    (s.count64 i sub).rolls = s.rolls := rfl

@[simp] theorem State.count64_buckets (s : State) (i sub : Nat) :
    (s.count64 i sub).buckets = s.buckets := rfl

@[simp] theorem State.count64_returns (s : State) (i sub : Nat) :
    (s.count64 i sub).returns = s.returns := rfl

@[simp] theorem State.count64_landings (s : State) (i sub : Nat) :
    (s.count64 i sub).landings = s.landings := rfl

@[simp] theorem State.count64_moves (s : State) (i sub : Nat) :
    (s.count64 i sub).moves = s.moves := rfl

@[simp] theorem State.count64_closes (s : State) (i sub : Nat) :
    (s.count64 i sub).closes = s.closes := rfl

@[simp] theorem State.count64_links (s : State) (i sub : Nat) :
    (s.count64 i sub).links = s.links := rfl

@[simp] theorem State.count64_snaps (s : State) (i sub : Nat) :
    (s.count64 i sub).snaps = s.snaps := rfl

@[simp] theorem State.count64_rests (s : State) (i sub : Nat) :
    (s.count64 i sub).rests = s.rests := rfl

@[simp] theorem State.count64_flash (s : State) (i sub : Nat) :
    (s.count64 i sub).flash = s.flash := rfl

@[simp] theorem State.count64_sup (s : State) (i sub : Nat) :
    (s.count64 i sub).sup = s.sup := rfl

@[simp] theorem State.count64_jtag (s : State) (i sub : Nat) :
    (s.count64 i sub).jtag = s.jtag := rfl

@[simp] theorem State.count64_log (s : State) (i sub : Nat) :
    (s.count64 i sub).log = s.log := rfl

@[simp] theorem State.count64_out (s : State) (i sub : Nat) :
    (s.count64 i sub).out = s.out := rfl

@[simp] theorem State.draw_pending (s : State) :
    (s.draw.2).pending = s.pending := rfl

@[simp] theorem State.draw_supCycles (s : State) :
    (s.draw.2).supCycles = s.supCycles := rfl

@[simp] theorem State.draw_mem (s : State) :
    (s.draw.2).mem = s.mem := rfl

@[simp] theorem State.draw_stat (s : State) :
    (s.draw.2).stat = s.stat := rfl

@[simp] theorem State.draw_errs (s : State) :
    (s.draw.2).errs = s.errs := rfl

@[simp] theorem State.draw_statErrs (s : State) :
    (s.draw.2).statErrs = s.statErrs := rfl

@[simp] theorem State.draw_od (s : State) :
    (s.draw.2).od = s.od := rfl

@[simp] theorem State.draw_tables (s : State) :
    (s.draw.2).tables = s.tables := rfl

@[simp] theorem State.draw_grid (s : State) :
    (s.draw.2).grid = s.grid := rfl

@[simp] theorem State.draw_frames (s : State) :
    (s.draw.2).frames = s.frames := rfl

@[simp] theorem State.draw_tiles (s : State) :
    (s.draw.2).tiles = s.tiles := rfl

@[simp] theorem State.draw_stall (s : State) :
    (s.draw.2).stall = s.stall := rfl

@[simp] theorem State.draw_undefinedGroups (s : State) :
    (s.draw.2).undefinedGroups = s.undefinedGroups := rfl

@[simp] theorem State.draw_rewritten (s : State) :
    (s.draw.2).rewritten = s.rewritten := rfl

@[simp] theorem State.draw_queue (s : State) :
    (s.draw.2).queue = s.queue := rfl

@[simp] theorem State.draw_queueFresh (s : State) :
    (s.draw.2).queueFresh = s.queueFresh := rfl

@[simp] theorem State.draw_sessions (s : State) :
    (s.draw.2).sessions = s.sessions := rfl

@[simp] theorem State.draw_storing (s : State) :
    (s.draw.2).storing = s.storing := rfl

@[simp] theorem State.draw_can (s : State) :
    (s.draw.2).can = s.can := rfl

@[simp] theorem State.draw_pcs (s : State) :
    (s.draw.2).pcs = s.pcs := rfl

@[simp] theorem State.draw_scrubs (s : State) :
    (s.draw.2).scrubs = s.scrubs := rfl

@[simp] theorem State.draw_tests (s : State) :
    (s.draw.2).tests = s.tests := rfl

@[simp] theorem State.draw_watch (s : State) :
    (s.draw.2).watch = s.watch := rfl

@[simp] theorem State.draw_posts (s : State) :
    (s.draw.2).posts = s.posts := rfl

@[simp] theorem State.draw_posting (s : State) :
    (s.draw.2).posting = s.posting := rfl

@[simp] theorem State.draw_mail (s : State) :
    (s.draw.2).mail = s.mail := rfl

@[simp] theorem State.draw_dw (s : State) :
    (s.draw.2).dw = s.dw := rfl

@[simp] theorem State.draw_rings (s : State) :
    (s.draw.2).rings = s.rings := rfl

@[simp] theorem State.draw_host (s : State) :
    (s.draw.2).host = s.host := rfl

@[simp] theorem State.draw_clock (s : State) :
    (s.draw.2).clock = s.clock := rfl

@[simp] theorem State.draw_power (s : State) :
    (s.draw.2).power = s.power := rfl

@[simp] theorem State.draw_monitors (s : State) :
    (s.draw.2).monitors = s.monitors := rfl

@[simp] theorem State.draw_contexts (s : State) :
    (s.draw.2).contexts = s.contexts := rfl

@[simp] theorem State.draw_sentExp (s : State) :
    (s.draw.2).sentExp = s.sentExp := rfl

@[simp] theorem State.draw_tallyBlocks (s : State) :
    (s.draw.2).tallyBlocks = s.tallyBlocks := rfl

@[simp] theorem State.draw_rolls (s : State) :
    (s.draw.2).rolls = s.rolls := rfl

@[simp] theorem State.draw_buckets (s : State) :
    (s.draw.2).buckets = s.buckets := rfl

@[simp] theorem State.draw_returns (s : State) :
    (s.draw.2).returns = s.returns := rfl

@[simp] theorem State.draw_landings (s : State) :
    (s.draw.2).landings = s.landings := rfl

@[simp] theorem State.draw_moves (s : State) :
    (s.draw.2).moves = s.moves := rfl

@[simp] theorem State.draw_closes (s : State) :
    (s.draw.2).closes = s.closes := rfl

@[simp] theorem State.draw_links (s : State) :
    (s.draw.2).links = s.links := rfl

@[simp] theorem State.draw_snaps (s : State) :
    (s.draw.2).snaps = s.snaps := rfl

@[simp] theorem State.draw_rests (s : State) :
    (s.draw.2).rests = s.rests := rfl

@[simp] theorem State.draw_flash (s : State) :
    (s.draw.2).flash = s.flash := rfl

@[simp] theorem State.draw_sup (s : State) :
    (s.draw.2).sup = s.sup := rfl

@[simp] theorem State.draw_jtag (s : State) :
    (s.draw.2).jtag = s.jtag := rfl

@[simp] theorem State.draw_log (s : State) :
    (s.draw.2).log = s.log := rfl

@[simp] theorem State.draw_out (s : State) :
    (s.draw.2).out = s.out := rfl

/-! ### Tiles and frames -/

@[simp] theorem State.setTile_pending (s : State) (t : Nat) (x : Tile) :
    (s.setTile t x).pending = s.pending := rfl

@[simp] theorem State.setTile_supCycles (s : State) (t : Nat) (x : Tile) :
    (s.setTile t x).supCycles = s.supCycles := rfl

@[simp] theorem State.setTile_freeCtr (s : State) (t : Nat) (x : Tile) :
    (s.setTile t x).freeCtr = s.freeCtr := rfl

@[simp] theorem State.setTile_mem (s : State) (t : Nat) (x : Tile) :
    (s.setTile t x).mem = s.mem := rfl

@[simp] theorem State.setTile_stat (s : State) (t : Nat) (x : Tile) :
    (s.setTile t x).stat = s.stat := rfl

@[simp] theorem State.setTile_errs (s : State) (t : Nat) (x : Tile) :
    (s.setTile t x).errs = s.errs := rfl

@[simp] theorem State.setTile_statErrs (s : State) (t : Nat) (x : Tile) :
    (s.setTile t x).statErrs = s.statErrs := rfl

@[simp] theorem State.setTile_od (s : State) (t : Nat) (x : Tile) :
    (s.setTile t x).od = s.od := rfl

@[simp] theorem State.setTile_tables (s : State) (t : Nat) (x : Tile) :
    (s.setTile t x).tables = s.tables := rfl

@[simp] theorem State.setTile_grid (s : State) (t : Nat) (x : Tile) :
    (s.setTile t x).grid = s.grid := rfl

@[simp] theorem State.setTile_frames (s : State) (t : Nat) (x : Tile) :
    (s.setTile t x).frames = s.frames := rfl

@[simp] theorem State.setTile_stall (s : State) (t : Nat) (x : Tile) :
    (s.setTile t x).stall = s.stall := rfl

@[simp] theorem State.setTile_undefinedGroups (s : State) (t : Nat) (x : Tile) :
    (s.setTile t x).undefinedGroups = s.undefinedGroups := rfl

@[simp] theorem State.setTile_rewritten (s : State) (t : Nat) (x : Tile) :
    (s.setTile t x).rewritten = s.rewritten := rfl

@[simp] theorem State.setTile_queue (s : State) (t : Nat) (x : Tile) :
    (s.setTile t x).queue = s.queue := rfl

@[simp] theorem State.setTile_queueFresh (s : State) (t : Nat) (x : Tile) :
    (s.setTile t x).queueFresh = s.queueFresh := rfl

@[simp] theorem State.setTile_sessions (s : State) (t : Nat) (x : Tile) :
    (s.setTile t x).sessions = s.sessions := rfl

@[simp] theorem State.setTile_storing (s : State) (t : Nat) (x : Tile) :
    (s.setTile t x).storing = s.storing := rfl

@[simp] theorem State.setTile_can (s : State) (t : Nat) (x : Tile) :
    (s.setTile t x).can = s.can := rfl

@[simp] theorem State.setTile_pcs (s : State) (t : Nat) (x : Tile) :
    (s.setTile t x).pcs = s.pcs := rfl

@[simp] theorem State.setTile_scrubs (s : State) (t : Nat) (x : Tile) :
    (s.setTile t x).scrubs = s.scrubs := rfl

@[simp] theorem State.setTile_tests (s : State) (t : Nat) (x : Tile) :
    (s.setTile t x).tests = s.tests := rfl

@[simp] theorem State.setTile_watch (s : State) (t : Nat) (x : Tile) :
    (s.setTile t x).watch = s.watch := rfl

@[simp] theorem State.setTile_posts (s : State) (t : Nat) (x : Tile) :
    (s.setTile t x).posts = s.posts := rfl

@[simp] theorem State.setTile_posting (s : State) (t : Nat) (x : Tile) :
    (s.setTile t x).posting = s.posting := rfl

@[simp] theorem State.setTile_mail (s : State) (t : Nat) (x : Tile) :
    (s.setTile t x).mail = s.mail := rfl

@[simp] theorem State.setTile_dw (s : State) (t : Nat) (x : Tile) :
    (s.setTile t x).dw = s.dw := rfl

@[simp] theorem State.setTile_rings (s : State) (t : Nat) (x : Tile) :
    (s.setTile t x).rings = s.rings := rfl

@[simp] theorem State.setTile_host (s : State) (t : Nat) (x : Tile) :
    (s.setTile t x).host = s.host := rfl

@[simp] theorem State.setTile_clock (s : State) (t : Nat) (x : Tile) :
    (s.setTile t x).clock = s.clock := rfl

@[simp] theorem State.setTile_power (s : State) (t : Nat) (x : Tile) :
    (s.setTile t x).power = s.power := rfl

@[simp] theorem State.setTile_monitors (s : State) (t : Nat) (x : Tile) :
    (s.setTile t x).monitors = s.monitors := rfl

@[simp] theorem State.setTile_contexts (s : State) (t : Nat) (x : Tile) :
    (s.setTile t x).contexts = s.contexts := rfl

@[simp] theorem State.setTile_sentExp (s : State) (t : Nat) (x : Tile) :
    (s.setTile t x).sentExp = s.sentExp := rfl

@[simp] theorem State.setTile_tallyBlocks (s : State) (t : Nat) (x : Tile) :
    (s.setTile t x).tallyBlocks = s.tallyBlocks := rfl

@[simp] theorem State.setTile_rolls (s : State) (t : Nat) (x : Tile) :
    (s.setTile t x).rolls = s.rolls := rfl

@[simp] theorem State.setTile_buckets (s : State) (t : Nat) (x : Tile) :
    (s.setTile t x).buckets = s.buckets := rfl

@[simp] theorem State.setTile_returns (s : State) (t : Nat) (x : Tile) :
    (s.setTile t x).returns = s.returns := rfl

@[simp] theorem State.setTile_landings (s : State) (t : Nat) (x : Tile) :
    (s.setTile t x).landings = s.landings := rfl

@[simp] theorem State.setTile_moves (s : State) (t : Nat) (x : Tile) :
    (s.setTile t x).moves = s.moves := rfl

@[simp] theorem State.setTile_closes (s : State) (t : Nat) (x : Tile) :
    (s.setTile t x).closes = s.closes := rfl

@[simp] theorem State.setTile_links (s : State) (t : Nat) (x : Tile) :
    (s.setTile t x).links = s.links := rfl

@[simp] theorem State.setTile_snaps (s : State) (t : Nat) (x : Tile) :
    (s.setTile t x).snaps = s.snaps := rfl

@[simp] theorem State.setTile_rests (s : State) (t : Nat) (x : Tile) :
    (s.setTile t x).rests = s.rests := rfl

@[simp] theorem State.setTile_flash (s : State) (t : Nat) (x : Tile) :
    (s.setTile t x).flash = s.flash := rfl

@[simp] theorem State.setTile_sup (s : State) (t : Nat) (x : Tile) :
    (s.setTile t x).sup = s.sup := rfl

@[simp] theorem State.setTile_jtag (s : State) (t : Nat) (x : Tile) :
    (s.setTile t x).jtag = s.jtag := rfl

@[simp] theorem State.setTile_log (s : State) (t : Nat) (x : Tile) :
    (s.setTile t x).log = s.log := rfl

@[simp] theorem State.setTile_out (s : State) (t : Nat) (x : Tile) :
    (s.setTile t x).out = s.out := rfl

@[simp] theorem State.modTile_pending (s : State) (t : Nat) (g : Tile → Tile) :
    (s.modTile t g).pending = s.pending := rfl

@[simp] theorem State.modTile_supCycles (s : State) (t : Nat) (g : Tile → Tile) :
    (s.modTile t g).supCycles = s.supCycles := rfl

@[simp] theorem State.modTile_freeCtr (s : State) (t : Nat) (g : Tile → Tile) :
    (s.modTile t g).freeCtr = s.freeCtr := rfl

@[simp] theorem State.modTile_mem (s : State) (t : Nat) (g : Tile → Tile) :
    (s.modTile t g).mem = s.mem := rfl

@[simp] theorem State.modTile_stat (s : State) (t : Nat) (g : Tile → Tile) :
    (s.modTile t g).stat = s.stat := rfl

@[simp] theorem State.modTile_errs (s : State) (t : Nat) (g : Tile → Tile) :
    (s.modTile t g).errs = s.errs := rfl

@[simp] theorem State.modTile_statErrs (s : State) (t : Nat) (g : Tile → Tile) :
    (s.modTile t g).statErrs = s.statErrs := rfl

@[simp] theorem State.modTile_od (s : State) (t : Nat) (g : Tile → Tile) :
    (s.modTile t g).od = s.od := rfl

@[simp] theorem State.modTile_tables (s : State) (t : Nat) (g : Tile → Tile) :
    (s.modTile t g).tables = s.tables := rfl

@[simp] theorem State.modTile_grid (s : State) (t : Nat) (g : Tile → Tile) :
    (s.modTile t g).grid = s.grid := rfl

@[simp] theorem State.modTile_frames (s : State) (t : Nat) (g : Tile → Tile) :
    (s.modTile t g).frames = s.frames := rfl

@[simp] theorem State.modTile_stall (s : State) (t : Nat) (g : Tile → Tile) :
    (s.modTile t g).stall = s.stall := rfl

@[simp] theorem State.modTile_undefinedGroups (s : State) (t : Nat) (g : Tile → Tile) :
    (s.modTile t g).undefinedGroups = s.undefinedGroups := rfl

@[simp] theorem State.modTile_rewritten (s : State) (t : Nat) (g : Tile → Tile) :
    (s.modTile t g).rewritten = s.rewritten := rfl

@[simp] theorem State.modTile_queue (s : State) (t : Nat) (g : Tile → Tile) :
    (s.modTile t g).queue = s.queue := rfl

@[simp] theorem State.modTile_queueFresh (s : State) (t : Nat) (g : Tile → Tile) :
    (s.modTile t g).queueFresh = s.queueFresh := rfl

@[simp] theorem State.modTile_sessions (s : State) (t : Nat) (g : Tile → Tile) :
    (s.modTile t g).sessions = s.sessions := rfl

@[simp] theorem State.modTile_storing (s : State) (t : Nat) (g : Tile → Tile) :
    (s.modTile t g).storing = s.storing := rfl

@[simp] theorem State.modTile_can (s : State) (t : Nat) (g : Tile → Tile) :
    (s.modTile t g).can = s.can := rfl

@[simp] theorem State.modTile_pcs (s : State) (t : Nat) (g : Tile → Tile) :
    (s.modTile t g).pcs = s.pcs := rfl

@[simp] theorem State.modTile_scrubs (s : State) (t : Nat) (g : Tile → Tile) :
    (s.modTile t g).scrubs = s.scrubs := rfl

@[simp] theorem State.modTile_tests (s : State) (t : Nat) (g : Tile → Tile) :
    (s.modTile t g).tests = s.tests := rfl

@[simp] theorem State.modTile_watch (s : State) (t : Nat) (g : Tile → Tile) :
    (s.modTile t g).watch = s.watch := rfl

@[simp] theorem State.modTile_posts (s : State) (t : Nat) (g : Tile → Tile) :
    (s.modTile t g).posts = s.posts := rfl

@[simp] theorem State.modTile_posting (s : State) (t : Nat) (g : Tile → Tile) :
    (s.modTile t g).posting = s.posting := rfl

@[simp] theorem State.modTile_mail (s : State) (t : Nat) (g : Tile → Tile) :
    (s.modTile t g).mail = s.mail := rfl

@[simp] theorem State.modTile_dw (s : State) (t : Nat) (g : Tile → Tile) :
    (s.modTile t g).dw = s.dw := rfl

@[simp] theorem State.modTile_rings (s : State) (t : Nat) (g : Tile → Tile) :
    (s.modTile t g).rings = s.rings := rfl

@[simp] theorem State.modTile_host (s : State) (t : Nat) (g : Tile → Tile) :
    (s.modTile t g).host = s.host := rfl

@[simp] theorem State.modTile_clock (s : State) (t : Nat) (g : Tile → Tile) :
    (s.modTile t g).clock = s.clock := rfl

@[simp] theorem State.modTile_power (s : State) (t : Nat) (g : Tile → Tile) :
    (s.modTile t g).power = s.power := rfl

@[simp] theorem State.modTile_monitors (s : State) (t : Nat) (g : Tile → Tile) :
    (s.modTile t g).monitors = s.monitors := rfl

@[simp] theorem State.modTile_contexts (s : State) (t : Nat) (g : Tile → Tile) :
    (s.modTile t g).contexts = s.contexts := rfl

@[simp] theorem State.modTile_sentExp (s : State) (t : Nat) (g : Tile → Tile) :
    (s.modTile t g).sentExp = s.sentExp := rfl

@[simp] theorem State.modTile_tallyBlocks (s : State) (t : Nat) (g : Tile → Tile) :
    (s.modTile t g).tallyBlocks = s.tallyBlocks := rfl

@[simp] theorem State.modTile_rolls (s : State) (t : Nat) (g : Tile → Tile) :
    (s.modTile t g).rolls = s.rolls := rfl

@[simp] theorem State.modTile_buckets (s : State) (t : Nat) (g : Tile → Tile) :
    (s.modTile t g).buckets = s.buckets := rfl

@[simp] theorem State.modTile_returns (s : State) (t : Nat) (g : Tile → Tile) :
    (s.modTile t g).returns = s.returns := rfl

@[simp] theorem State.modTile_landings (s : State) (t : Nat) (g : Tile → Tile) :
    (s.modTile t g).landings = s.landings := rfl

@[simp] theorem State.modTile_moves (s : State) (t : Nat) (g : Tile → Tile) :
    (s.modTile t g).moves = s.moves := rfl

@[simp] theorem State.modTile_closes (s : State) (t : Nat) (g : Tile → Tile) :
    (s.modTile t g).closes = s.closes := rfl

@[simp] theorem State.modTile_links (s : State) (t : Nat) (g : Tile → Tile) :
    (s.modTile t g).links = s.links := rfl

@[simp] theorem State.modTile_snaps (s : State) (t : Nat) (g : Tile → Tile) :
    (s.modTile t g).snaps = s.snaps := rfl

@[simp] theorem State.modTile_rests (s : State) (t : Nat) (g : Tile → Tile) :
    (s.modTile t g).rests = s.rests := rfl

@[simp] theorem State.modTile_flash (s : State) (t : Nat) (g : Tile → Tile) :
    (s.modTile t g).flash = s.flash := rfl

@[simp] theorem State.modTile_sup (s : State) (t : Nat) (g : Tile → Tile) :
    (s.modTile t g).sup = s.sup := rfl

@[simp] theorem State.modTile_jtag (s : State) (t : Nat) (g : Tile → Tile) :
    (s.modTile t g).jtag = s.jtag := rfl

@[simp] theorem State.modTile_log (s : State) (t : Nat) (g : Tile → Tile) :
    (s.modTile t g).log = s.log := rfl

@[simp] theorem State.modTile_out (s : State) (t : Nat) (g : Tile → Tile) :
    (s.modTile t g).out = s.out := rfl

@[simp] theorem State.modCore_pending (s : State) (t : Nat) (g : RegContext → RegContext) :
    (s.modCore t g).pending = s.pending := rfl

@[simp] theorem State.modCore_supCycles (s : State) (t : Nat) (g : RegContext → RegContext) :
    (s.modCore t g).supCycles = s.supCycles := rfl

@[simp] theorem State.modCore_freeCtr (s : State) (t : Nat) (g : RegContext → RegContext) :
    (s.modCore t g).freeCtr = s.freeCtr := rfl

@[simp] theorem State.modCore_mem (s : State) (t : Nat) (g : RegContext → RegContext) :
    (s.modCore t g).mem = s.mem := rfl

@[simp] theorem State.modCore_stat (s : State) (t : Nat) (g : RegContext → RegContext) :
    (s.modCore t g).stat = s.stat := rfl

@[simp] theorem State.modCore_errs (s : State) (t : Nat) (g : RegContext → RegContext) :
    (s.modCore t g).errs = s.errs := rfl

@[simp] theorem State.modCore_statErrs (s : State) (t : Nat) (g : RegContext → RegContext) :
    (s.modCore t g).statErrs = s.statErrs := rfl

@[simp] theorem State.modCore_od (s : State) (t : Nat) (g : RegContext → RegContext) :
    (s.modCore t g).od = s.od := rfl

@[simp] theorem State.modCore_tables (s : State) (t : Nat) (g : RegContext → RegContext) :
    (s.modCore t g).tables = s.tables := rfl

@[simp] theorem State.modCore_grid (s : State) (t : Nat) (g : RegContext → RegContext) :
    (s.modCore t g).grid = s.grid := rfl

@[simp] theorem State.modCore_frames (s : State) (t : Nat) (g : RegContext → RegContext) :
    (s.modCore t g).frames = s.frames := rfl

@[simp] theorem State.modCore_stall (s : State) (t : Nat) (g : RegContext → RegContext) :
    (s.modCore t g).stall = s.stall := rfl

@[simp] theorem State.modCore_undefinedGroups (s : State) (t : Nat) (g : RegContext → RegContext) :
    (s.modCore t g).undefinedGroups = s.undefinedGroups := rfl

@[simp] theorem State.modCore_rewritten (s : State) (t : Nat) (g : RegContext → RegContext) :
    (s.modCore t g).rewritten = s.rewritten := rfl

@[simp] theorem State.modCore_queue (s : State) (t : Nat) (g : RegContext → RegContext) :
    (s.modCore t g).queue = s.queue := rfl

@[simp] theorem State.modCore_queueFresh (s : State) (t : Nat) (g : RegContext → RegContext) :
    (s.modCore t g).queueFresh = s.queueFresh := rfl

@[simp] theorem State.modCore_sessions (s : State) (t : Nat) (g : RegContext → RegContext) :
    (s.modCore t g).sessions = s.sessions := rfl

@[simp] theorem State.modCore_storing (s : State) (t : Nat) (g : RegContext → RegContext) :
    (s.modCore t g).storing = s.storing := rfl

@[simp] theorem State.modCore_can (s : State) (t : Nat) (g : RegContext → RegContext) :
    (s.modCore t g).can = s.can := rfl

@[simp] theorem State.modCore_pcs (s : State) (t : Nat) (g : RegContext → RegContext) :
    (s.modCore t g).pcs = s.pcs := rfl

@[simp] theorem State.modCore_scrubs (s : State) (t : Nat) (g : RegContext → RegContext) :
    (s.modCore t g).scrubs = s.scrubs := rfl

@[simp] theorem State.modCore_tests (s : State) (t : Nat) (g : RegContext → RegContext) :
    (s.modCore t g).tests = s.tests := rfl

@[simp] theorem State.modCore_watch (s : State) (t : Nat) (g : RegContext → RegContext) :
    (s.modCore t g).watch = s.watch := rfl

@[simp] theorem State.modCore_posts (s : State) (t : Nat) (g : RegContext → RegContext) :
    (s.modCore t g).posts = s.posts := rfl

@[simp] theorem State.modCore_posting (s : State) (t : Nat) (g : RegContext → RegContext) :
    (s.modCore t g).posting = s.posting := rfl

@[simp] theorem State.modCore_mail (s : State) (t : Nat) (g : RegContext → RegContext) :
    (s.modCore t g).mail = s.mail := rfl

@[simp] theorem State.modCore_dw (s : State) (t : Nat) (g : RegContext → RegContext) :
    (s.modCore t g).dw = s.dw := rfl

@[simp] theorem State.modCore_rings (s : State) (t : Nat) (g : RegContext → RegContext) :
    (s.modCore t g).rings = s.rings := rfl

@[simp] theorem State.modCore_host (s : State) (t : Nat) (g : RegContext → RegContext) :
    (s.modCore t g).host = s.host := rfl

@[simp] theorem State.modCore_clock (s : State) (t : Nat) (g : RegContext → RegContext) :
    (s.modCore t g).clock = s.clock := rfl

@[simp] theorem State.modCore_power (s : State) (t : Nat) (g : RegContext → RegContext) :
    (s.modCore t g).power = s.power := rfl

@[simp] theorem State.modCore_monitors (s : State) (t : Nat) (g : RegContext → RegContext) :
    (s.modCore t g).monitors = s.monitors := rfl

@[simp] theorem State.modCore_contexts (s : State) (t : Nat) (g : RegContext → RegContext) :
    (s.modCore t g).contexts = s.contexts := rfl

@[simp] theorem State.modCore_sentExp (s : State) (t : Nat) (g : RegContext → RegContext) :
    (s.modCore t g).sentExp = s.sentExp := rfl

@[simp] theorem State.modCore_tallyBlocks (s : State) (t : Nat) (g : RegContext → RegContext) :
    (s.modCore t g).tallyBlocks = s.tallyBlocks := rfl

@[simp] theorem State.modCore_rolls (s : State) (t : Nat) (g : RegContext → RegContext) :
    (s.modCore t g).rolls = s.rolls := rfl

@[simp] theorem State.modCore_buckets (s : State) (t : Nat) (g : RegContext → RegContext) :
    (s.modCore t g).buckets = s.buckets := rfl

@[simp] theorem State.modCore_returns (s : State) (t : Nat) (g : RegContext → RegContext) :
    (s.modCore t g).returns = s.returns := rfl

@[simp] theorem State.modCore_landings (s : State) (t : Nat) (g : RegContext → RegContext) :
    (s.modCore t g).landings = s.landings := rfl

@[simp] theorem State.modCore_moves (s : State) (t : Nat) (g : RegContext → RegContext) :
    (s.modCore t g).moves = s.moves := rfl

@[simp] theorem State.modCore_closes (s : State) (t : Nat) (g : RegContext → RegContext) :
    (s.modCore t g).closes = s.closes := rfl

@[simp] theorem State.modCore_links (s : State) (t : Nat) (g : RegContext → RegContext) :
    (s.modCore t g).links = s.links := rfl

@[simp] theorem State.modCore_snaps (s : State) (t : Nat) (g : RegContext → RegContext) :
    (s.modCore t g).snaps = s.snaps := rfl

@[simp] theorem State.modCore_rests (s : State) (t : Nat) (g : RegContext → RegContext) :
    (s.modCore t g).rests = s.rests := rfl

@[simp] theorem State.modCore_flash (s : State) (t : Nat) (g : RegContext → RegContext) :
    (s.modCore t g).flash = s.flash := rfl

@[simp] theorem State.modCore_sup (s : State) (t : Nat) (g : RegContext → RegContext) :
    (s.modCore t g).sup = s.sup := rfl

@[simp] theorem State.modCore_jtag (s : State) (t : Nat) (g : RegContext → RegContext) :
    (s.modCore t g).jtag = s.jtag := rfl

@[simp] theorem State.modCore_log (s : State) (t : Nat) (g : RegContext → RegContext) :
    (s.modCore t g).log = s.log := rfl

@[simp] theorem State.modCore_out (s : State) (t : Nat) (g : RegContext → RegContext) :
    (s.modCore t g).out = s.out := rfl

@[simp] theorem State.retire_pending (s : State) (t : Nat) (rd : Reg) (v : W64) :
    (s.retire t rd v).pending = s.pending := rfl

@[simp] theorem State.retire_supCycles (s : State) (t : Nat) (rd : Reg) (v : W64) :
    (s.retire t rd v).supCycles = s.supCycles := rfl

@[simp] theorem State.retire_freeCtr (s : State) (t : Nat) (rd : Reg) (v : W64) :
    (s.retire t rd v).freeCtr = s.freeCtr := rfl

@[simp] theorem State.retire_mem (s : State) (t : Nat) (rd : Reg) (v : W64) :
    (s.retire t rd v).mem = s.mem := rfl

@[simp] theorem State.retire_stat (s : State) (t : Nat) (rd : Reg) (v : W64) :
    (s.retire t rd v).stat = s.stat := rfl

@[simp] theorem State.retire_errs (s : State) (t : Nat) (rd : Reg) (v : W64) :
    (s.retire t rd v).errs = s.errs := rfl

@[simp] theorem State.retire_statErrs (s : State) (t : Nat) (rd : Reg) (v : W64) :
    (s.retire t rd v).statErrs = s.statErrs := rfl

@[simp] theorem State.retire_od (s : State) (t : Nat) (rd : Reg) (v : W64) :
    (s.retire t rd v).od = s.od := rfl

@[simp] theorem State.retire_tables (s : State) (t : Nat) (rd : Reg) (v : W64) :
    (s.retire t rd v).tables = s.tables := rfl

@[simp] theorem State.retire_grid (s : State) (t : Nat) (rd : Reg) (v : W64) :
    (s.retire t rd v).grid = s.grid := rfl

@[simp] theorem State.retire_frames (s : State) (t : Nat) (rd : Reg) (v : W64) :
    (s.retire t rd v).frames = s.frames := rfl

@[simp] theorem State.retire_stall (s : State) (t : Nat) (rd : Reg) (v : W64) :
    (s.retire t rd v).stall = s.stall := rfl

@[simp] theorem State.retire_undefinedGroups (s : State) (t : Nat) (rd : Reg) (v : W64) :
    (s.retire t rd v).undefinedGroups = s.undefinedGroups := rfl

@[simp] theorem State.retire_rewritten (s : State) (t : Nat) (rd : Reg) (v : W64) :
    (s.retire t rd v).rewritten = s.rewritten := rfl

@[simp] theorem State.retire_queue (s : State) (t : Nat) (rd : Reg) (v : W64) :
    (s.retire t rd v).queue = s.queue := rfl

@[simp] theorem State.retire_queueFresh (s : State) (t : Nat) (rd : Reg) (v : W64) :
    (s.retire t rd v).queueFresh = s.queueFresh := rfl

@[simp] theorem State.retire_sessions (s : State) (t : Nat) (rd : Reg) (v : W64) :
    (s.retire t rd v).sessions = s.sessions := rfl

@[simp] theorem State.retire_storing (s : State) (t : Nat) (rd : Reg) (v : W64) :
    (s.retire t rd v).storing = s.storing := rfl

@[simp] theorem State.retire_can (s : State) (t : Nat) (rd : Reg) (v : W64) :
    (s.retire t rd v).can = s.can := rfl

@[simp] theorem State.retire_pcs (s : State) (t : Nat) (rd : Reg) (v : W64) :
    (s.retire t rd v).pcs = s.pcs := rfl

@[simp] theorem State.retire_scrubs (s : State) (t : Nat) (rd : Reg) (v : W64) :
    (s.retire t rd v).scrubs = s.scrubs := rfl

@[simp] theorem State.retire_tests (s : State) (t : Nat) (rd : Reg) (v : W64) :
    (s.retire t rd v).tests = s.tests := rfl

@[simp] theorem State.retire_watch (s : State) (t : Nat) (rd : Reg) (v : W64) :
    (s.retire t rd v).watch = s.watch := rfl

@[simp] theorem State.retire_posts (s : State) (t : Nat) (rd : Reg) (v : W64) :
    (s.retire t rd v).posts = s.posts := rfl

@[simp] theorem State.retire_posting (s : State) (t : Nat) (rd : Reg) (v : W64) :
    (s.retire t rd v).posting = s.posting := rfl

@[simp] theorem State.retire_mail (s : State) (t : Nat) (rd : Reg) (v : W64) :
    (s.retire t rd v).mail = s.mail := rfl

@[simp] theorem State.retire_dw (s : State) (t : Nat) (rd : Reg) (v : W64) :
    (s.retire t rd v).dw = s.dw := rfl

@[simp] theorem State.retire_rings (s : State) (t : Nat) (rd : Reg) (v : W64) :
    (s.retire t rd v).rings = s.rings := rfl

@[simp] theorem State.retire_host (s : State) (t : Nat) (rd : Reg) (v : W64) :
    (s.retire t rd v).host = s.host := rfl

@[simp] theorem State.retire_clock (s : State) (t : Nat) (rd : Reg) (v : W64) :
    (s.retire t rd v).clock = s.clock := rfl

@[simp] theorem State.retire_power (s : State) (t : Nat) (rd : Reg) (v : W64) :
    (s.retire t rd v).power = s.power := rfl

@[simp] theorem State.retire_monitors (s : State) (t : Nat) (rd : Reg) (v : W64) :
    (s.retire t rd v).monitors = s.monitors := rfl

@[simp] theorem State.retire_contexts (s : State) (t : Nat) (rd : Reg) (v : W64) :
    (s.retire t rd v).contexts = s.contexts := rfl

@[simp] theorem State.retire_sentExp (s : State) (t : Nat) (rd : Reg) (v : W64) :
    (s.retire t rd v).sentExp = s.sentExp := rfl

@[simp] theorem State.retire_tallyBlocks (s : State) (t : Nat) (rd : Reg) (v : W64) :
    (s.retire t rd v).tallyBlocks = s.tallyBlocks := rfl

@[simp] theorem State.retire_rolls (s : State) (t : Nat) (rd : Reg) (v : W64) :
    (s.retire t rd v).rolls = s.rolls := rfl

@[simp] theorem State.retire_buckets (s : State) (t : Nat) (rd : Reg) (v : W64) :
    (s.retire t rd v).buckets = s.buckets := rfl

@[simp] theorem State.retire_returns (s : State) (t : Nat) (rd : Reg) (v : W64) :
    (s.retire t rd v).returns = s.returns := rfl

@[simp] theorem State.retire_landings (s : State) (t : Nat) (rd : Reg) (v : W64) :
    (s.retire t rd v).landings = s.landings := rfl

@[simp] theorem State.retire_moves (s : State) (t : Nat) (rd : Reg) (v : W64) :
    (s.retire t rd v).moves = s.moves := rfl

@[simp] theorem State.retire_closes (s : State) (t : Nat) (rd : Reg) (v : W64) :
    (s.retire t rd v).closes = s.closes := rfl

@[simp] theorem State.retire_links (s : State) (t : Nat) (rd : Reg) (v : W64) :
    (s.retire t rd v).links = s.links := rfl

@[simp] theorem State.retire_snaps (s : State) (t : Nat) (rd : Reg) (v : W64) :
    (s.retire t rd v).snaps = s.snaps := rfl

@[simp] theorem State.retire_rests (s : State) (t : Nat) (rd : Reg) (v : W64) :
    (s.retire t rd v).rests = s.rests := rfl

@[simp] theorem State.retire_flash (s : State) (t : Nat) (rd : Reg) (v : W64) :
    (s.retire t rd v).flash = s.flash := rfl

@[simp] theorem State.retire_sup (s : State) (t : Nat) (rd : Reg) (v : W64) :
    (s.retire t rd v).sup = s.sup := rfl

@[simp] theorem State.retire_jtag (s : State) (t : Nat) (rd : Reg) (v : W64) :
    (s.retire t rd v).jtag = s.jtag := rfl

@[simp] theorem State.retire_log (s : State) (t : Nat) (rd : Reg) (v : W64) :
    (s.retire t rd v).log = s.log := rfl

@[simp] theorem State.retire_out (s : State) (t : Nat) (rd : Reg) (v : W64) :
    (s.retire t rd v).out = s.out := rfl

@[simp] theorem State.setFrame_pending (s : State) (k : Fin 8) (x : Frame) :
    (s.setFrame k x).pending = s.pending := rfl

@[simp] theorem State.setFrame_supCycles (s : State) (k : Fin 8) (x : Frame) :
    (s.setFrame k x).supCycles = s.supCycles := rfl

@[simp] theorem State.setFrame_freeCtr (s : State) (k : Fin 8) (x : Frame) :
    (s.setFrame k x).freeCtr = s.freeCtr := rfl

@[simp] theorem State.setFrame_mem (s : State) (k : Fin 8) (x : Frame) :
    (s.setFrame k x).mem = s.mem := rfl

@[simp] theorem State.setFrame_stat (s : State) (k : Fin 8) (x : Frame) :
    (s.setFrame k x).stat = s.stat := rfl

@[simp] theorem State.setFrame_errs (s : State) (k : Fin 8) (x : Frame) :
    (s.setFrame k x).errs = s.errs := rfl

@[simp] theorem State.setFrame_statErrs (s : State) (k : Fin 8) (x : Frame) :
    (s.setFrame k x).statErrs = s.statErrs := rfl

@[simp] theorem State.setFrame_od (s : State) (k : Fin 8) (x : Frame) :
    (s.setFrame k x).od = s.od := rfl

@[simp] theorem State.setFrame_tables (s : State) (k : Fin 8) (x : Frame) :
    (s.setFrame k x).tables = s.tables := rfl

@[simp] theorem State.setFrame_grid (s : State) (k : Fin 8) (x : Frame) :
    (s.setFrame k x).grid = s.grid := rfl

@[simp] theorem State.setFrame_tiles (s : State) (k : Fin 8) (x : Frame) :
    (s.setFrame k x).tiles = s.tiles := rfl

@[simp] theorem State.setFrame_stall (s : State) (k : Fin 8) (x : Frame) :
    (s.setFrame k x).stall = s.stall := rfl

@[simp] theorem State.setFrame_undefinedGroups (s : State) (k : Fin 8) (x : Frame) :
    (s.setFrame k x).undefinedGroups = s.undefinedGroups := rfl

@[simp] theorem State.setFrame_rewritten (s : State) (k : Fin 8) (x : Frame) :
    (s.setFrame k x).rewritten = s.rewritten := rfl

@[simp] theorem State.setFrame_queue (s : State) (k : Fin 8) (x : Frame) :
    (s.setFrame k x).queue = s.queue := rfl

@[simp] theorem State.setFrame_queueFresh (s : State) (k : Fin 8) (x : Frame) :
    (s.setFrame k x).queueFresh = s.queueFresh := rfl

@[simp] theorem State.setFrame_sessions (s : State) (k : Fin 8) (x : Frame) :
    (s.setFrame k x).sessions = s.sessions := rfl

@[simp] theorem State.setFrame_storing (s : State) (k : Fin 8) (x : Frame) :
    (s.setFrame k x).storing = s.storing := rfl

@[simp] theorem State.setFrame_can (s : State) (k : Fin 8) (x : Frame) :
    (s.setFrame k x).can = s.can := rfl

@[simp] theorem State.setFrame_pcs (s : State) (k : Fin 8) (x : Frame) :
    (s.setFrame k x).pcs = s.pcs := rfl

@[simp] theorem State.setFrame_scrubs (s : State) (k : Fin 8) (x : Frame) :
    (s.setFrame k x).scrubs = s.scrubs := rfl

@[simp] theorem State.setFrame_tests (s : State) (k : Fin 8) (x : Frame) :
    (s.setFrame k x).tests = s.tests := rfl

@[simp] theorem State.setFrame_watch (s : State) (k : Fin 8) (x : Frame) :
    (s.setFrame k x).watch = s.watch := rfl

@[simp] theorem State.setFrame_posts (s : State) (k : Fin 8) (x : Frame) :
    (s.setFrame k x).posts = s.posts := rfl

@[simp] theorem State.setFrame_posting (s : State) (k : Fin 8) (x : Frame) :
    (s.setFrame k x).posting = s.posting := rfl

@[simp] theorem State.setFrame_mail (s : State) (k : Fin 8) (x : Frame) :
    (s.setFrame k x).mail = s.mail := rfl

@[simp] theorem State.setFrame_dw (s : State) (k : Fin 8) (x : Frame) :
    (s.setFrame k x).dw = s.dw := rfl

@[simp] theorem State.setFrame_rings (s : State) (k : Fin 8) (x : Frame) :
    (s.setFrame k x).rings = s.rings := rfl

@[simp] theorem State.setFrame_host (s : State) (k : Fin 8) (x : Frame) :
    (s.setFrame k x).host = s.host := rfl

@[simp] theorem State.setFrame_clock (s : State) (k : Fin 8) (x : Frame) :
    (s.setFrame k x).clock = s.clock := rfl

@[simp] theorem State.setFrame_power (s : State) (k : Fin 8) (x : Frame) :
    (s.setFrame k x).power = s.power := rfl

@[simp] theorem State.setFrame_monitors (s : State) (k : Fin 8) (x : Frame) :
    (s.setFrame k x).monitors = s.monitors := rfl

@[simp] theorem State.setFrame_contexts (s : State) (k : Fin 8) (x : Frame) :
    (s.setFrame k x).contexts = s.contexts := rfl

@[simp] theorem State.setFrame_sentExp (s : State) (k : Fin 8) (x : Frame) :
    (s.setFrame k x).sentExp = s.sentExp := rfl

@[simp] theorem State.setFrame_tallyBlocks (s : State) (k : Fin 8) (x : Frame) :
    (s.setFrame k x).tallyBlocks = s.tallyBlocks := rfl

@[simp] theorem State.setFrame_rolls (s : State) (k : Fin 8) (x : Frame) :
    (s.setFrame k x).rolls = s.rolls := rfl

@[simp] theorem State.setFrame_buckets (s : State) (k : Fin 8) (x : Frame) :
    (s.setFrame k x).buckets = s.buckets := rfl

@[simp] theorem State.setFrame_returns (s : State) (k : Fin 8) (x : Frame) :
    (s.setFrame k x).returns = s.returns := rfl

@[simp] theorem State.setFrame_landings (s : State) (k : Fin 8) (x : Frame) :
    (s.setFrame k x).landings = s.landings := rfl

@[simp] theorem State.setFrame_moves (s : State) (k : Fin 8) (x : Frame) :
    (s.setFrame k x).moves = s.moves := rfl

@[simp] theorem State.setFrame_closes (s : State) (k : Fin 8) (x : Frame) :
    (s.setFrame k x).closes = s.closes := rfl

@[simp] theorem State.setFrame_links (s : State) (k : Fin 8) (x : Frame) :
    (s.setFrame k x).links = s.links := rfl

@[simp] theorem State.setFrame_snaps (s : State) (k : Fin 8) (x : Frame) :
    (s.setFrame k x).snaps = s.snaps := rfl

@[simp] theorem State.setFrame_rests (s : State) (k : Fin 8) (x : Frame) :
    (s.setFrame k x).rests = s.rests := rfl

@[simp] theorem State.setFrame_flash (s : State) (k : Fin 8) (x : Frame) :
    (s.setFrame k x).flash = s.flash := rfl

@[simp] theorem State.setFrame_sup (s : State) (k : Fin 8) (x : Frame) :
    (s.setFrame k x).sup = s.sup := rfl

@[simp] theorem State.setFrame_jtag (s : State) (k : Fin 8) (x : Frame) :
    (s.setFrame k x).jtag = s.jtag := rfl

@[simp] theorem State.setFrame_log (s : State) (k : Fin 8) (x : Frame) :
    (s.setFrame k x).log = s.log := rfl

@[simp] theorem State.setFrame_out (s : State) (k : Fin 8) (x : Frame) :
    (s.setFrame k x).out = s.out := rfl

@[simp] theorem State.modFrame_pending (s : State) (k : Fin 8) (g : Frame → Frame) :
    (s.modFrame k g).pending = s.pending := rfl

@[simp] theorem State.modFrame_supCycles (s : State) (k : Fin 8) (g : Frame → Frame) :
    (s.modFrame k g).supCycles = s.supCycles := rfl

@[simp] theorem State.modFrame_freeCtr (s : State) (k : Fin 8) (g : Frame → Frame) :
    (s.modFrame k g).freeCtr = s.freeCtr := rfl

@[simp] theorem State.modFrame_mem (s : State) (k : Fin 8) (g : Frame → Frame) :
    (s.modFrame k g).mem = s.mem := rfl

@[simp] theorem State.modFrame_stat (s : State) (k : Fin 8) (g : Frame → Frame) :
    (s.modFrame k g).stat = s.stat := rfl

@[simp] theorem State.modFrame_errs (s : State) (k : Fin 8) (g : Frame → Frame) :
    (s.modFrame k g).errs = s.errs := rfl

@[simp] theorem State.modFrame_statErrs (s : State) (k : Fin 8) (g : Frame → Frame) :
    (s.modFrame k g).statErrs = s.statErrs := rfl

@[simp] theorem State.modFrame_od (s : State) (k : Fin 8) (g : Frame → Frame) :
    (s.modFrame k g).od = s.od := rfl

@[simp] theorem State.modFrame_tables (s : State) (k : Fin 8) (g : Frame → Frame) :
    (s.modFrame k g).tables = s.tables := rfl

@[simp] theorem State.modFrame_grid (s : State) (k : Fin 8) (g : Frame → Frame) :
    (s.modFrame k g).grid = s.grid := rfl

@[simp] theorem State.modFrame_tiles (s : State) (k : Fin 8) (g : Frame → Frame) :
    (s.modFrame k g).tiles = s.tiles := rfl

@[simp] theorem State.modFrame_stall (s : State) (k : Fin 8) (g : Frame → Frame) :
    (s.modFrame k g).stall = s.stall := rfl

@[simp] theorem State.modFrame_undefinedGroups (s : State) (k : Fin 8) (g : Frame → Frame) :
    (s.modFrame k g).undefinedGroups = s.undefinedGroups := rfl

@[simp] theorem State.modFrame_rewritten (s : State) (k : Fin 8) (g : Frame → Frame) :
    (s.modFrame k g).rewritten = s.rewritten := rfl

@[simp] theorem State.modFrame_queue (s : State) (k : Fin 8) (g : Frame → Frame) :
    (s.modFrame k g).queue = s.queue := rfl

@[simp] theorem State.modFrame_queueFresh (s : State) (k : Fin 8) (g : Frame → Frame) :
    (s.modFrame k g).queueFresh = s.queueFresh := rfl

@[simp] theorem State.modFrame_sessions (s : State) (k : Fin 8) (g : Frame → Frame) :
    (s.modFrame k g).sessions = s.sessions := rfl

@[simp] theorem State.modFrame_storing (s : State) (k : Fin 8) (g : Frame → Frame) :
    (s.modFrame k g).storing = s.storing := rfl

@[simp] theorem State.modFrame_can (s : State) (k : Fin 8) (g : Frame → Frame) :
    (s.modFrame k g).can = s.can := rfl

@[simp] theorem State.modFrame_pcs (s : State) (k : Fin 8) (g : Frame → Frame) :
    (s.modFrame k g).pcs = s.pcs := rfl

@[simp] theorem State.modFrame_scrubs (s : State) (k : Fin 8) (g : Frame → Frame) :
    (s.modFrame k g).scrubs = s.scrubs := rfl

@[simp] theorem State.modFrame_tests (s : State) (k : Fin 8) (g : Frame → Frame) :
    (s.modFrame k g).tests = s.tests := rfl

@[simp] theorem State.modFrame_watch (s : State) (k : Fin 8) (g : Frame → Frame) :
    (s.modFrame k g).watch = s.watch := rfl

@[simp] theorem State.modFrame_posts (s : State) (k : Fin 8) (g : Frame → Frame) :
    (s.modFrame k g).posts = s.posts := rfl

@[simp] theorem State.modFrame_posting (s : State) (k : Fin 8) (g : Frame → Frame) :
    (s.modFrame k g).posting = s.posting := rfl

@[simp] theorem State.modFrame_mail (s : State) (k : Fin 8) (g : Frame → Frame) :
    (s.modFrame k g).mail = s.mail := rfl

@[simp] theorem State.modFrame_dw (s : State) (k : Fin 8) (g : Frame → Frame) :
    (s.modFrame k g).dw = s.dw := rfl

@[simp] theorem State.modFrame_rings (s : State) (k : Fin 8) (g : Frame → Frame) :
    (s.modFrame k g).rings = s.rings := rfl

@[simp] theorem State.modFrame_host (s : State) (k : Fin 8) (g : Frame → Frame) :
    (s.modFrame k g).host = s.host := rfl

@[simp] theorem State.modFrame_clock (s : State) (k : Fin 8) (g : Frame → Frame) :
    (s.modFrame k g).clock = s.clock := rfl

@[simp] theorem State.modFrame_power (s : State) (k : Fin 8) (g : Frame → Frame) :
    (s.modFrame k g).power = s.power := rfl

@[simp] theorem State.modFrame_monitors (s : State) (k : Fin 8) (g : Frame → Frame) :
    (s.modFrame k g).monitors = s.monitors := rfl

@[simp] theorem State.modFrame_contexts (s : State) (k : Fin 8) (g : Frame → Frame) :
    (s.modFrame k g).contexts = s.contexts := rfl

@[simp] theorem State.modFrame_sentExp (s : State) (k : Fin 8) (g : Frame → Frame) :
    (s.modFrame k g).sentExp = s.sentExp := rfl

@[simp] theorem State.modFrame_tallyBlocks (s : State) (k : Fin 8) (g : Frame → Frame) :
    (s.modFrame k g).tallyBlocks = s.tallyBlocks := rfl

@[simp] theorem State.modFrame_rolls (s : State) (k : Fin 8) (g : Frame → Frame) :
    (s.modFrame k g).rolls = s.rolls := rfl

@[simp] theorem State.modFrame_buckets (s : State) (k : Fin 8) (g : Frame → Frame) :
    (s.modFrame k g).buckets = s.buckets := rfl

@[simp] theorem State.modFrame_returns (s : State) (k : Fin 8) (g : Frame → Frame) :
    (s.modFrame k g).returns = s.returns := rfl

@[simp] theorem State.modFrame_landings (s : State) (k : Fin 8) (g : Frame → Frame) :
    (s.modFrame k g).landings = s.landings := rfl

@[simp] theorem State.modFrame_moves (s : State) (k : Fin 8) (g : Frame → Frame) :
    (s.modFrame k g).moves = s.moves := rfl

@[simp] theorem State.modFrame_closes (s : State) (k : Fin 8) (g : Frame → Frame) :
    (s.modFrame k g).closes = s.closes := rfl

@[simp] theorem State.modFrame_links (s : State) (k : Fin 8) (g : Frame → Frame) :
    (s.modFrame k g).links = s.links := rfl

@[simp] theorem State.modFrame_snaps (s : State) (k : Fin 8) (g : Frame → Frame) :
    (s.modFrame k g).snaps = s.snaps := rfl

@[simp] theorem State.modFrame_rests (s : State) (k : Fin 8) (g : Frame → Frame) :
    (s.modFrame k g).rests = s.rests := rfl

@[simp] theorem State.modFrame_flash (s : State) (k : Fin 8) (g : Frame → Frame) :
    (s.modFrame k g).flash = s.flash := rfl

@[simp] theorem State.modFrame_sup (s : State) (k : Fin 8) (g : Frame → Frame) :
    (s.modFrame k g).sup = s.sup := rfl

@[simp] theorem State.modFrame_jtag (s : State) (k : Fin 8) (g : Frame → Frame) :
    (s.modFrame k g).jtag = s.jtag := rfl

@[simp] theorem State.modFrame_log (s : State) (k : Fin 8) (g : Frame → Frame) :
    (s.modFrame k g).log = s.log := rfl

@[simp] theorem State.modFrame_out (s : State) (k : Fin 8) (g : Frame → Frame) :
    (s.modFrame k g).out = s.out := rfl

/-! ### What leaves the block, events and conditions -/

@[simp] theorem State.emit_pending (s : State) (o : Out) :
    (s.emit o).pending = s.pending := rfl

@[simp] theorem State.emit_supCycles (s : State) (o : Out) :
    (s.emit o).supCycles = s.supCycles := rfl

@[simp] theorem State.emit_freeCtr (s : State) (o : Out) :
    (s.emit o).freeCtr = s.freeCtr := rfl

@[simp] theorem State.emit_mem (s : State) (o : Out) :
    (s.emit o).mem = s.mem := rfl

@[simp] theorem State.emit_stat (s : State) (o : Out) :
    (s.emit o).stat = s.stat := rfl

@[simp] theorem State.emit_errs (s : State) (o : Out) :
    (s.emit o).errs = s.errs := rfl

@[simp] theorem State.emit_statErrs (s : State) (o : Out) :
    (s.emit o).statErrs = s.statErrs := rfl

@[simp] theorem State.emit_od (s : State) (o : Out) :
    (s.emit o).od = s.od := rfl

@[simp] theorem State.emit_tables (s : State) (o : Out) :
    (s.emit o).tables = s.tables := rfl

@[simp] theorem State.emit_grid (s : State) (o : Out) :
    (s.emit o).grid = s.grid := rfl

@[simp] theorem State.emit_frames (s : State) (o : Out) :
    (s.emit o).frames = s.frames := rfl

@[simp] theorem State.emit_tiles (s : State) (o : Out) :
    (s.emit o).tiles = s.tiles := rfl

@[simp] theorem State.emit_stall (s : State) (o : Out) :
    (s.emit o).stall = s.stall := rfl

@[simp] theorem State.emit_undefinedGroups (s : State) (o : Out) :
    (s.emit o).undefinedGroups = s.undefinedGroups := rfl

@[simp] theorem State.emit_rewritten (s : State) (o : Out) :
    (s.emit o).rewritten = s.rewritten := rfl

@[simp] theorem State.emit_queue (s : State) (o : Out) :
    (s.emit o).queue = s.queue := rfl

@[simp] theorem State.emit_queueFresh (s : State) (o : Out) :
    (s.emit o).queueFresh = s.queueFresh := rfl

@[simp] theorem State.emit_sessions (s : State) (o : Out) :
    (s.emit o).sessions = s.sessions := rfl

@[simp] theorem State.emit_storing (s : State) (o : Out) :
    (s.emit o).storing = s.storing := rfl

@[simp] theorem State.emit_can (s : State) (o : Out) :
    (s.emit o).can = s.can := rfl

@[simp] theorem State.emit_pcs (s : State) (o : Out) :
    (s.emit o).pcs = s.pcs := rfl

@[simp] theorem State.emit_scrubs (s : State) (o : Out) :
    (s.emit o).scrubs = s.scrubs := rfl

@[simp] theorem State.emit_tests (s : State) (o : Out) :
    (s.emit o).tests = s.tests := rfl

@[simp] theorem State.emit_watch (s : State) (o : Out) :
    (s.emit o).watch = s.watch := rfl

@[simp] theorem State.emit_posts (s : State) (o : Out) :
    (s.emit o).posts = s.posts := rfl

@[simp] theorem State.emit_posting (s : State) (o : Out) :
    (s.emit o).posting = s.posting := rfl

@[simp] theorem State.emit_mail (s : State) (o : Out) :
    (s.emit o).mail = s.mail := rfl

@[simp] theorem State.emit_dw (s : State) (o : Out) :
    (s.emit o).dw = s.dw := rfl

@[simp] theorem State.emit_rings (s : State) (o : Out) :
    (s.emit o).rings = s.rings := rfl

@[simp] theorem State.emit_host (s : State) (o : Out) :
    (s.emit o).host = s.host := rfl

@[simp] theorem State.emit_clock (s : State) (o : Out) :
    (s.emit o).clock = s.clock := rfl

@[simp] theorem State.emit_power (s : State) (o : Out) :
    (s.emit o).power = s.power := rfl

@[simp] theorem State.emit_monitors (s : State) (o : Out) :
    (s.emit o).monitors = s.monitors := rfl

@[simp] theorem State.emit_contexts (s : State) (o : Out) :
    (s.emit o).contexts = s.contexts := rfl

@[simp] theorem State.emit_sentExp (s : State) (o : Out) :
    (s.emit o).sentExp = s.sentExp := rfl

@[simp] theorem State.emit_tallyBlocks (s : State) (o : Out) :
    (s.emit o).tallyBlocks = s.tallyBlocks := rfl

@[simp] theorem State.emit_rolls (s : State) (o : Out) :
    (s.emit o).rolls = s.rolls := rfl

@[simp] theorem State.emit_buckets (s : State) (o : Out) :
    (s.emit o).buckets = s.buckets := rfl

@[simp] theorem State.emit_returns (s : State) (o : Out) :
    (s.emit o).returns = s.returns := rfl

@[simp] theorem State.emit_landings (s : State) (o : Out) :
    (s.emit o).landings = s.landings := rfl

@[simp] theorem State.emit_moves (s : State) (o : Out) :
    (s.emit o).moves = s.moves := rfl

@[simp] theorem State.emit_closes (s : State) (o : Out) :
    (s.emit o).closes = s.closes := rfl

@[simp] theorem State.emit_links (s : State) (o : Out) :
    (s.emit o).links = s.links := rfl

@[simp] theorem State.emit_snaps (s : State) (o : Out) :
    (s.emit o).snaps = s.snaps := rfl

@[simp] theorem State.emit_rests (s : State) (o : Out) :
    (s.emit o).rests = s.rests := rfl

@[simp] theorem State.emit_flash (s : State) (o : Out) :
    (s.emit o).flash = s.flash := rfl

@[simp] theorem State.emit_sup (s : State) (o : Out) :
    (s.emit o).sup = s.sup := rfl

@[simp] theorem State.emit_jtag (s : State) (o : Out) :
    (s.emit o).jtag = s.jtag := rfl

@[simp] theorem State.emit_log (s : State) (o : Out) :
    (s.emit o).log = s.log := rfl

@[simp] theorem State.raise_pending (s : State) (v : Nat) :
    (s.raise v).pending = s.pending := by
  unfold State.raise; split <;> rfl

@[simp] theorem State.raise_supCycles (s : State) (v : Nat) :
    (s.raise v).supCycles = s.supCycles := by
  unfold State.raise; split <;> rfl

@[simp] theorem State.raise_freeCtr (s : State) (v : Nat) :
    (s.raise v).freeCtr = s.freeCtr := by
  unfold State.raise; split <;> rfl

@[simp] theorem State.raise_mem (s : State) (v : Nat) :
    (s.raise v).mem = s.mem := by
  unfold State.raise; split <;> rfl

@[simp] theorem State.raise_stat (s : State) (v : Nat) :
    (s.raise v).stat = s.stat := by
  unfold State.raise; split <;> rfl

@[simp] theorem State.raise_errs (s : State) (v : Nat) :
    (s.raise v).errs = s.errs := by
  unfold State.raise; split <;> rfl

@[simp] theorem State.raise_statErrs (s : State) (v : Nat) :
    (s.raise v).statErrs = s.statErrs := by
  unfold State.raise; split <;> rfl

@[simp] theorem State.raise_od (s : State) (v : Nat) :
    (s.raise v).od = s.od := by
  unfold State.raise; split <;> rfl

@[simp] theorem State.raise_tables (s : State) (v : Nat) :
    (s.raise v).tables = s.tables := by
  unfold State.raise; split <;> rfl

@[simp] theorem State.raise_grid (s : State) (v : Nat) :
    (s.raise v).grid = s.grid := by
  unfold State.raise; split <;> rfl

@[simp] theorem State.raise_frames (s : State) (v : Nat) :
    (s.raise v).frames = s.frames := by
  unfold State.raise; split <;> rfl

@[simp] theorem State.raise_tiles (s : State) (v : Nat) :
    (s.raise v).tiles = s.tiles := by
  unfold State.raise; split <;> rfl

@[simp] theorem State.raise_stall (s : State) (v : Nat) :
    (s.raise v).stall = s.stall := by
  unfold State.raise; split <;> rfl

@[simp] theorem State.raise_undefinedGroups (s : State) (v : Nat) :
    (s.raise v).undefinedGroups = s.undefinedGroups := by
  unfold State.raise; split <;> rfl

@[simp] theorem State.raise_rewritten (s : State) (v : Nat) :
    (s.raise v).rewritten = s.rewritten := by
  unfold State.raise; split <;> rfl

@[simp] theorem State.raise_queue (s : State) (v : Nat) :
    (s.raise v).queue = s.queue := by
  unfold State.raise; split <;> rfl

@[simp] theorem State.raise_queueFresh (s : State) (v : Nat) :
    (s.raise v).queueFresh = s.queueFresh := by
  unfold State.raise; split <;> rfl

@[simp] theorem State.raise_sessions (s : State) (v : Nat) :
    (s.raise v).sessions = s.sessions := by
  unfold State.raise; split <;> rfl

@[simp] theorem State.raise_storing (s : State) (v : Nat) :
    (s.raise v).storing = s.storing := by
  unfold State.raise; split <;> rfl

@[simp] theorem State.raise_can (s : State) (v : Nat) :
    (s.raise v).can = s.can := by
  unfold State.raise; split <;> rfl

@[simp] theorem State.raise_pcs (s : State) (v : Nat) :
    (s.raise v).pcs = s.pcs := by
  unfold State.raise; split <;> rfl

@[simp] theorem State.raise_scrubs (s : State) (v : Nat) :
    (s.raise v).scrubs = s.scrubs := by
  unfold State.raise; split <;> rfl

@[simp] theorem State.raise_tests (s : State) (v : Nat) :
    (s.raise v).tests = s.tests := by
  unfold State.raise; split <;> rfl

@[simp] theorem State.raise_watch (s : State) (v : Nat) :
    (s.raise v).watch = s.watch := by
  unfold State.raise; split <;> rfl

@[simp] theorem State.raise_posts (s : State) (v : Nat) :
    (s.raise v).posts = s.posts := by
  unfold State.raise; split <;> rfl

@[simp] theorem State.raise_posting (s : State) (v : Nat) :
    (s.raise v).posting = s.posting := by
  unfold State.raise; split <;> rfl

@[simp] theorem State.raise_mail (s : State) (v : Nat) :
    (s.raise v).mail = s.mail := by
  unfold State.raise; split <;> rfl

@[simp] theorem State.raise_dw (s : State) (v : Nat) :
    (s.raise v).dw = s.dw := by
  unfold State.raise; split <;> rfl

@[simp] theorem State.raise_rings (s : State) (v : Nat) :
    (s.raise v).rings = s.rings := by
  unfold State.raise; split <;> rfl

@[simp] theorem State.raise_clock (s : State) (v : Nat) :
    (s.raise v).clock = s.clock := by
  unfold State.raise; split <;> rfl

@[simp] theorem State.raise_power (s : State) (v : Nat) :
    (s.raise v).power = s.power := by
  unfold State.raise; split <;> rfl

@[simp] theorem State.raise_monitors (s : State) (v : Nat) :
    (s.raise v).monitors = s.monitors := by
  unfold State.raise; split <;> rfl

@[simp] theorem State.raise_contexts (s : State) (v : Nat) :
    (s.raise v).contexts = s.contexts := by
  unfold State.raise; split <;> rfl

@[simp] theorem State.raise_sentExp (s : State) (v : Nat) :
    (s.raise v).sentExp = s.sentExp := by
  unfold State.raise; split <;> rfl

@[simp] theorem State.raise_tallyBlocks (s : State) (v : Nat) :
    (s.raise v).tallyBlocks = s.tallyBlocks := by
  unfold State.raise; split <;> rfl

@[simp] theorem State.raise_rolls (s : State) (v : Nat) :
    (s.raise v).rolls = s.rolls := by
  unfold State.raise; split <;> rfl

@[simp] theorem State.raise_buckets (s : State) (v : Nat) :
    (s.raise v).buckets = s.buckets := by
  unfold State.raise; split <;> rfl

@[simp] theorem State.raise_returns (s : State) (v : Nat) :
    (s.raise v).returns = s.returns := by
  unfold State.raise; split <;> rfl

@[simp] theorem State.raise_landings (s : State) (v : Nat) :
    (s.raise v).landings = s.landings := by
  unfold State.raise; split <;> rfl

@[simp] theorem State.raise_moves (s : State) (v : Nat) :
    (s.raise v).moves = s.moves := by
  unfold State.raise; split <;> rfl

@[simp] theorem State.raise_closes (s : State) (v : Nat) :
    (s.raise v).closes = s.closes := by
  unfold State.raise; split <;> rfl

@[simp] theorem State.raise_links (s : State) (v : Nat) :
    (s.raise v).links = s.links := by
  unfold State.raise; split <;> rfl

@[simp] theorem State.raise_snaps (s : State) (v : Nat) :
    (s.raise v).snaps = s.snaps := by
  unfold State.raise; split <;> rfl

@[simp] theorem State.raise_rests (s : State) (v : Nat) :
    (s.raise v).rests = s.rests := by
  unfold State.raise; split <;> rfl

@[simp] theorem State.raise_flash (s : State) (v : Nat) :
    (s.raise v).flash = s.flash := by
  unfold State.raise; split <;> rfl

@[simp] theorem State.raise_sup (s : State) (v : Nat) :
    (s.raise v).sup = s.sup := by
  unfold State.raise; split <;> rfl

@[simp] theorem State.raise_jtag (s : State) (v : Nat) :
    (s.raise v).jtag = s.jtag := by
  unfold State.raise; split <;> rfl

@[simp] theorem State.raise_log (s : State) (v : Nat) :
    (s.raise v).log = s.log := by
  unfold State.raise; split <;> rfl

@[simp] theorem State.queueEmcy_pending (s : State) (e : Emcy) :
    (s.queueEmcy e).pending = s.pending := by
  unfold State.queueEmcy; split <;> (try split) <;> rfl

@[simp] theorem State.queueEmcy_supCycles (s : State) (e : Emcy) :
    (s.queueEmcy e).supCycles = s.supCycles := by
  unfold State.queueEmcy; split <;> (try split) <;> rfl

@[simp] theorem State.queueEmcy_freeCtr (s : State) (e : Emcy) :
    (s.queueEmcy e).freeCtr = s.freeCtr := by
  unfold State.queueEmcy; split <;> (try split) <;> rfl

@[simp] theorem State.queueEmcy_mem (s : State) (e : Emcy) :
    (s.queueEmcy e).mem = s.mem := by
  unfold State.queueEmcy; split <;> (try split) <;> rfl

@[simp] theorem State.queueEmcy_stat (s : State) (e : Emcy) :
    (s.queueEmcy e).stat = s.stat := by
  unfold State.queueEmcy; split <;> (try split) <;> rfl

@[simp] theorem State.queueEmcy_errs (s : State) (e : Emcy) :
    (s.queueEmcy e).errs = s.errs := by
  unfold State.queueEmcy; split <;> (try split) <;> rfl

@[simp] theorem State.queueEmcy_statErrs (s : State) (e : Emcy) :
    (s.queueEmcy e).statErrs = s.statErrs := by
  unfold State.queueEmcy; split <;> (try split) <;> rfl

@[simp] theorem State.queueEmcy_tables (s : State) (e : Emcy) :
    (s.queueEmcy e).tables = s.tables := by
  unfold State.queueEmcy; split <;> (try split) <;> rfl

@[simp] theorem State.queueEmcy_grid (s : State) (e : Emcy) :
    (s.queueEmcy e).grid = s.grid := by
  unfold State.queueEmcy; split <;> (try split) <;> rfl

@[simp] theorem State.queueEmcy_frames (s : State) (e : Emcy) :
    (s.queueEmcy e).frames = s.frames := by
  unfold State.queueEmcy; split <;> (try split) <;> rfl

@[simp] theorem State.queueEmcy_tiles (s : State) (e : Emcy) :
    (s.queueEmcy e).tiles = s.tiles := by
  unfold State.queueEmcy; split <;> (try split) <;> rfl

@[simp] theorem State.queueEmcy_stall (s : State) (e : Emcy) :
    (s.queueEmcy e).stall = s.stall := by
  unfold State.queueEmcy; split <;> (try split) <;> rfl

@[simp] theorem State.queueEmcy_undefinedGroups (s : State) (e : Emcy) :
    (s.queueEmcy e).undefinedGroups = s.undefinedGroups := by
  unfold State.queueEmcy; split <;> (try split) <;> rfl

@[simp] theorem State.queueEmcy_rewritten (s : State) (e : Emcy) :
    (s.queueEmcy e).rewritten = s.rewritten := by
  unfold State.queueEmcy; split <;> (try split) <;> rfl

@[simp] theorem State.queueEmcy_queue (s : State) (e : Emcy) :
    (s.queueEmcy e).queue = s.queue := by
  unfold State.queueEmcy; split <;> (try split) <;> rfl

@[simp] theorem State.queueEmcy_queueFresh (s : State) (e : Emcy) :
    (s.queueEmcy e).queueFresh = s.queueFresh := by
  unfold State.queueEmcy; split <;> (try split) <;> rfl

@[simp] theorem State.queueEmcy_sessions (s : State) (e : Emcy) :
    (s.queueEmcy e).sessions = s.sessions := by
  unfold State.queueEmcy; split <;> (try split) <;> rfl

@[simp] theorem State.queueEmcy_storing (s : State) (e : Emcy) :
    (s.queueEmcy e).storing = s.storing := by
  unfold State.queueEmcy; split <;> (try split) <;> rfl

@[simp] theorem State.queueEmcy_pcs (s : State) (e : Emcy) :
    (s.queueEmcy e).pcs = s.pcs := by
  unfold State.queueEmcy; split <;> (try split) <;> rfl

@[simp] theorem State.queueEmcy_scrubs (s : State) (e : Emcy) :
    (s.queueEmcy e).scrubs = s.scrubs := by
  unfold State.queueEmcy; split <;> (try split) <;> rfl

@[simp] theorem State.queueEmcy_tests (s : State) (e : Emcy) :
    (s.queueEmcy e).tests = s.tests := by
  unfold State.queueEmcy; split <;> (try split) <;> rfl

@[simp] theorem State.queueEmcy_watch (s : State) (e : Emcy) :
    (s.queueEmcy e).watch = s.watch := by
  unfold State.queueEmcy; split <;> (try split) <;> rfl

@[simp] theorem State.queueEmcy_posts (s : State) (e : Emcy) :
    (s.queueEmcy e).posts = s.posts := by
  unfold State.queueEmcy; split <;> (try split) <;> rfl

@[simp] theorem State.queueEmcy_posting (s : State) (e : Emcy) :
    (s.queueEmcy e).posting = s.posting := by
  unfold State.queueEmcy; split <;> (try split) <;> rfl

@[simp] theorem State.queueEmcy_mail (s : State) (e : Emcy) :
    (s.queueEmcy e).mail = s.mail := by
  unfold State.queueEmcy; split <;> (try split) <;> rfl

@[simp] theorem State.queueEmcy_dw (s : State) (e : Emcy) :
    (s.queueEmcy e).dw = s.dw := by
  unfold State.queueEmcy; split <;> (try split) <;> rfl

@[simp] theorem State.queueEmcy_rings (s : State) (e : Emcy) :
    (s.queueEmcy e).rings = s.rings := by
  unfold State.queueEmcy; split <;> (try split) <;> rfl

@[simp] theorem State.queueEmcy_host (s : State) (e : Emcy) :
    (s.queueEmcy e).host = s.host := by
  unfold State.queueEmcy; split <;> (try split) <;> rfl

@[simp] theorem State.queueEmcy_clock (s : State) (e : Emcy) :
    (s.queueEmcy e).clock = s.clock := by
  unfold State.queueEmcy; split <;> (try split) <;> rfl

@[simp] theorem State.queueEmcy_power (s : State) (e : Emcy) :
    (s.queueEmcy e).power = s.power := by
  unfold State.queueEmcy; split <;> (try split) <;> rfl

@[simp] theorem State.queueEmcy_monitors (s : State) (e : Emcy) :
    (s.queueEmcy e).monitors = s.monitors := by
  unfold State.queueEmcy; split <;> (try split) <;> rfl

@[simp] theorem State.queueEmcy_contexts (s : State) (e : Emcy) :
    (s.queueEmcy e).contexts = s.contexts := by
  unfold State.queueEmcy; split <;> (try split) <;> rfl

@[simp] theorem State.queueEmcy_sentExp (s : State) (e : Emcy) :
    (s.queueEmcy e).sentExp = s.sentExp := by
  unfold State.queueEmcy; split <;> (try split) <;> rfl

@[simp] theorem State.queueEmcy_tallyBlocks (s : State) (e : Emcy) :
    (s.queueEmcy e).tallyBlocks = s.tallyBlocks := by
  unfold State.queueEmcy; split <;> (try split) <;> rfl

@[simp] theorem State.queueEmcy_rolls (s : State) (e : Emcy) :
    (s.queueEmcy e).rolls = s.rolls := by
  unfold State.queueEmcy; split <;> (try split) <;> rfl

@[simp] theorem State.queueEmcy_buckets (s : State) (e : Emcy) :
    (s.queueEmcy e).buckets = s.buckets := by
  unfold State.queueEmcy; split <;> (try split) <;> rfl

@[simp] theorem State.queueEmcy_returns (s : State) (e : Emcy) :
    (s.queueEmcy e).returns = s.returns := by
  unfold State.queueEmcy; split <;> (try split) <;> rfl

@[simp] theorem State.queueEmcy_landings (s : State) (e : Emcy) :
    (s.queueEmcy e).landings = s.landings := by
  unfold State.queueEmcy; split <;> (try split) <;> rfl

@[simp] theorem State.queueEmcy_moves (s : State) (e : Emcy) :
    (s.queueEmcy e).moves = s.moves := by
  unfold State.queueEmcy; split <;> (try split) <;> rfl

@[simp] theorem State.queueEmcy_closes (s : State) (e : Emcy) :
    (s.queueEmcy e).closes = s.closes := by
  unfold State.queueEmcy; split <;> (try split) <;> rfl

@[simp] theorem State.queueEmcy_links (s : State) (e : Emcy) :
    (s.queueEmcy e).links = s.links := by
  unfold State.queueEmcy; split <;> (try split) <;> rfl

@[simp] theorem State.queueEmcy_snaps (s : State) (e : Emcy) :
    (s.queueEmcy e).snaps = s.snaps := by
  unfold State.queueEmcy; split <;> (try split) <;> rfl

@[simp] theorem State.queueEmcy_rests (s : State) (e : Emcy) :
    (s.queueEmcy e).rests = s.rests := by
  unfold State.queueEmcy; split <;> (try split) <;> rfl

@[simp] theorem State.queueEmcy_flash (s : State) (e : Emcy) :
    (s.queueEmcy e).flash = s.flash := by
  unfold State.queueEmcy; split <;> (try split) <;> rfl

@[simp] theorem State.queueEmcy_sup (s : State) (e : Emcy) :
    (s.queueEmcy e).sup = s.sup := by
  unfold State.queueEmcy; split <;> (try split) <;> rfl

@[simp] theorem State.queueEmcy_jtag (s : State) (e : Emcy) :
    (s.queueEmcy e).jtag = s.jtag := by
  unfold State.queueEmcy; split <;> (try split) <;> rfl

@[simp] theorem State.queueEmcy_log (s : State) (e : Emcy) :
    (s.queueEmcy e).log = s.log := by
  unfold State.queueEmcy; split <;> (try split) <;> rfl

@[simp] theorem State.queueEmcy_out (s : State) (e : Emcy) :
    (s.queueEmcy e).out = s.out := by
  unfold State.queueEmcy; split <;> (try split) <;> rfl

@[simp] theorem State.setSummary_pending (s : State) (code : Nat) :
    (s.setSummary code).pending = s.pending := by
  unfold State.setSummary; split <;> (try split) <;> simp

@[simp] theorem State.setSummary_supCycles (s : State) (code : Nat) :
    (s.setSummary code).supCycles = s.supCycles := by
  unfold State.setSummary; split <;> (try split) <;> simp

@[simp] theorem State.setSummary_freeCtr (s : State) (code : Nat) :
    (s.setSummary code).freeCtr = s.freeCtr := by
  unfold State.setSummary; split <;> (try split) <;> simp

@[simp] theorem State.setSummary_mem (s : State) (code : Nat) :
    (s.setSummary code).mem = s.mem := by
  unfold State.setSummary; split <;> (try split) <;> simp

@[simp] theorem State.setSummary_stat (s : State) (code : Nat) :
    (s.setSummary code).stat = s.stat := by
  unfold State.setSummary; split <;> (try split) <;> simp

@[simp] theorem State.setSummary_errs (s : State) (code : Nat) :
    (s.setSummary code).errs = s.errs := by
  unfold State.setSummary; split <;> (try split) <;> simp

@[simp] theorem State.setSummary_statErrs (s : State) (code : Nat) :
    (s.setSummary code).statErrs = s.statErrs := by
  unfold State.setSummary; split <;> (try split) <;> simp

@[simp] theorem State.setSummary_od (s : State) (code : Nat) :
    (s.setSummary code).od = s.od := by
  unfold State.setSummary; split <;> (try split) <;> simp

@[simp] theorem State.setSummary_tables (s : State) (code : Nat) :
    (s.setSummary code).tables = s.tables := by
  unfold State.setSummary; split <;> (try split) <;> simp

@[simp] theorem State.setSummary_grid (s : State) (code : Nat) :
    (s.setSummary code).grid = s.grid := by
  unfold State.setSummary; split <;> (try split) <;> simp

@[simp] theorem State.setSummary_frames (s : State) (code : Nat) :
    (s.setSummary code).frames = s.frames := by
  unfold State.setSummary; split <;> (try split) <;> simp

@[simp] theorem State.setSummary_tiles (s : State) (code : Nat) :
    (s.setSummary code).tiles = s.tiles := by
  unfold State.setSummary; split <;> (try split) <;> simp

@[simp] theorem State.setSummary_stall (s : State) (code : Nat) :
    (s.setSummary code).stall = s.stall := by
  unfold State.setSummary; split <;> (try split) <;> simp

@[simp] theorem State.setSummary_undefinedGroups (s : State) (code : Nat) :
    (s.setSummary code).undefinedGroups = s.undefinedGroups := by
  unfold State.setSummary; split <;> (try split) <;> simp

@[simp] theorem State.setSummary_rewritten (s : State) (code : Nat) :
    (s.setSummary code).rewritten = s.rewritten := by
  unfold State.setSummary; split <;> (try split) <;> simp

@[simp] theorem State.setSummary_queue (s : State) (code : Nat) :
    (s.setSummary code).queue = s.queue := by
  unfold State.setSummary; split <;> (try split) <;> simp

@[simp] theorem State.setSummary_queueFresh (s : State) (code : Nat) :
    (s.setSummary code).queueFresh = s.queueFresh := by
  unfold State.setSummary; split <;> (try split) <;> simp

@[simp] theorem State.setSummary_sessions (s : State) (code : Nat) :
    (s.setSummary code).sessions = s.sessions := by
  unfold State.setSummary; split <;> (try split) <;> simp

@[simp] theorem State.setSummary_storing (s : State) (code : Nat) :
    (s.setSummary code).storing = s.storing := by
  unfold State.setSummary; split <;> (try split) <;> simp

@[simp] theorem State.setSummary_can (s : State) (code : Nat) :
    (s.setSummary code).can = s.can := by
  unfold State.setSummary; split <;> (try split) <;> simp

@[simp] theorem State.setSummary_pcs (s : State) (code : Nat) :
    (s.setSummary code).pcs = s.pcs := by
  unfold State.setSummary; split <;> (try split) <;> simp

@[simp] theorem State.setSummary_scrubs (s : State) (code : Nat) :
    (s.setSummary code).scrubs = s.scrubs := by
  unfold State.setSummary; split <;> (try split) <;> simp

@[simp] theorem State.setSummary_tests (s : State) (code : Nat) :
    (s.setSummary code).tests = s.tests := by
  unfold State.setSummary; split <;> (try split) <;> simp

@[simp] theorem State.setSummary_watch (s : State) (code : Nat) :
    (s.setSummary code).watch = s.watch := by
  unfold State.setSummary; split <;> (try split) <;> simp

@[simp] theorem State.setSummary_posts (s : State) (code : Nat) :
    (s.setSummary code).posts = s.posts := by
  unfold State.setSummary; split <;> (try split) <;> simp

@[simp] theorem State.setSummary_posting (s : State) (code : Nat) :
    (s.setSummary code).posting = s.posting := by
  unfold State.setSummary; split <;> (try split) <;> simp

@[simp] theorem State.setSummary_mail (s : State) (code : Nat) :
    (s.setSummary code).mail = s.mail := by
  unfold State.setSummary; split <;> (try split) <;> simp

@[simp] theorem State.setSummary_dw (s : State) (code : Nat) :
    (s.setSummary code).dw = s.dw := by
  unfold State.setSummary; split <;> (try split) <;> simp

@[simp] theorem State.setSummary_rings (s : State) (code : Nat) :
    (s.setSummary code).rings = s.rings := by
  unfold State.setSummary; split <;> (try split) <;> simp

@[simp] theorem State.setSummary_clock (s : State) (code : Nat) :
    (s.setSummary code).clock = s.clock := by
  unfold State.setSummary; split <;> (try split) <;> simp

@[simp] theorem State.setSummary_power (s : State) (code : Nat) :
    (s.setSummary code).power = s.power := by
  unfold State.setSummary; split <;> (try split) <;> simp

@[simp] theorem State.setSummary_monitors (s : State) (code : Nat) :
    (s.setSummary code).monitors = s.monitors := by
  unfold State.setSummary; split <;> (try split) <;> simp

@[simp] theorem State.setSummary_contexts (s : State) (code : Nat) :
    (s.setSummary code).contexts = s.contexts := by
  unfold State.setSummary; split <;> (try split) <;> simp

@[simp] theorem State.setSummary_sentExp (s : State) (code : Nat) :
    (s.setSummary code).sentExp = s.sentExp := by
  unfold State.setSummary; split <;> (try split) <;> simp

@[simp] theorem State.setSummary_tallyBlocks (s : State) (code : Nat) :
    (s.setSummary code).tallyBlocks = s.tallyBlocks := by
  unfold State.setSummary; split <;> (try split) <;> simp

@[simp] theorem State.setSummary_rolls (s : State) (code : Nat) :
    (s.setSummary code).rolls = s.rolls := by
  unfold State.setSummary; split <;> (try split) <;> simp

@[simp] theorem State.setSummary_buckets (s : State) (code : Nat) :
    (s.setSummary code).buckets = s.buckets := by
  unfold State.setSummary; split <;> (try split) <;> simp

@[simp] theorem State.setSummary_returns (s : State) (code : Nat) :
    (s.setSummary code).returns = s.returns := by
  unfold State.setSummary; split <;> (try split) <;> simp

@[simp] theorem State.setSummary_landings (s : State) (code : Nat) :
    (s.setSummary code).landings = s.landings := by
  unfold State.setSummary; split <;> (try split) <;> simp

@[simp] theorem State.setSummary_moves (s : State) (code : Nat) :
    (s.setSummary code).moves = s.moves := by
  unfold State.setSummary; split <;> (try split) <;> simp

@[simp] theorem State.setSummary_closes (s : State) (code : Nat) :
    (s.setSummary code).closes = s.closes := by
  unfold State.setSummary; split <;> (try split) <;> simp

@[simp] theorem State.setSummary_links (s : State) (code : Nat) :
    (s.setSummary code).links = s.links := by
  unfold State.setSummary; split <;> (try split) <;> simp

@[simp] theorem State.setSummary_snaps (s : State) (code : Nat) :
    (s.setSummary code).snaps = s.snaps := by
  unfold State.setSummary; split <;> (try split) <;> simp

@[simp] theorem State.setSummary_rests (s : State) (code : Nat) :
    (s.setSummary code).rests = s.rests := by
  unfold State.setSummary; split <;> (try split) <;> simp

@[simp] theorem State.setSummary_flash (s : State) (code : Nat) :
    (s.setSummary code).flash = s.flash := by
  unfold State.setSummary; split <;> (try split) <;> simp

@[simp] theorem State.setSummary_sup (s : State) (code : Nat) :
    (s.setSummary code).sup = s.sup := by
  unfold State.setSummary; split <;> (try split) <;> simp

@[simp] theorem State.setSummary_jtag (s : State) (code : Nat) :
    (s.setSummary code).jtag = s.jtag := by
  unfold State.setSummary; split <;> (try split) <;> simp

@[simp] theorem State.setSummary_log (s : State) (code : Nat) :
    (s.setSummary code).log = s.log := by
  unfold State.setSummary; split <;> (try split) <;> simp

/-- Nothing changed but what logging an event changes: the dictionary, the node, the host's registers, what leaves,
memory and the log. -/
def Quiet (s u : State) : Prop :=
  { u with od := s.od, can := s.can, host := s.host, out := s.out, mem := s.mem, log := s.log } = s

theorem Quiet.eq {s u : State} (h : Quiet s u) :
    { u with od := s.od, can := s.can, host := s.host, out := s.out, mem := s.mem, log := s.log } = s := h

theorem Quiet.trans {a b c : State} (h : Quiet a b) (g : Quiet b c) : Quiet a c := by
  have e := congrArg (fun x : State =>
    { x with od := a.od, can := a.can, host := a.host, out := a.out, mem := a.mem, log := a.log }) g
  exact e.trans h

theorem State.raise_quiet (s : State) (v : Nat) : Quiet s (s.raise v) := by
  unfold State.raise; split <;> rfl

theorem State.queueEmcy_quiet (s : State) (e : Emcy) : Quiet s (s.queueEmcy e) := by
  unfold State.queueEmcy; split <;> (try split) <;> rfl

theorem State.setSummary_quiet (s : State) (c : Nat) : Quiet s (s.setSummary c) := by
  unfold State.setSummary
  split
  · rfl
  · split
    · rfl
    · exact Quiet.trans (by rfl) (State.raise_quiet ..)

theorem hostMem_quiet (s : State) (m : Mem) (h : HostIf) : Quiet s { s with mem := m, host := h } := rfl
theorem State.count64_quiet (s : State) (i sub : Nat) : Quiet s (s.count64 i sub) := rfl
theorem State.publishAt_quiet (s : State) (i source : Nat) (p : List Byte) : Quiet s (s.publishAt i source p) := by
  unfold State.publishAt
  exact Quiet.trans (Quiet.trans (hostMem_quiet ..) (State.count64_quiet ..)) (State.raise_quiet ..)

theorem State.publish_quiet (s : State) (source : Nat) (p : List Byte) : Quiet s (s.publish source p) := by
  unfold State.publish
  split
  · exact State.publishAt_quiet ..
  · rfl

theorem State.logWith_quiet (s : State) (e d c : Nat) : Quiet s (s.logWith e d c) := by
  unfold State.logWith
  extract_lets a b
  have ka : Quiet s a := by
    unfold a
    split <;> rfl
  have kb : Quiet s b := Quiet.trans ka (by rfl)
  split
  · exact kb
  · rename_i c d hn
    have kd : Quiet s d := Quiet.trans (Quiet.trans kb (by rfl))
      (Quiet.trans (State.queueEmcy_quiet ..) (State.setSummary_quiet ..))
    split
    · exact Quiet.trans kd (State.publish_quiet ..)
    · exact kd

theorem Quiet.pending {s u : State} (h : Quiet s u) : u.pending = s.pending := by
  have e := congrArg State.pending h.eq
  exact e

theorem Quiet.supCycles {s u : State} (h : Quiet s u) : u.supCycles = s.supCycles := by
  have e := congrArg State.supCycles h.eq
  exact e

theorem Quiet.freeCtr {s u : State} (h : Quiet s u) : u.freeCtr = s.freeCtr := by
  have e := congrArg State.freeCtr h.eq
  exact e

theorem Quiet.stat {s u : State} (h : Quiet s u) : u.stat = s.stat := by
  have e := congrArg State.stat h.eq
  exact e

theorem Quiet.errs {s u : State} (h : Quiet s u) : u.errs = s.errs := by
  have e := congrArg State.errs h.eq
  exact e

theorem Quiet.statErrs {s u : State} (h : Quiet s u) : u.statErrs = s.statErrs := by
  have e := congrArg State.statErrs h.eq
  exact e

theorem Quiet.tables {s u : State} (h : Quiet s u) : u.tables = s.tables := by
  have e := congrArg State.tables h.eq
  exact e

theorem Quiet.grid {s u : State} (h : Quiet s u) : u.grid = s.grid := by
  have e := congrArg State.grid h.eq
  exact e

theorem Quiet.frames {s u : State} (h : Quiet s u) : u.frames = s.frames := by
  have e := congrArg State.frames h.eq
  exact e

theorem Quiet.tiles {s u : State} (h : Quiet s u) : u.tiles = s.tiles := by
  have e := congrArg State.tiles h.eq
  exact e

theorem Quiet.stall {s u : State} (h : Quiet s u) : u.stall = s.stall := by
  have e := congrArg State.stall h.eq
  exact e

theorem Quiet.undefinedGroups {s u : State} (h : Quiet s u) : u.undefinedGroups = s.undefinedGroups := by
  have e := congrArg State.undefinedGroups h.eq
  exact e

theorem Quiet.rewritten {s u : State} (h : Quiet s u) : u.rewritten = s.rewritten := by
  have e := congrArg State.rewritten h.eq
  exact e

theorem Quiet.queue {s u : State} (h : Quiet s u) : u.queue = s.queue := by
  have e := congrArg State.queue h.eq
  exact e

theorem Quiet.queueFresh {s u : State} (h : Quiet s u) : u.queueFresh = s.queueFresh := by
  have e := congrArg State.queueFresh h.eq
  exact e

theorem Quiet.sessions {s u : State} (h : Quiet s u) : u.sessions = s.sessions := by
  have e := congrArg State.sessions h.eq
  exact e

theorem Quiet.storing {s u : State} (h : Quiet s u) : u.storing = s.storing := by
  have e := congrArg State.storing h.eq
  exact e

theorem Quiet.pcs {s u : State} (h : Quiet s u) : u.pcs = s.pcs := by
  have e := congrArg State.pcs h.eq
  exact e

theorem Quiet.scrubs {s u : State} (h : Quiet s u) : u.scrubs = s.scrubs := by
  have e := congrArg State.scrubs h.eq
  exact e

theorem Quiet.tests {s u : State} (h : Quiet s u) : u.tests = s.tests := by
  have e := congrArg State.tests h.eq
  exact e

theorem Quiet.watch {s u : State} (h : Quiet s u) : u.watch = s.watch := by
  have e := congrArg State.watch h.eq
  exact e

theorem Quiet.posts {s u : State} (h : Quiet s u) : u.posts = s.posts := by
  have e := congrArg State.posts h.eq
  exact e

theorem Quiet.posting {s u : State} (h : Quiet s u) : u.posting = s.posting := by
  have e := congrArg State.posting h.eq
  exact e

theorem Quiet.mail {s u : State} (h : Quiet s u) : u.mail = s.mail := by
  have e := congrArg State.mail h.eq
  exact e

theorem Quiet.dw {s u : State} (h : Quiet s u) : u.dw = s.dw := by
  have e := congrArg State.dw h.eq
  exact e

theorem Quiet.rings {s u : State} (h : Quiet s u) : u.rings = s.rings := by
  have e := congrArg State.rings h.eq
  exact e

theorem Quiet.clock {s u : State} (h : Quiet s u) : u.clock = s.clock := by
  have e := congrArg State.clock h.eq
  exact e

theorem Quiet.power {s u : State} (h : Quiet s u) : u.power = s.power := by
  have e := congrArg State.power h.eq
  exact e

theorem Quiet.monitors {s u : State} (h : Quiet s u) : u.monitors = s.monitors := by
  have e := congrArg State.monitors h.eq
  exact e

theorem Quiet.contexts {s u : State} (h : Quiet s u) : u.contexts = s.contexts := by
  have e := congrArg State.contexts h.eq
  exact e

theorem Quiet.sentExp {s u : State} (h : Quiet s u) : u.sentExp = s.sentExp := by
  have e := congrArg State.sentExp h.eq
  exact e

theorem Quiet.tallyBlocks {s u : State} (h : Quiet s u) : u.tallyBlocks = s.tallyBlocks := by
  have e := congrArg State.tallyBlocks h.eq
  exact e

theorem Quiet.rolls {s u : State} (h : Quiet s u) : u.rolls = s.rolls := by
  have e := congrArg State.rolls h.eq
  exact e

theorem Quiet.buckets {s u : State} (h : Quiet s u) : u.buckets = s.buckets := by
  have e := congrArg State.buckets h.eq
  exact e

theorem Quiet.returns {s u : State} (h : Quiet s u) : u.returns = s.returns := by
  have e := congrArg State.returns h.eq
  exact e

theorem Quiet.landings {s u : State} (h : Quiet s u) : u.landings = s.landings := by
  have e := congrArg State.landings h.eq
  exact e

theorem Quiet.moves {s u : State} (h : Quiet s u) : u.moves = s.moves := by
  have e := congrArg State.moves h.eq
  exact e

theorem Quiet.closes {s u : State} (h : Quiet s u) : u.closes = s.closes := by
  have e := congrArg State.closes h.eq
  exact e

theorem Quiet.links {s u : State} (h : Quiet s u) : u.links = s.links := by
  have e := congrArg State.links h.eq
  exact e

theorem Quiet.snaps {s u : State} (h : Quiet s u) : u.snaps = s.snaps := by
  have e := congrArg State.snaps h.eq
  exact e

theorem Quiet.rests {s u : State} (h : Quiet s u) : u.rests = s.rests := by
  have e := congrArg State.rests h.eq
  exact e

theorem Quiet.flash {s u : State} (h : Quiet s u) : u.flash = s.flash := by
  have e := congrArg State.flash h.eq
  exact e

theorem Quiet.sup {s u : State} (h : Quiet s u) : u.sup = s.sup := by
  have e := congrArg State.sup h.eq
  exact e

theorem Quiet.jtag {s u : State} (h : Quiet s u) : u.jtag = s.jtag := by
  have e := congrArg State.jtag h.eq
  exact e

@[simp] theorem State.publishAt_pending (s : State) (i source : Nat) (p : List Byte) :
    (s.publishAt i source p).pending = s.pending := (State.publishAt_quiet ..).pending

@[simp] theorem State.publishAt_supCycles (s : State) (i source : Nat) (p : List Byte) :
    (s.publishAt i source p).supCycles = s.supCycles := (State.publishAt_quiet ..).supCycles

@[simp] theorem State.publishAt_freeCtr (s : State) (i source : Nat) (p : List Byte) :
    (s.publishAt i source p).freeCtr = s.freeCtr := (State.publishAt_quiet ..).freeCtr

@[simp] theorem State.publishAt_stat (s : State) (i source : Nat) (p : List Byte) :
    (s.publishAt i source p).stat = s.stat := (State.publishAt_quiet ..).stat

@[simp] theorem State.publishAt_errs (s : State) (i source : Nat) (p : List Byte) :
    (s.publishAt i source p).errs = s.errs := (State.publishAt_quiet ..).errs

@[simp] theorem State.publishAt_statErrs (s : State) (i source : Nat) (p : List Byte) :
    (s.publishAt i source p).statErrs = s.statErrs := (State.publishAt_quiet ..).statErrs

@[simp] theorem State.publishAt_tables (s : State) (i source : Nat) (p : List Byte) :
    (s.publishAt i source p).tables = s.tables := (State.publishAt_quiet ..).tables

@[simp] theorem State.publishAt_grid (s : State) (i source : Nat) (p : List Byte) :
    (s.publishAt i source p).grid = s.grid := (State.publishAt_quiet ..).grid

@[simp] theorem State.publishAt_frames (s : State) (i source : Nat) (p : List Byte) :
    (s.publishAt i source p).frames = s.frames := (State.publishAt_quiet ..).frames

@[simp] theorem State.publishAt_tiles (s : State) (i source : Nat) (p : List Byte) :
    (s.publishAt i source p).tiles = s.tiles := (State.publishAt_quiet ..).tiles

@[simp] theorem State.publishAt_stall (s : State) (i source : Nat) (p : List Byte) :
    (s.publishAt i source p).stall = s.stall := (State.publishAt_quiet ..).stall

@[simp] theorem State.publishAt_undefinedGroups (s : State) (i source : Nat) (p : List Byte) :
    (s.publishAt i source p).undefinedGroups = s.undefinedGroups := (State.publishAt_quiet ..).undefinedGroups

@[simp] theorem State.publishAt_rewritten (s : State) (i source : Nat) (p : List Byte) :
    (s.publishAt i source p).rewritten = s.rewritten := (State.publishAt_quiet ..).rewritten

@[simp] theorem State.publishAt_queue (s : State) (i source : Nat) (p : List Byte) :
    (s.publishAt i source p).queue = s.queue := (State.publishAt_quiet ..).queue

@[simp] theorem State.publishAt_queueFresh (s : State) (i source : Nat) (p : List Byte) :
    (s.publishAt i source p).queueFresh = s.queueFresh := (State.publishAt_quiet ..).queueFresh

@[simp] theorem State.publishAt_sessions (s : State) (i source : Nat) (p : List Byte) :
    (s.publishAt i source p).sessions = s.sessions := (State.publishAt_quiet ..).sessions

@[simp] theorem State.publishAt_storing (s : State) (i source : Nat) (p : List Byte) :
    (s.publishAt i source p).storing = s.storing := (State.publishAt_quiet ..).storing

@[simp] theorem State.publishAt_can (s : State) (i source : Nat) (p : List Byte) :
    (s.publishAt i source p).can = s.can := by
  unfold State.publishAt; simp

@[simp] theorem State.publishAt_pcs (s : State) (i source : Nat) (p : List Byte) :
    (s.publishAt i source p).pcs = s.pcs := (State.publishAt_quiet ..).pcs

@[simp] theorem State.publishAt_scrubs (s : State) (i source : Nat) (p : List Byte) :
    (s.publishAt i source p).scrubs = s.scrubs := (State.publishAt_quiet ..).scrubs

@[simp] theorem State.publishAt_tests (s : State) (i source : Nat) (p : List Byte) :
    (s.publishAt i source p).tests = s.tests := (State.publishAt_quiet ..).tests

@[simp] theorem State.publishAt_watch (s : State) (i source : Nat) (p : List Byte) :
    (s.publishAt i source p).watch = s.watch := (State.publishAt_quiet ..).watch

@[simp] theorem State.publishAt_posts (s : State) (i source : Nat) (p : List Byte) :
    (s.publishAt i source p).posts = s.posts := (State.publishAt_quiet ..).posts

@[simp] theorem State.publishAt_posting (s : State) (i source : Nat) (p : List Byte) :
    (s.publishAt i source p).posting = s.posting := (State.publishAt_quiet ..).posting

@[simp] theorem State.publishAt_mail (s : State) (i source : Nat) (p : List Byte) :
    (s.publishAt i source p).mail = s.mail := (State.publishAt_quiet ..).mail

@[simp] theorem State.publishAt_dw (s : State) (i source : Nat) (p : List Byte) :
    (s.publishAt i source p).dw = s.dw := (State.publishAt_quiet ..).dw

@[simp] theorem State.publishAt_rings (s : State) (i source : Nat) (p : List Byte) :
    (s.publishAt i source p).rings = s.rings := (State.publishAt_quiet ..).rings

@[simp] theorem State.publishAt_clock (s : State) (i source : Nat) (p : List Byte) :
    (s.publishAt i source p).clock = s.clock := (State.publishAt_quiet ..).clock

@[simp] theorem State.publishAt_power (s : State) (i source : Nat) (p : List Byte) :
    (s.publishAt i source p).power = s.power := (State.publishAt_quiet ..).power

@[simp] theorem State.publishAt_monitors (s : State) (i source : Nat) (p : List Byte) :
    (s.publishAt i source p).monitors = s.monitors := (State.publishAt_quiet ..).monitors

@[simp] theorem State.publishAt_contexts (s : State) (i source : Nat) (p : List Byte) :
    (s.publishAt i source p).contexts = s.contexts := (State.publishAt_quiet ..).contexts

@[simp] theorem State.publishAt_sentExp (s : State) (i source : Nat) (p : List Byte) :
    (s.publishAt i source p).sentExp = s.sentExp := (State.publishAt_quiet ..).sentExp

@[simp] theorem State.publishAt_tallyBlocks (s : State) (i source : Nat) (p : List Byte) :
    (s.publishAt i source p).tallyBlocks = s.tallyBlocks := (State.publishAt_quiet ..).tallyBlocks

@[simp] theorem State.publishAt_rolls (s : State) (i source : Nat) (p : List Byte) :
    (s.publishAt i source p).rolls = s.rolls := (State.publishAt_quiet ..).rolls

@[simp] theorem State.publishAt_buckets (s : State) (i source : Nat) (p : List Byte) :
    (s.publishAt i source p).buckets = s.buckets := (State.publishAt_quiet ..).buckets

@[simp] theorem State.publishAt_returns (s : State) (i source : Nat) (p : List Byte) :
    (s.publishAt i source p).returns = s.returns := (State.publishAt_quiet ..).returns

@[simp] theorem State.publishAt_landings (s : State) (i source : Nat) (p : List Byte) :
    (s.publishAt i source p).landings = s.landings := (State.publishAt_quiet ..).landings

@[simp] theorem State.publishAt_moves (s : State) (i source : Nat) (p : List Byte) :
    (s.publishAt i source p).moves = s.moves := (State.publishAt_quiet ..).moves

@[simp] theorem State.publishAt_closes (s : State) (i source : Nat) (p : List Byte) :
    (s.publishAt i source p).closes = s.closes := (State.publishAt_quiet ..).closes

@[simp] theorem State.publishAt_links (s : State) (i source : Nat) (p : List Byte) :
    (s.publishAt i source p).links = s.links := (State.publishAt_quiet ..).links

@[simp] theorem State.publishAt_snaps (s : State) (i source : Nat) (p : List Byte) :
    (s.publishAt i source p).snaps = s.snaps := (State.publishAt_quiet ..).snaps

@[simp] theorem State.publishAt_rests (s : State) (i source : Nat) (p : List Byte) :
    (s.publishAt i source p).rests = s.rests := (State.publishAt_quiet ..).rests

@[simp] theorem State.publishAt_flash (s : State) (i source : Nat) (p : List Byte) :
    (s.publishAt i source p).flash = s.flash := (State.publishAt_quiet ..).flash

@[simp] theorem State.publishAt_sup (s : State) (i source : Nat) (p : List Byte) :
    (s.publishAt i source p).sup = s.sup := (State.publishAt_quiet ..).sup

@[simp] theorem State.publishAt_jtag (s : State) (i source : Nat) (p : List Byte) :
    (s.publishAt i source p).jtag = s.jtag := (State.publishAt_quiet ..).jtag

@[simp] theorem State.publishAt_log (s : State) (i source : Nat) (p : List Byte) :
    (s.publishAt i source p).log = s.log := by
  unfold State.publishAt; simp

@[simp] theorem State.publish_pending (s : State) (source : Nat) (p : List Byte) :
    (s.publish source p).pending = s.pending := (State.publish_quiet ..).pending

@[simp] theorem State.publish_supCycles (s : State) (source : Nat) (p : List Byte) :
    (s.publish source p).supCycles = s.supCycles := (State.publish_quiet ..).supCycles

@[simp] theorem State.publish_freeCtr (s : State) (source : Nat) (p : List Byte) :
    (s.publish source p).freeCtr = s.freeCtr := (State.publish_quiet ..).freeCtr

@[simp] theorem State.publish_stat (s : State) (source : Nat) (p : List Byte) :
    (s.publish source p).stat = s.stat := (State.publish_quiet ..).stat

@[simp] theorem State.publish_errs (s : State) (source : Nat) (p : List Byte) :
    (s.publish source p).errs = s.errs := (State.publish_quiet ..).errs

@[simp] theorem State.publish_statErrs (s : State) (source : Nat) (p : List Byte) :
    (s.publish source p).statErrs = s.statErrs := (State.publish_quiet ..).statErrs

@[simp] theorem State.publish_tables (s : State) (source : Nat) (p : List Byte) :
    (s.publish source p).tables = s.tables := (State.publish_quiet ..).tables

@[simp] theorem State.publish_grid (s : State) (source : Nat) (p : List Byte) :
    (s.publish source p).grid = s.grid := (State.publish_quiet ..).grid

@[simp] theorem State.publish_frames (s : State) (source : Nat) (p : List Byte) :
    (s.publish source p).frames = s.frames := (State.publish_quiet ..).frames

@[simp] theorem State.publish_tiles (s : State) (source : Nat) (p : List Byte) :
    (s.publish source p).tiles = s.tiles := (State.publish_quiet ..).tiles

@[simp] theorem State.publish_stall (s : State) (source : Nat) (p : List Byte) :
    (s.publish source p).stall = s.stall := (State.publish_quiet ..).stall

@[simp] theorem State.publish_undefinedGroups (s : State) (source : Nat) (p : List Byte) :
    (s.publish source p).undefinedGroups = s.undefinedGroups := (State.publish_quiet ..).undefinedGroups

@[simp] theorem State.publish_rewritten (s : State) (source : Nat) (p : List Byte) :
    (s.publish source p).rewritten = s.rewritten := (State.publish_quiet ..).rewritten

@[simp] theorem State.publish_queue (s : State) (source : Nat) (p : List Byte) :
    (s.publish source p).queue = s.queue := (State.publish_quiet ..).queue

@[simp] theorem State.publish_queueFresh (s : State) (source : Nat) (p : List Byte) :
    (s.publish source p).queueFresh = s.queueFresh := (State.publish_quiet ..).queueFresh

@[simp] theorem State.publish_sessions (s : State) (source : Nat) (p : List Byte) :
    (s.publish source p).sessions = s.sessions := (State.publish_quiet ..).sessions

@[simp] theorem State.publish_storing (s : State) (source : Nat) (p : List Byte) :
    (s.publish source p).storing = s.storing := (State.publish_quiet ..).storing

@[simp] theorem State.publish_can (s : State) (source : Nat) (p : List Byte) :
    (s.publish source p).can = s.can := by
  unfold State.publish; split <;> simp

@[simp] theorem State.publish_pcs (s : State) (source : Nat) (p : List Byte) :
    (s.publish source p).pcs = s.pcs := (State.publish_quiet ..).pcs

@[simp] theorem State.publish_scrubs (s : State) (source : Nat) (p : List Byte) :
    (s.publish source p).scrubs = s.scrubs := (State.publish_quiet ..).scrubs

@[simp] theorem State.publish_tests (s : State) (source : Nat) (p : List Byte) :
    (s.publish source p).tests = s.tests := (State.publish_quiet ..).tests

@[simp] theorem State.publish_watch (s : State) (source : Nat) (p : List Byte) :
    (s.publish source p).watch = s.watch := (State.publish_quiet ..).watch

@[simp] theorem State.publish_posts (s : State) (source : Nat) (p : List Byte) :
    (s.publish source p).posts = s.posts := (State.publish_quiet ..).posts

@[simp] theorem State.publish_posting (s : State) (source : Nat) (p : List Byte) :
    (s.publish source p).posting = s.posting := (State.publish_quiet ..).posting

@[simp] theorem State.publish_mail (s : State) (source : Nat) (p : List Byte) :
    (s.publish source p).mail = s.mail := (State.publish_quiet ..).mail

@[simp] theorem State.publish_dw (s : State) (source : Nat) (p : List Byte) :
    (s.publish source p).dw = s.dw := (State.publish_quiet ..).dw

@[simp] theorem State.publish_rings (s : State) (source : Nat) (p : List Byte) :
    (s.publish source p).rings = s.rings := (State.publish_quiet ..).rings

@[simp] theorem State.publish_clock (s : State) (source : Nat) (p : List Byte) :
    (s.publish source p).clock = s.clock := (State.publish_quiet ..).clock

@[simp] theorem State.publish_power (s : State) (source : Nat) (p : List Byte) :
    (s.publish source p).power = s.power := (State.publish_quiet ..).power

@[simp] theorem State.publish_monitors (s : State) (source : Nat) (p : List Byte) :
    (s.publish source p).monitors = s.monitors := (State.publish_quiet ..).monitors

@[simp] theorem State.publish_contexts (s : State) (source : Nat) (p : List Byte) :
    (s.publish source p).contexts = s.contexts := (State.publish_quiet ..).contexts

@[simp] theorem State.publish_sentExp (s : State) (source : Nat) (p : List Byte) :
    (s.publish source p).sentExp = s.sentExp := (State.publish_quiet ..).sentExp

@[simp] theorem State.publish_tallyBlocks (s : State) (source : Nat) (p : List Byte) :
    (s.publish source p).tallyBlocks = s.tallyBlocks := (State.publish_quiet ..).tallyBlocks

@[simp] theorem State.publish_rolls (s : State) (source : Nat) (p : List Byte) :
    (s.publish source p).rolls = s.rolls := (State.publish_quiet ..).rolls

@[simp] theorem State.publish_buckets (s : State) (source : Nat) (p : List Byte) :
    (s.publish source p).buckets = s.buckets := (State.publish_quiet ..).buckets

@[simp] theorem State.publish_returns (s : State) (source : Nat) (p : List Byte) :
    (s.publish source p).returns = s.returns := (State.publish_quiet ..).returns

@[simp] theorem State.publish_landings (s : State) (source : Nat) (p : List Byte) :
    (s.publish source p).landings = s.landings := (State.publish_quiet ..).landings

@[simp] theorem State.publish_moves (s : State) (source : Nat) (p : List Byte) :
    (s.publish source p).moves = s.moves := (State.publish_quiet ..).moves

@[simp] theorem State.publish_closes (s : State) (source : Nat) (p : List Byte) :
    (s.publish source p).closes = s.closes := (State.publish_quiet ..).closes

@[simp] theorem State.publish_links (s : State) (source : Nat) (p : List Byte) :
    (s.publish source p).links = s.links := (State.publish_quiet ..).links

@[simp] theorem State.publish_snaps (s : State) (source : Nat) (p : List Byte) :
    (s.publish source p).snaps = s.snaps := (State.publish_quiet ..).snaps

@[simp] theorem State.publish_rests (s : State) (source : Nat) (p : List Byte) :
    (s.publish source p).rests = s.rests := (State.publish_quiet ..).rests

@[simp] theorem State.publish_flash (s : State) (source : Nat) (p : List Byte) :
    (s.publish source p).flash = s.flash := (State.publish_quiet ..).flash

@[simp] theorem State.publish_sup (s : State) (source : Nat) (p : List Byte) :
    (s.publish source p).sup = s.sup := (State.publish_quiet ..).sup

@[simp] theorem State.publish_jtag (s : State) (source : Nat) (p : List Byte) :
    (s.publish source p).jtag = s.jtag := (State.publish_quiet ..).jtag

@[simp] theorem State.publish_log (s : State) (source : Nat) (p : List Byte) :
    (s.publish source p).log = s.log := by
  unfold State.publish; split <;> simp

@[simp] theorem State.logWith_pending (s : State) (e d c : Nat) :
    (s.logWith e d c).pending = s.pending := (State.logWith_quiet ..).pending

@[simp] theorem State.logWith_supCycles (s : State) (e d c : Nat) :
    (s.logWith e d c).supCycles = s.supCycles := (State.logWith_quiet ..).supCycles

@[simp] theorem State.logWith_freeCtr (s : State) (e d c : Nat) :
    (s.logWith e d c).freeCtr = s.freeCtr := (State.logWith_quiet ..).freeCtr

@[simp] theorem State.logWith_stat (s : State) (e d c : Nat) :
    (s.logWith e d c).stat = s.stat := (State.logWith_quiet ..).stat

@[simp] theorem State.logWith_errs (s : State) (e d c : Nat) :
    (s.logWith e d c).errs = s.errs := (State.logWith_quiet ..).errs

@[simp] theorem State.logWith_statErrs (s : State) (e d c : Nat) :
    (s.logWith e d c).statErrs = s.statErrs := (State.logWith_quiet ..).statErrs

@[simp] theorem State.logWith_tables (s : State) (e d c : Nat) :
    (s.logWith e d c).tables = s.tables := (State.logWith_quiet ..).tables

@[simp] theorem State.logWith_grid (s : State) (e d c : Nat) :
    (s.logWith e d c).grid = s.grid := (State.logWith_quiet ..).grid

@[simp] theorem State.logWith_frames (s : State) (e d c : Nat) :
    (s.logWith e d c).frames = s.frames := (State.logWith_quiet ..).frames

@[simp] theorem State.logWith_tiles (s : State) (e d c : Nat) :
    (s.logWith e d c).tiles = s.tiles := (State.logWith_quiet ..).tiles

@[simp] theorem State.logWith_stall (s : State) (e d c : Nat) :
    (s.logWith e d c).stall = s.stall := (State.logWith_quiet ..).stall

@[simp] theorem State.logWith_undefinedGroups (s : State) (e d c : Nat) :
    (s.logWith e d c).undefinedGroups = s.undefinedGroups := (State.logWith_quiet ..).undefinedGroups

@[simp] theorem State.logWith_rewritten (s : State) (e d c : Nat) :
    (s.logWith e d c).rewritten = s.rewritten := (State.logWith_quiet ..).rewritten

@[simp] theorem State.logWith_queue (s : State) (e d c : Nat) :
    (s.logWith e d c).queue = s.queue := (State.logWith_quiet ..).queue

@[simp] theorem State.logWith_queueFresh (s : State) (e d c : Nat) :
    (s.logWith e d c).queueFresh = s.queueFresh := (State.logWith_quiet ..).queueFresh

@[simp] theorem State.logWith_sessions (s : State) (e d c : Nat) :
    (s.logWith e d c).sessions = s.sessions := (State.logWith_quiet ..).sessions

@[simp] theorem State.logWith_storing (s : State) (e d c : Nat) :
    (s.logWith e d c).storing = s.storing := (State.logWith_quiet ..).storing

@[simp] theorem State.logWith_pcs (s : State) (e d c : Nat) :
    (s.logWith e d c).pcs = s.pcs := (State.logWith_quiet ..).pcs

@[simp] theorem State.logWith_scrubs (s : State) (e d c : Nat) :
    (s.logWith e d c).scrubs = s.scrubs := (State.logWith_quiet ..).scrubs

@[simp] theorem State.logWith_tests (s : State) (e d c : Nat) :
    (s.logWith e d c).tests = s.tests := (State.logWith_quiet ..).tests

@[simp] theorem State.logWith_watch (s : State) (e d c : Nat) :
    (s.logWith e d c).watch = s.watch := (State.logWith_quiet ..).watch

@[simp] theorem State.logWith_posts (s : State) (e d c : Nat) :
    (s.logWith e d c).posts = s.posts := (State.logWith_quiet ..).posts

@[simp] theorem State.logWith_posting (s : State) (e d c : Nat) :
    (s.logWith e d c).posting = s.posting := (State.logWith_quiet ..).posting

@[simp] theorem State.logWith_mail (s : State) (e d c : Nat) :
    (s.logWith e d c).mail = s.mail := (State.logWith_quiet ..).mail

@[simp] theorem State.logWith_dw (s : State) (e d c : Nat) :
    (s.logWith e d c).dw = s.dw := (State.logWith_quiet ..).dw

@[simp] theorem State.logWith_rings (s : State) (e d c : Nat) :
    (s.logWith e d c).rings = s.rings := (State.logWith_quiet ..).rings

@[simp] theorem State.logWith_clock (s : State) (e d c : Nat) :
    (s.logWith e d c).clock = s.clock := (State.logWith_quiet ..).clock

@[simp] theorem State.logWith_power (s : State) (e d c : Nat) :
    (s.logWith e d c).power = s.power := (State.logWith_quiet ..).power

@[simp] theorem State.logWith_monitors (s : State) (e d c : Nat) :
    (s.logWith e d c).monitors = s.monitors := (State.logWith_quiet ..).monitors

@[simp] theorem State.logWith_contexts (s : State) (e d c : Nat) :
    (s.logWith e d c).contexts = s.contexts := (State.logWith_quiet ..).contexts

@[simp] theorem State.logWith_sentExp (s : State) (e d c : Nat) :
    (s.logWith e d c).sentExp = s.sentExp := (State.logWith_quiet ..).sentExp

@[simp] theorem State.logWith_tallyBlocks (s : State) (e d c : Nat) :
    (s.logWith e d c).tallyBlocks = s.tallyBlocks := (State.logWith_quiet ..).tallyBlocks

@[simp] theorem State.logWith_rolls (s : State) (e d c : Nat) :
    (s.logWith e d c).rolls = s.rolls := (State.logWith_quiet ..).rolls

@[simp] theorem State.logWith_buckets (s : State) (e d c : Nat) :
    (s.logWith e d c).buckets = s.buckets := (State.logWith_quiet ..).buckets

@[simp] theorem State.logWith_returns (s : State) (e d c : Nat) :
    (s.logWith e d c).returns = s.returns := (State.logWith_quiet ..).returns

@[simp] theorem State.logWith_landings (s : State) (e d c : Nat) :
    (s.logWith e d c).landings = s.landings := (State.logWith_quiet ..).landings

@[simp] theorem State.logWith_moves (s : State) (e d c : Nat) :
    (s.logWith e d c).moves = s.moves := (State.logWith_quiet ..).moves

@[simp] theorem State.logWith_closes (s : State) (e d c : Nat) :
    (s.logWith e d c).closes = s.closes := (State.logWith_quiet ..).closes

@[simp] theorem State.logWith_links (s : State) (e d c : Nat) :
    (s.logWith e d c).links = s.links := (State.logWith_quiet ..).links

@[simp] theorem State.logWith_snaps (s : State) (e d c : Nat) :
    (s.logWith e d c).snaps = s.snaps := (State.logWith_quiet ..).snaps

@[simp] theorem State.logWith_rests (s : State) (e d c : Nat) :
    (s.logWith e d c).rests = s.rests := (State.logWith_quiet ..).rests

@[simp] theorem State.logWith_flash (s : State) (e d c : Nat) :
    (s.logWith e d c).flash = s.flash := (State.logWith_quiet ..).flash

@[simp] theorem State.logWith_sup (s : State) (e d c : Nat) :
    (s.logWith e d c).sup = s.sup := (State.logWith_quiet ..).sup

@[simp] theorem State.logWith_jtag (s : State) (e d c : Nat) :
    (s.logWith e d c).jtag = s.jtag := (State.logWith_quiet ..).jtag

@[simp] theorem State.logEvent_pending (s : State) (e d : Nat) :
    (s.logEvent e d).pending = s.pending := State.logWith_pending ..

@[simp] theorem State.logEvent_supCycles (s : State) (e d : Nat) :
    (s.logEvent e d).supCycles = s.supCycles := State.logWith_supCycles ..

@[simp] theorem State.logEvent_freeCtr (s : State) (e d : Nat) :
    (s.logEvent e d).freeCtr = s.freeCtr := State.logWith_freeCtr ..

@[simp] theorem State.logEvent_stat (s : State) (e d : Nat) :
    (s.logEvent e d).stat = s.stat := State.logWith_stat ..

@[simp] theorem State.logEvent_errs (s : State) (e d : Nat) :
    (s.logEvent e d).errs = s.errs := State.logWith_errs ..

@[simp] theorem State.logEvent_statErrs (s : State) (e d : Nat) :
    (s.logEvent e d).statErrs = s.statErrs := State.logWith_statErrs ..

@[simp] theorem State.logEvent_tables (s : State) (e d : Nat) :
    (s.logEvent e d).tables = s.tables := State.logWith_tables ..

@[simp] theorem State.logEvent_grid (s : State) (e d : Nat) :
    (s.logEvent e d).grid = s.grid := State.logWith_grid ..

@[simp] theorem State.logEvent_frames (s : State) (e d : Nat) :
    (s.logEvent e d).frames = s.frames := State.logWith_frames ..

@[simp] theorem State.logEvent_tiles (s : State) (e d : Nat) :
    (s.logEvent e d).tiles = s.tiles := State.logWith_tiles ..

@[simp] theorem State.logEvent_stall (s : State) (e d : Nat) :
    (s.logEvent e d).stall = s.stall := State.logWith_stall ..

@[simp] theorem State.logEvent_undefinedGroups (s : State) (e d : Nat) :
    (s.logEvent e d).undefinedGroups = s.undefinedGroups := State.logWith_undefinedGroups ..

@[simp] theorem State.logEvent_rewritten (s : State) (e d : Nat) :
    (s.logEvent e d).rewritten = s.rewritten := State.logWith_rewritten ..

@[simp] theorem State.logEvent_queue (s : State) (e d : Nat) :
    (s.logEvent e d).queue = s.queue := State.logWith_queue ..

@[simp] theorem State.logEvent_queueFresh (s : State) (e d : Nat) :
    (s.logEvent e d).queueFresh = s.queueFresh := State.logWith_queueFresh ..

@[simp] theorem State.logEvent_sessions (s : State) (e d : Nat) :
    (s.logEvent e d).sessions = s.sessions := State.logWith_sessions ..

@[simp] theorem State.logEvent_storing (s : State) (e d : Nat) :
    (s.logEvent e d).storing = s.storing := State.logWith_storing ..

@[simp] theorem State.logEvent_pcs (s : State) (e d : Nat) :
    (s.logEvent e d).pcs = s.pcs := State.logWith_pcs ..

@[simp] theorem State.logEvent_scrubs (s : State) (e d : Nat) :
    (s.logEvent e d).scrubs = s.scrubs := State.logWith_scrubs ..

@[simp] theorem State.logEvent_tests (s : State) (e d : Nat) :
    (s.logEvent e d).tests = s.tests := State.logWith_tests ..

@[simp] theorem State.logEvent_watch (s : State) (e d : Nat) :
    (s.logEvent e d).watch = s.watch := State.logWith_watch ..

@[simp] theorem State.logEvent_posts (s : State) (e d : Nat) :
    (s.logEvent e d).posts = s.posts := State.logWith_posts ..

@[simp] theorem State.logEvent_posting (s : State) (e d : Nat) :
    (s.logEvent e d).posting = s.posting := State.logWith_posting ..

@[simp] theorem State.logEvent_mail (s : State) (e d : Nat) :
    (s.logEvent e d).mail = s.mail := State.logWith_mail ..

@[simp] theorem State.logEvent_dw (s : State) (e d : Nat) :
    (s.logEvent e d).dw = s.dw := State.logWith_dw ..

@[simp] theorem State.logEvent_rings (s : State) (e d : Nat) :
    (s.logEvent e d).rings = s.rings := State.logWith_rings ..

@[simp] theorem State.logEvent_clock (s : State) (e d : Nat) :
    (s.logEvent e d).clock = s.clock := State.logWith_clock ..

@[simp] theorem State.logEvent_power (s : State) (e d : Nat) :
    (s.logEvent e d).power = s.power := State.logWith_power ..

@[simp] theorem State.logEvent_monitors (s : State) (e d : Nat) :
    (s.logEvent e d).monitors = s.monitors := State.logWith_monitors ..

@[simp] theorem State.logEvent_contexts (s : State) (e d : Nat) :
    (s.logEvent e d).contexts = s.contexts := State.logWith_contexts ..

@[simp] theorem State.logEvent_sentExp (s : State) (e d : Nat) :
    (s.logEvent e d).sentExp = s.sentExp := State.logWith_sentExp ..

@[simp] theorem State.logEvent_tallyBlocks (s : State) (e d : Nat) :
    (s.logEvent e d).tallyBlocks = s.tallyBlocks := State.logWith_tallyBlocks ..

@[simp] theorem State.logEvent_rolls (s : State) (e d : Nat) :
    (s.logEvent e d).rolls = s.rolls := State.logWith_rolls ..

@[simp] theorem State.logEvent_buckets (s : State) (e d : Nat) :
    (s.logEvent e d).buckets = s.buckets := State.logWith_buckets ..

@[simp] theorem State.logEvent_returns (s : State) (e d : Nat) :
    (s.logEvent e d).returns = s.returns := State.logWith_returns ..

@[simp] theorem State.logEvent_landings (s : State) (e d : Nat) :
    (s.logEvent e d).landings = s.landings := State.logWith_landings ..

@[simp] theorem State.logEvent_moves (s : State) (e d : Nat) :
    (s.logEvent e d).moves = s.moves := State.logWith_moves ..

@[simp] theorem State.logEvent_closes (s : State) (e d : Nat) :
    (s.logEvent e d).closes = s.closes := State.logWith_closes ..

@[simp] theorem State.logEvent_links (s : State) (e d : Nat) :
    (s.logEvent e d).links = s.links := State.logWith_links ..

@[simp] theorem State.logEvent_snaps (s : State) (e d : Nat) :
    (s.logEvent e d).snaps = s.snaps := State.logWith_snaps ..

@[simp] theorem State.logEvent_rests (s : State) (e d : Nat) :
    (s.logEvent e d).rests = s.rests := State.logWith_rests ..

@[simp] theorem State.logEvent_flash (s : State) (e d : Nat) :
    (s.logEvent e d).flash = s.flash := State.logWith_flash ..

@[simp] theorem State.logEvent_sup (s : State) (e d : Nat) :
    (s.logEvent e d).sup = s.sup := State.logWith_sup ..

@[simp] theorem State.logEvent_jtag (s : State) (e d : Nat) :
    (s.logEvent e d).jtag = s.jtag := State.logWith_jtag ..

@[simp] theorem State.clearCondition_pending (s : State) (c : Nat) :
    (s.clearCondition c).pending = s.pending := by
  unfold State.clearCondition; split <;> simp

@[simp] theorem State.clearCondition_supCycles (s : State) (c : Nat) :
    (s.clearCondition c).supCycles = s.supCycles := by
  unfold State.clearCondition; split <;> simp

@[simp] theorem State.clearCondition_freeCtr (s : State) (c : Nat) :
    (s.clearCondition c).freeCtr = s.freeCtr := by
  unfold State.clearCondition; split <;> simp

@[simp] theorem State.clearCondition_mem (s : State) (c : Nat) :
    (s.clearCondition c).mem = s.mem := by
  unfold State.clearCondition; split <;> simp

@[simp] theorem State.clearCondition_stat (s : State) (c : Nat) :
    (s.clearCondition c).stat = s.stat := by
  unfold State.clearCondition; split <;> simp

@[simp] theorem State.clearCondition_errs (s : State) (c : Nat) :
    (s.clearCondition c).errs = s.errs := by
  unfold State.clearCondition; split <;> simp

@[simp] theorem State.clearCondition_statErrs (s : State) (c : Nat) :
    (s.clearCondition c).statErrs = s.statErrs := by
  unfold State.clearCondition; split <;> simp

@[simp] theorem State.clearCondition_tables (s : State) (c : Nat) :
    (s.clearCondition c).tables = s.tables := by
  unfold State.clearCondition; split <;> simp

@[simp] theorem State.clearCondition_grid (s : State) (c : Nat) :
    (s.clearCondition c).grid = s.grid := by
  unfold State.clearCondition; split <;> simp

@[simp] theorem State.clearCondition_frames (s : State) (c : Nat) :
    (s.clearCondition c).frames = s.frames := by
  unfold State.clearCondition; split <;> simp

@[simp] theorem State.clearCondition_tiles (s : State) (c : Nat) :
    (s.clearCondition c).tiles = s.tiles := by
  unfold State.clearCondition; split <;> simp

@[simp] theorem State.clearCondition_stall (s : State) (c : Nat) :
    (s.clearCondition c).stall = s.stall := by
  unfold State.clearCondition; split <;> simp

@[simp] theorem State.clearCondition_undefinedGroups (s : State) (c : Nat) :
    (s.clearCondition c).undefinedGroups = s.undefinedGroups := by
  unfold State.clearCondition; split <;> simp

@[simp] theorem State.clearCondition_rewritten (s : State) (c : Nat) :
    (s.clearCondition c).rewritten = s.rewritten := by
  unfold State.clearCondition; split <;> simp

@[simp] theorem State.clearCondition_queue (s : State) (c : Nat) :
    (s.clearCondition c).queue = s.queue := by
  unfold State.clearCondition; split <;> simp

@[simp] theorem State.clearCondition_queueFresh (s : State) (c : Nat) :
    (s.clearCondition c).queueFresh = s.queueFresh := by
  unfold State.clearCondition; split <;> simp

@[simp] theorem State.clearCondition_sessions (s : State) (c : Nat) :
    (s.clearCondition c).sessions = s.sessions := by
  unfold State.clearCondition; split <;> simp

@[simp] theorem State.clearCondition_storing (s : State) (c : Nat) :
    (s.clearCondition c).storing = s.storing := by
  unfold State.clearCondition; split <;> simp

@[simp] theorem State.clearCondition_pcs (s : State) (c : Nat) :
    (s.clearCondition c).pcs = s.pcs := by
  unfold State.clearCondition; split <;> simp

@[simp] theorem State.clearCondition_scrubs (s : State) (c : Nat) :
    (s.clearCondition c).scrubs = s.scrubs := by
  unfold State.clearCondition; split <;> simp

@[simp] theorem State.clearCondition_tests (s : State) (c : Nat) :
    (s.clearCondition c).tests = s.tests := by
  unfold State.clearCondition; split <;> simp

@[simp] theorem State.clearCondition_watch (s : State) (c : Nat) :
    (s.clearCondition c).watch = s.watch := by
  unfold State.clearCondition; split <;> simp

@[simp] theorem State.clearCondition_posts (s : State) (c : Nat) :
    (s.clearCondition c).posts = s.posts := by
  unfold State.clearCondition; split <;> simp

@[simp] theorem State.clearCondition_posting (s : State) (c : Nat) :
    (s.clearCondition c).posting = s.posting := by
  unfold State.clearCondition; split <;> simp

@[simp] theorem State.clearCondition_mail (s : State) (c : Nat) :
    (s.clearCondition c).mail = s.mail := by
  unfold State.clearCondition; split <;> simp

@[simp] theorem State.clearCondition_dw (s : State) (c : Nat) :
    (s.clearCondition c).dw = s.dw := by
  unfold State.clearCondition; split <;> simp

@[simp] theorem State.clearCondition_rings (s : State) (c : Nat) :
    (s.clearCondition c).rings = s.rings := by
  unfold State.clearCondition; split <;> simp

@[simp] theorem State.clearCondition_host (s : State) (c : Nat) :
    (s.clearCondition c).host = s.host := by
  unfold State.clearCondition; split <;> simp

@[simp] theorem State.clearCondition_clock (s : State) (c : Nat) :
    (s.clearCondition c).clock = s.clock := by
  unfold State.clearCondition; split <;> simp

@[simp] theorem State.clearCondition_power (s : State) (c : Nat) :
    (s.clearCondition c).power = s.power := by
  unfold State.clearCondition; split <;> simp

@[simp] theorem State.clearCondition_monitors (s : State) (c : Nat) :
    (s.clearCondition c).monitors = s.monitors := by
  unfold State.clearCondition; split <;> simp

@[simp] theorem State.clearCondition_contexts (s : State) (c : Nat) :
    (s.clearCondition c).contexts = s.contexts := by
  unfold State.clearCondition; split <;> simp

@[simp] theorem State.clearCondition_sentExp (s : State) (c : Nat) :
    (s.clearCondition c).sentExp = s.sentExp := by
  unfold State.clearCondition; split <;> simp

@[simp] theorem State.clearCondition_tallyBlocks (s : State) (c : Nat) :
    (s.clearCondition c).tallyBlocks = s.tallyBlocks := by
  unfold State.clearCondition; split <;> simp

@[simp] theorem State.clearCondition_rolls (s : State) (c : Nat) :
    (s.clearCondition c).rolls = s.rolls := by
  unfold State.clearCondition; split <;> simp

@[simp] theorem State.clearCondition_buckets (s : State) (c : Nat) :
    (s.clearCondition c).buckets = s.buckets := by
  unfold State.clearCondition; split <;> simp

@[simp] theorem State.clearCondition_returns (s : State) (c : Nat) :
    (s.clearCondition c).returns = s.returns := by
  unfold State.clearCondition; split <;> simp

@[simp] theorem State.clearCondition_landings (s : State) (c : Nat) :
    (s.clearCondition c).landings = s.landings := by
  unfold State.clearCondition; split <;> simp

@[simp] theorem State.clearCondition_moves (s : State) (c : Nat) :
    (s.clearCondition c).moves = s.moves := by
  unfold State.clearCondition; split <;> simp

@[simp] theorem State.clearCondition_closes (s : State) (c : Nat) :
    (s.clearCondition c).closes = s.closes := by
  unfold State.clearCondition; split <;> simp

@[simp] theorem State.clearCondition_links (s : State) (c : Nat) :
    (s.clearCondition c).links = s.links := by
  unfold State.clearCondition; split <;> simp

@[simp] theorem State.clearCondition_snaps (s : State) (c : Nat) :
    (s.clearCondition c).snaps = s.snaps := by
  unfold State.clearCondition; split <;> simp

@[simp] theorem State.clearCondition_rests (s : State) (c : Nat) :
    (s.clearCondition c).rests = s.rests := by
  unfold State.clearCondition; split <;> simp

@[simp] theorem State.clearCondition_flash (s : State) (c : Nat) :
    (s.clearCondition c).flash = s.flash := by
  unfold State.clearCondition; split <;> simp

@[simp] theorem State.clearCondition_sup (s : State) (c : Nat) :
    (s.clearCondition c).sup = s.sup := by
  unfold State.clearCondition; split <;> simp

@[simp] theorem State.clearCondition_jtag (s : State) (c : Nat) :
    (s.clearCondition c).jtag = s.jtag := by
  unfold State.clearCondition; split <;> simp

@[simp] theorem State.clearCondition_log (s : State) (c : Nat) :
    (s.clearCondition c).log = s.log := by
  unfold State.clearCondition; split <;> simp

@[simp] theorem State.clearCondition_out (s : State) (c : Nat) :
    (s.clearCondition c).out = s.out := by
  unfold State.clearCondition; split <;> simp

/-! ### Tables of the device -/

@[simp] theorem State.setMail_pending (s : State) (i : Fin 8) (m : MailPair) :
    (s.setMail i m).pending = s.pending := rfl

@[simp] theorem State.setMail_supCycles (s : State) (i : Fin 8) (m : MailPair) :
    (s.setMail i m).supCycles = s.supCycles := rfl

@[simp] theorem State.setMail_freeCtr (s : State) (i : Fin 8) (m : MailPair) :
    (s.setMail i m).freeCtr = s.freeCtr := rfl

@[simp] theorem State.setMail_mem (s : State) (i : Fin 8) (m : MailPair) :
    (s.setMail i m).mem = s.mem := rfl

@[simp] theorem State.setMail_stat (s : State) (i : Fin 8) (m : MailPair) :
    (s.setMail i m).stat = s.stat := rfl

@[simp] theorem State.setMail_errs (s : State) (i : Fin 8) (m : MailPair) :
    (s.setMail i m).errs = s.errs := rfl

@[simp] theorem State.setMail_statErrs (s : State) (i : Fin 8) (m : MailPair) :
    (s.setMail i m).statErrs = s.statErrs := rfl

@[simp] theorem State.setMail_od (s : State) (i : Fin 8) (m : MailPair) :
    (s.setMail i m).od = s.od := rfl

@[simp] theorem State.setMail_tables (s : State) (i : Fin 8) (m : MailPair) :
    (s.setMail i m).tables = s.tables := rfl

@[simp] theorem State.setMail_grid (s : State) (i : Fin 8) (m : MailPair) :
    (s.setMail i m).grid = s.grid := rfl

@[simp] theorem State.setMail_frames (s : State) (i : Fin 8) (m : MailPair) :
    (s.setMail i m).frames = s.frames := rfl

@[simp] theorem State.setMail_tiles (s : State) (i : Fin 8) (m : MailPair) :
    (s.setMail i m).tiles = s.tiles := rfl

@[simp] theorem State.setMail_stall (s : State) (i : Fin 8) (m : MailPair) :
    (s.setMail i m).stall = s.stall := rfl

@[simp] theorem State.setMail_undefinedGroups (s : State) (i : Fin 8) (m : MailPair) :
    (s.setMail i m).undefinedGroups = s.undefinedGroups := rfl

@[simp] theorem State.setMail_rewritten (s : State) (i : Fin 8) (m : MailPair) :
    (s.setMail i m).rewritten = s.rewritten := rfl

@[simp] theorem State.setMail_queue (s : State) (i : Fin 8) (m : MailPair) :
    (s.setMail i m).queue = s.queue := rfl

@[simp] theorem State.setMail_queueFresh (s : State) (i : Fin 8) (m : MailPair) :
    (s.setMail i m).queueFresh = s.queueFresh := rfl

@[simp] theorem State.setMail_sessions (s : State) (i : Fin 8) (m : MailPair) :
    (s.setMail i m).sessions = s.sessions := rfl

@[simp] theorem State.setMail_storing (s : State) (i : Fin 8) (m : MailPair) :
    (s.setMail i m).storing = s.storing := rfl

@[simp] theorem State.setMail_can (s : State) (i : Fin 8) (m : MailPair) :
    (s.setMail i m).can = s.can := rfl

@[simp] theorem State.setMail_pcs (s : State) (i : Fin 8) (m : MailPair) :
    (s.setMail i m).pcs = s.pcs := rfl

@[simp] theorem State.setMail_scrubs (s : State) (i : Fin 8) (m : MailPair) :
    (s.setMail i m).scrubs = s.scrubs := rfl

@[simp] theorem State.setMail_tests (s : State) (i : Fin 8) (m : MailPair) :
    (s.setMail i m).tests = s.tests := rfl

@[simp] theorem State.setMail_watch (s : State) (i : Fin 8) (m : MailPair) :
    (s.setMail i m).watch = s.watch := rfl

@[simp] theorem State.setMail_posts (s : State) (i : Fin 8) (m : MailPair) :
    (s.setMail i m).posts = s.posts := rfl

@[simp] theorem State.setMail_posting (s : State) (i : Fin 8) (m : MailPair) :
    (s.setMail i m).posting = s.posting := rfl

@[simp] theorem State.setMail_dw (s : State) (i : Fin 8) (m : MailPair) :
    (s.setMail i m).dw = s.dw := rfl

@[simp] theorem State.setMail_rings (s : State) (i : Fin 8) (m : MailPair) :
    (s.setMail i m).rings = s.rings := rfl

@[simp] theorem State.setMail_host (s : State) (i : Fin 8) (m : MailPair) :
    (s.setMail i m).host = s.host := rfl

@[simp] theorem State.setMail_clock (s : State) (i : Fin 8) (m : MailPair) :
    (s.setMail i m).clock = s.clock := rfl

@[simp] theorem State.setMail_power (s : State) (i : Fin 8) (m : MailPair) :
    (s.setMail i m).power = s.power := rfl

@[simp] theorem State.setMail_monitors (s : State) (i : Fin 8) (m : MailPair) :
    (s.setMail i m).monitors = s.monitors := rfl

@[simp] theorem State.setMail_contexts (s : State) (i : Fin 8) (m : MailPair) :
    (s.setMail i m).contexts = s.contexts := rfl

@[simp] theorem State.setMail_sentExp (s : State) (i : Fin 8) (m : MailPair) :
    (s.setMail i m).sentExp = s.sentExp := rfl

@[simp] theorem State.setMail_tallyBlocks (s : State) (i : Fin 8) (m : MailPair) :
    (s.setMail i m).tallyBlocks = s.tallyBlocks := rfl

@[simp] theorem State.setMail_rolls (s : State) (i : Fin 8) (m : MailPair) :
    (s.setMail i m).rolls = s.rolls := rfl

@[simp] theorem State.setMail_buckets (s : State) (i : Fin 8) (m : MailPair) :
    (s.setMail i m).buckets = s.buckets := rfl

@[simp] theorem State.setMail_returns (s : State) (i : Fin 8) (m : MailPair) :
    (s.setMail i m).returns = s.returns := rfl

@[simp] theorem State.setMail_landings (s : State) (i : Fin 8) (m : MailPair) :
    (s.setMail i m).landings = s.landings := rfl

@[simp] theorem State.setMail_moves (s : State) (i : Fin 8) (m : MailPair) :
    (s.setMail i m).moves = s.moves := rfl

@[simp] theorem State.setMail_closes (s : State) (i : Fin 8) (m : MailPair) :
    (s.setMail i m).closes = s.closes := rfl

@[simp] theorem State.setMail_links (s : State) (i : Fin 8) (m : MailPair) :
    (s.setMail i m).links = s.links := rfl

@[simp] theorem State.setMail_snaps (s : State) (i : Fin 8) (m : MailPair) :
    (s.setMail i m).snaps = s.snaps := rfl

@[simp] theorem State.setMail_rests (s : State) (i : Fin 8) (m : MailPair) :
    (s.setMail i m).rests = s.rests := rfl

@[simp] theorem State.setMail_flash (s : State) (i : Fin 8) (m : MailPair) :
    (s.setMail i m).flash = s.flash := rfl

@[simp] theorem State.setMail_sup (s : State) (i : Fin 8) (m : MailPair) :
    (s.setMail i m).sup = s.sup := rfl

@[simp] theorem State.setMail_jtag (s : State) (i : Fin 8) (m : MailPair) :
    (s.setMail i m).jtag = s.jtag := rfl

@[simp] theorem State.setMail_log (s : State) (i : Fin 8) (m : MailPair) :
    (s.setMail i m).log = s.log := rfl

@[simp] theorem State.setMail_out (s : State) (i : Fin 8) (m : MailPair) :
    (s.setMail i m).out = s.out := rfl

@[simp] theorem State.setRing_pending (s : State) (r : Fin 16) (x : Ring) :
    (s.setRing r x).pending = s.pending := rfl

@[simp] theorem State.setRing_supCycles (s : State) (r : Fin 16) (x : Ring) :
    (s.setRing r x).supCycles = s.supCycles := rfl

@[simp] theorem State.setRing_freeCtr (s : State) (r : Fin 16) (x : Ring) :
    (s.setRing r x).freeCtr = s.freeCtr := rfl

@[simp] theorem State.setRing_mem (s : State) (r : Fin 16) (x : Ring) :
    (s.setRing r x).mem = s.mem := rfl

@[simp] theorem State.setRing_stat (s : State) (r : Fin 16) (x : Ring) :
    (s.setRing r x).stat = s.stat := rfl

@[simp] theorem State.setRing_errs (s : State) (r : Fin 16) (x : Ring) :
    (s.setRing r x).errs = s.errs := rfl

@[simp] theorem State.setRing_statErrs (s : State) (r : Fin 16) (x : Ring) :
    (s.setRing r x).statErrs = s.statErrs := rfl

@[simp] theorem State.setRing_od (s : State) (r : Fin 16) (x : Ring) :
    (s.setRing r x).od = s.od := rfl

@[simp] theorem State.setRing_tables (s : State) (r : Fin 16) (x : Ring) :
    (s.setRing r x).tables = s.tables := rfl

@[simp] theorem State.setRing_grid (s : State) (r : Fin 16) (x : Ring) :
    (s.setRing r x).grid = s.grid := rfl

@[simp] theorem State.setRing_frames (s : State) (r : Fin 16) (x : Ring) :
    (s.setRing r x).frames = s.frames := rfl

@[simp] theorem State.setRing_tiles (s : State) (r : Fin 16) (x : Ring) :
    (s.setRing r x).tiles = s.tiles := rfl

@[simp] theorem State.setRing_stall (s : State) (r : Fin 16) (x : Ring) :
    (s.setRing r x).stall = s.stall := rfl

@[simp] theorem State.setRing_undefinedGroups (s : State) (r : Fin 16) (x : Ring) :
    (s.setRing r x).undefinedGroups = s.undefinedGroups := rfl

@[simp] theorem State.setRing_rewritten (s : State) (r : Fin 16) (x : Ring) :
    (s.setRing r x).rewritten = s.rewritten := rfl

@[simp] theorem State.setRing_queue (s : State) (r : Fin 16) (x : Ring) :
    (s.setRing r x).queue = s.queue := rfl

@[simp] theorem State.setRing_queueFresh (s : State) (r : Fin 16) (x : Ring) :
    (s.setRing r x).queueFresh = s.queueFresh := rfl

@[simp] theorem State.setRing_sessions (s : State) (r : Fin 16) (x : Ring) :
    (s.setRing r x).sessions = s.sessions := rfl

@[simp] theorem State.setRing_storing (s : State) (r : Fin 16) (x : Ring) :
    (s.setRing r x).storing = s.storing := rfl

@[simp] theorem State.setRing_can (s : State) (r : Fin 16) (x : Ring) :
    (s.setRing r x).can = s.can := rfl

@[simp] theorem State.setRing_pcs (s : State) (r : Fin 16) (x : Ring) :
    (s.setRing r x).pcs = s.pcs := rfl

@[simp] theorem State.setRing_scrubs (s : State) (r : Fin 16) (x : Ring) :
    (s.setRing r x).scrubs = s.scrubs := rfl

@[simp] theorem State.setRing_tests (s : State) (r : Fin 16) (x : Ring) :
    (s.setRing r x).tests = s.tests := rfl

@[simp] theorem State.setRing_watch (s : State) (r : Fin 16) (x : Ring) :
    (s.setRing r x).watch = s.watch := rfl

@[simp] theorem State.setRing_posts (s : State) (r : Fin 16) (x : Ring) :
    (s.setRing r x).posts = s.posts := rfl

@[simp] theorem State.setRing_posting (s : State) (r : Fin 16) (x : Ring) :
    (s.setRing r x).posting = s.posting := rfl

@[simp] theorem State.setRing_mail (s : State) (r : Fin 16) (x : Ring) :
    (s.setRing r x).mail = s.mail := rfl

@[simp] theorem State.setRing_dw (s : State) (r : Fin 16) (x : Ring) :
    (s.setRing r x).dw = s.dw := rfl

@[simp] theorem State.setRing_host (s : State) (r : Fin 16) (x : Ring) :
    (s.setRing r x).host = s.host := rfl

@[simp] theorem State.setRing_clock (s : State) (r : Fin 16) (x : Ring) :
    (s.setRing r x).clock = s.clock := rfl

@[simp] theorem State.setRing_power (s : State) (r : Fin 16) (x : Ring) :
    (s.setRing r x).power = s.power := rfl

@[simp] theorem State.setRing_monitors (s : State) (r : Fin 16) (x : Ring) :
    (s.setRing r x).monitors = s.monitors := rfl

@[simp] theorem State.setRing_contexts (s : State) (r : Fin 16) (x : Ring) :
    (s.setRing r x).contexts = s.contexts := rfl

@[simp] theorem State.setRing_sentExp (s : State) (r : Fin 16) (x : Ring) :
    (s.setRing r x).sentExp = s.sentExp := rfl

@[simp] theorem State.setRing_tallyBlocks (s : State) (r : Fin 16) (x : Ring) :
    (s.setRing r x).tallyBlocks = s.tallyBlocks := rfl

@[simp] theorem State.setRing_rolls (s : State) (r : Fin 16) (x : Ring) :
    (s.setRing r x).rolls = s.rolls := rfl

@[simp] theorem State.setRing_buckets (s : State) (r : Fin 16) (x : Ring) :
    (s.setRing r x).buckets = s.buckets := rfl

@[simp] theorem State.setRing_returns (s : State) (r : Fin 16) (x : Ring) :
    (s.setRing r x).returns = s.returns := rfl

@[simp] theorem State.setRing_landings (s : State) (r : Fin 16) (x : Ring) :
    (s.setRing r x).landings = s.landings := rfl

@[simp] theorem State.setRing_moves (s : State) (r : Fin 16) (x : Ring) :
    (s.setRing r x).moves = s.moves := rfl

@[simp] theorem State.setRing_closes (s : State) (r : Fin 16) (x : Ring) :
    (s.setRing r x).closes = s.closes := rfl

@[simp] theorem State.setRing_links (s : State) (r : Fin 16) (x : Ring) :
    (s.setRing r x).links = s.links := rfl

@[simp] theorem State.setRing_snaps (s : State) (r : Fin 16) (x : Ring) :
    (s.setRing r x).snaps = s.snaps := rfl

@[simp] theorem State.setRing_rests (s : State) (r : Fin 16) (x : Ring) :
    (s.setRing r x).rests = s.rests := rfl

@[simp] theorem State.setRing_flash (s : State) (r : Fin 16) (x : Ring) :
    (s.setRing r x).flash = s.flash := rfl

@[simp] theorem State.setRing_sup (s : State) (r : Fin 16) (x : Ring) :
    (s.setRing r x).sup = s.sup := rfl

@[simp] theorem State.setRing_jtag (s : State) (r : Fin 16) (x : Ring) :
    (s.setRing r x).jtag = s.jtag := rfl

@[simp] theorem State.setRing_log (s : State) (r : Fin 16) (x : Ring) :
    (s.setRing r x).log = s.log := rfl

@[simp] theorem State.setRing_out (s : State) (r : Fin 16) (x : Ring) :
    (s.setRing r x).out = s.out := rfl

@[simp] theorem State.modRing_pending (s : State) (r : Fin 16) (g : Ring → Ring) :
    (s.modRing r g).pending = s.pending := rfl

@[simp] theorem State.modRing_supCycles (s : State) (r : Fin 16) (g : Ring → Ring) :
    (s.modRing r g).supCycles = s.supCycles := rfl

@[simp] theorem State.modRing_freeCtr (s : State) (r : Fin 16) (g : Ring → Ring) :
    (s.modRing r g).freeCtr = s.freeCtr := rfl

@[simp] theorem State.modRing_mem (s : State) (r : Fin 16) (g : Ring → Ring) :
    (s.modRing r g).mem = s.mem := rfl

@[simp] theorem State.modRing_stat (s : State) (r : Fin 16) (g : Ring → Ring) :
    (s.modRing r g).stat = s.stat := rfl

@[simp] theorem State.modRing_errs (s : State) (r : Fin 16) (g : Ring → Ring) :
    (s.modRing r g).errs = s.errs := rfl

@[simp] theorem State.modRing_statErrs (s : State) (r : Fin 16) (g : Ring → Ring) :
    (s.modRing r g).statErrs = s.statErrs := rfl

@[simp] theorem State.modRing_od (s : State) (r : Fin 16) (g : Ring → Ring) :
    (s.modRing r g).od = s.od := rfl

@[simp] theorem State.modRing_tables (s : State) (r : Fin 16) (g : Ring → Ring) :
    (s.modRing r g).tables = s.tables := rfl

@[simp] theorem State.modRing_grid (s : State) (r : Fin 16) (g : Ring → Ring) :
    (s.modRing r g).grid = s.grid := rfl

@[simp] theorem State.modRing_frames (s : State) (r : Fin 16) (g : Ring → Ring) :
    (s.modRing r g).frames = s.frames := rfl

@[simp] theorem State.modRing_tiles (s : State) (r : Fin 16) (g : Ring → Ring) :
    (s.modRing r g).tiles = s.tiles := rfl

@[simp] theorem State.modRing_stall (s : State) (r : Fin 16) (g : Ring → Ring) :
    (s.modRing r g).stall = s.stall := rfl

@[simp] theorem State.modRing_undefinedGroups (s : State) (r : Fin 16) (g : Ring → Ring) :
    (s.modRing r g).undefinedGroups = s.undefinedGroups := rfl

@[simp] theorem State.modRing_rewritten (s : State) (r : Fin 16) (g : Ring → Ring) :
    (s.modRing r g).rewritten = s.rewritten := rfl

@[simp] theorem State.modRing_queue (s : State) (r : Fin 16) (g : Ring → Ring) :
    (s.modRing r g).queue = s.queue := rfl

@[simp] theorem State.modRing_queueFresh (s : State) (r : Fin 16) (g : Ring → Ring) :
    (s.modRing r g).queueFresh = s.queueFresh := rfl

@[simp] theorem State.modRing_sessions (s : State) (r : Fin 16) (g : Ring → Ring) :
    (s.modRing r g).sessions = s.sessions := rfl

@[simp] theorem State.modRing_storing (s : State) (r : Fin 16) (g : Ring → Ring) :
    (s.modRing r g).storing = s.storing := rfl

@[simp] theorem State.modRing_can (s : State) (r : Fin 16) (g : Ring → Ring) :
    (s.modRing r g).can = s.can := rfl

@[simp] theorem State.modRing_pcs (s : State) (r : Fin 16) (g : Ring → Ring) :
    (s.modRing r g).pcs = s.pcs := rfl

@[simp] theorem State.modRing_scrubs (s : State) (r : Fin 16) (g : Ring → Ring) :
    (s.modRing r g).scrubs = s.scrubs := rfl

@[simp] theorem State.modRing_tests (s : State) (r : Fin 16) (g : Ring → Ring) :
    (s.modRing r g).tests = s.tests := rfl

@[simp] theorem State.modRing_watch (s : State) (r : Fin 16) (g : Ring → Ring) :
    (s.modRing r g).watch = s.watch := rfl

@[simp] theorem State.modRing_posts (s : State) (r : Fin 16) (g : Ring → Ring) :
    (s.modRing r g).posts = s.posts := rfl

@[simp] theorem State.modRing_posting (s : State) (r : Fin 16) (g : Ring → Ring) :
    (s.modRing r g).posting = s.posting := rfl

@[simp] theorem State.modRing_mail (s : State) (r : Fin 16) (g : Ring → Ring) :
    (s.modRing r g).mail = s.mail := rfl

@[simp] theorem State.modRing_dw (s : State) (r : Fin 16) (g : Ring → Ring) :
    (s.modRing r g).dw = s.dw := rfl

@[simp] theorem State.modRing_host (s : State) (r : Fin 16) (g : Ring → Ring) :
    (s.modRing r g).host = s.host := rfl

@[simp] theorem State.modRing_clock (s : State) (r : Fin 16) (g : Ring → Ring) :
    (s.modRing r g).clock = s.clock := rfl

@[simp] theorem State.modRing_power (s : State) (r : Fin 16) (g : Ring → Ring) :
    (s.modRing r g).power = s.power := rfl

@[simp] theorem State.modRing_monitors (s : State) (r : Fin 16) (g : Ring → Ring) :
    (s.modRing r g).monitors = s.monitors := rfl

@[simp] theorem State.modRing_contexts (s : State) (r : Fin 16) (g : Ring → Ring) :
    (s.modRing r g).contexts = s.contexts := rfl

@[simp] theorem State.modRing_sentExp (s : State) (r : Fin 16) (g : Ring → Ring) :
    (s.modRing r g).sentExp = s.sentExp := rfl

@[simp] theorem State.modRing_tallyBlocks (s : State) (r : Fin 16) (g : Ring → Ring) :
    (s.modRing r g).tallyBlocks = s.tallyBlocks := rfl

@[simp] theorem State.modRing_rolls (s : State) (r : Fin 16) (g : Ring → Ring) :
    (s.modRing r g).rolls = s.rolls := rfl

@[simp] theorem State.modRing_buckets (s : State) (r : Fin 16) (g : Ring → Ring) :
    (s.modRing r g).buckets = s.buckets := rfl

@[simp] theorem State.modRing_returns (s : State) (r : Fin 16) (g : Ring → Ring) :
    (s.modRing r g).returns = s.returns := rfl

@[simp] theorem State.modRing_landings (s : State) (r : Fin 16) (g : Ring → Ring) :
    (s.modRing r g).landings = s.landings := rfl

@[simp] theorem State.modRing_moves (s : State) (r : Fin 16) (g : Ring → Ring) :
    (s.modRing r g).moves = s.moves := rfl

@[simp] theorem State.modRing_closes (s : State) (r : Fin 16) (g : Ring → Ring) :
    (s.modRing r g).closes = s.closes := rfl

@[simp] theorem State.modRing_links (s : State) (r : Fin 16) (g : Ring → Ring) :
    (s.modRing r g).links = s.links := rfl

@[simp] theorem State.modRing_snaps (s : State) (r : Fin 16) (g : Ring → Ring) :
    (s.modRing r g).snaps = s.snaps := rfl

@[simp] theorem State.modRing_rests (s : State) (r : Fin 16) (g : Ring → Ring) :
    (s.modRing r g).rests = s.rests := rfl

@[simp] theorem State.modRing_flash (s : State) (r : Fin 16) (g : Ring → Ring) :
    (s.modRing r g).flash = s.flash := rfl

@[simp] theorem State.modRing_sup (s : State) (r : Fin 16) (g : Ring → Ring) :
    (s.modRing r g).sup = s.sup := rfl

@[simp] theorem State.modRing_jtag (s : State) (r : Fin 16) (g : Ring → Ring) :
    (s.modRing r g).jtag = s.jtag := rfl

@[simp] theorem State.modRing_log (s : State) (r : Fin 16) (g : Ring → Ring) :
    (s.modRing r g).log = s.log := rfl

@[simp] theorem State.modRing_out (s : State) (r : Fin 16) (g : Ring → Ring) :
    (s.modRing r g).out = s.out := rfl

@[simp] theorem State.setLink_pending (s : State) (k : Fin 24) (x : LinkSt) :
    (s.setLink k x).pending = s.pending := rfl

@[simp] theorem State.setLink_supCycles (s : State) (k : Fin 24) (x : LinkSt) :
    (s.setLink k x).supCycles = s.supCycles := rfl

@[simp] theorem State.setLink_freeCtr (s : State) (k : Fin 24) (x : LinkSt) :
    (s.setLink k x).freeCtr = s.freeCtr := rfl

@[simp] theorem State.setLink_mem (s : State) (k : Fin 24) (x : LinkSt) :
    (s.setLink k x).mem = s.mem := rfl

@[simp] theorem State.setLink_stat (s : State) (k : Fin 24) (x : LinkSt) :
    (s.setLink k x).stat = s.stat := rfl

@[simp] theorem State.setLink_errs (s : State) (k : Fin 24) (x : LinkSt) :
    (s.setLink k x).errs = s.errs := rfl

@[simp] theorem State.setLink_statErrs (s : State) (k : Fin 24) (x : LinkSt) :
    (s.setLink k x).statErrs = s.statErrs := rfl

@[simp] theorem State.setLink_od (s : State) (k : Fin 24) (x : LinkSt) :
    (s.setLink k x).od = s.od := rfl

@[simp] theorem State.setLink_tables (s : State) (k : Fin 24) (x : LinkSt) :
    (s.setLink k x).tables = s.tables := rfl

@[simp] theorem State.setLink_grid (s : State) (k : Fin 24) (x : LinkSt) :
    (s.setLink k x).grid = s.grid := rfl

@[simp] theorem State.setLink_frames (s : State) (k : Fin 24) (x : LinkSt) :
    (s.setLink k x).frames = s.frames := rfl

@[simp] theorem State.setLink_tiles (s : State) (k : Fin 24) (x : LinkSt) :
    (s.setLink k x).tiles = s.tiles := rfl

@[simp] theorem State.setLink_stall (s : State) (k : Fin 24) (x : LinkSt) :
    (s.setLink k x).stall = s.stall := rfl

@[simp] theorem State.setLink_undefinedGroups (s : State) (k : Fin 24) (x : LinkSt) :
    (s.setLink k x).undefinedGroups = s.undefinedGroups := rfl

@[simp] theorem State.setLink_rewritten (s : State) (k : Fin 24) (x : LinkSt) :
    (s.setLink k x).rewritten = s.rewritten := rfl

@[simp] theorem State.setLink_queue (s : State) (k : Fin 24) (x : LinkSt) :
    (s.setLink k x).queue = s.queue := rfl

@[simp] theorem State.setLink_queueFresh (s : State) (k : Fin 24) (x : LinkSt) :
    (s.setLink k x).queueFresh = s.queueFresh := rfl

@[simp] theorem State.setLink_sessions (s : State) (k : Fin 24) (x : LinkSt) :
    (s.setLink k x).sessions = s.sessions := rfl

@[simp] theorem State.setLink_storing (s : State) (k : Fin 24) (x : LinkSt) :
    (s.setLink k x).storing = s.storing := rfl

@[simp] theorem State.setLink_can (s : State) (k : Fin 24) (x : LinkSt) :
    (s.setLink k x).can = s.can := rfl

@[simp] theorem State.setLink_pcs (s : State) (k : Fin 24) (x : LinkSt) :
    (s.setLink k x).pcs = s.pcs := rfl

@[simp] theorem State.setLink_scrubs (s : State) (k : Fin 24) (x : LinkSt) :
    (s.setLink k x).scrubs = s.scrubs := rfl

@[simp] theorem State.setLink_tests (s : State) (k : Fin 24) (x : LinkSt) :
    (s.setLink k x).tests = s.tests := rfl

@[simp] theorem State.setLink_watch (s : State) (k : Fin 24) (x : LinkSt) :
    (s.setLink k x).watch = s.watch := rfl

@[simp] theorem State.setLink_posts (s : State) (k : Fin 24) (x : LinkSt) :
    (s.setLink k x).posts = s.posts := rfl

@[simp] theorem State.setLink_posting (s : State) (k : Fin 24) (x : LinkSt) :
    (s.setLink k x).posting = s.posting := rfl

@[simp] theorem State.setLink_mail (s : State) (k : Fin 24) (x : LinkSt) :
    (s.setLink k x).mail = s.mail := rfl

@[simp] theorem State.setLink_dw (s : State) (k : Fin 24) (x : LinkSt) :
    (s.setLink k x).dw = s.dw := rfl

@[simp] theorem State.setLink_rings (s : State) (k : Fin 24) (x : LinkSt) :
    (s.setLink k x).rings = s.rings := rfl

@[simp] theorem State.setLink_host (s : State) (k : Fin 24) (x : LinkSt) :
    (s.setLink k x).host = s.host := rfl

@[simp] theorem State.setLink_clock (s : State) (k : Fin 24) (x : LinkSt) :
    (s.setLink k x).clock = s.clock := rfl

@[simp] theorem State.setLink_power (s : State) (k : Fin 24) (x : LinkSt) :
    (s.setLink k x).power = s.power := rfl

@[simp] theorem State.setLink_monitors (s : State) (k : Fin 24) (x : LinkSt) :
    (s.setLink k x).monitors = s.monitors := rfl

@[simp] theorem State.setLink_contexts (s : State) (k : Fin 24) (x : LinkSt) :
    (s.setLink k x).contexts = s.contexts := rfl

@[simp] theorem State.setLink_sentExp (s : State) (k : Fin 24) (x : LinkSt) :
    (s.setLink k x).sentExp = s.sentExp := rfl

@[simp] theorem State.setLink_tallyBlocks (s : State) (k : Fin 24) (x : LinkSt) :
    (s.setLink k x).tallyBlocks = s.tallyBlocks := rfl

@[simp] theorem State.setLink_rolls (s : State) (k : Fin 24) (x : LinkSt) :
    (s.setLink k x).rolls = s.rolls := rfl

@[simp] theorem State.setLink_buckets (s : State) (k : Fin 24) (x : LinkSt) :
    (s.setLink k x).buckets = s.buckets := rfl

@[simp] theorem State.setLink_returns (s : State) (k : Fin 24) (x : LinkSt) :
    (s.setLink k x).returns = s.returns := rfl

@[simp] theorem State.setLink_landings (s : State) (k : Fin 24) (x : LinkSt) :
    (s.setLink k x).landings = s.landings := rfl

@[simp] theorem State.setLink_moves (s : State) (k : Fin 24) (x : LinkSt) :
    (s.setLink k x).moves = s.moves := rfl

@[simp] theorem State.setLink_closes (s : State) (k : Fin 24) (x : LinkSt) :
    (s.setLink k x).closes = s.closes := rfl

@[simp] theorem State.setLink_snaps (s : State) (k : Fin 24) (x : LinkSt) :
    (s.setLink k x).snaps = s.snaps := rfl

@[simp] theorem State.setLink_rests (s : State) (k : Fin 24) (x : LinkSt) :
    (s.setLink k x).rests = s.rests := rfl

@[simp] theorem State.setLink_flash (s : State) (k : Fin 24) (x : LinkSt) :
    (s.setLink k x).flash = s.flash := rfl

@[simp] theorem State.setLink_sup (s : State) (k : Fin 24) (x : LinkSt) :
    (s.setLink k x).sup = s.sup := rfl

@[simp] theorem State.setLink_jtag (s : State) (k : Fin 24) (x : LinkSt) :
    (s.setLink k x).jtag = s.jtag := rfl

@[simp] theorem State.setLink_log (s : State) (k : Fin 24) (x : LinkSt) :
    (s.setLink k x).log = s.log := rfl

@[simp] theorem State.setLink_out (s : State) (k : Fin 24) (x : LinkSt) :
    (s.setLink k x).out = s.out := rfl

@[simp] theorem State.modLink_pending (s : State) (k : Fin 24) (g : LinkSt → LinkSt) :
    (s.modLink k g).pending = s.pending := rfl

@[simp] theorem State.modLink_supCycles (s : State) (k : Fin 24) (g : LinkSt → LinkSt) :
    (s.modLink k g).supCycles = s.supCycles := rfl

@[simp] theorem State.modLink_freeCtr (s : State) (k : Fin 24) (g : LinkSt → LinkSt) :
    (s.modLink k g).freeCtr = s.freeCtr := rfl

@[simp] theorem State.modLink_mem (s : State) (k : Fin 24) (g : LinkSt → LinkSt) :
    (s.modLink k g).mem = s.mem := rfl

@[simp] theorem State.modLink_stat (s : State) (k : Fin 24) (g : LinkSt → LinkSt) :
    (s.modLink k g).stat = s.stat := rfl

@[simp] theorem State.modLink_errs (s : State) (k : Fin 24) (g : LinkSt → LinkSt) :
    (s.modLink k g).errs = s.errs := rfl

@[simp] theorem State.modLink_statErrs (s : State) (k : Fin 24) (g : LinkSt → LinkSt) :
    (s.modLink k g).statErrs = s.statErrs := rfl

@[simp] theorem State.modLink_od (s : State) (k : Fin 24) (g : LinkSt → LinkSt) :
    (s.modLink k g).od = s.od := rfl

@[simp] theorem State.modLink_tables (s : State) (k : Fin 24) (g : LinkSt → LinkSt) :
    (s.modLink k g).tables = s.tables := rfl

@[simp] theorem State.modLink_grid (s : State) (k : Fin 24) (g : LinkSt → LinkSt) :
    (s.modLink k g).grid = s.grid := rfl

@[simp] theorem State.modLink_frames (s : State) (k : Fin 24) (g : LinkSt → LinkSt) :
    (s.modLink k g).frames = s.frames := rfl

@[simp] theorem State.modLink_tiles (s : State) (k : Fin 24) (g : LinkSt → LinkSt) :
    (s.modLink k g).tiles = s.tiles := rfl

@[simp] theorem State.modLink_stall (s : State) (k : Fin 24) (g : LinkSt → LinkSt) :
    (s.modLink k g).stall = s.stall := rfl

@[simp] theorem State.modLink_undefinedGroups (s : State) (k : Fin 24) (g : LinkSt → LinkSt) :
    (s.modLink k g).undefinedGroups = s.undefinedGroups := rfl

@[simp] theorem State.modLink_rewritten (s : State) (k : Fin 24) (g : LinkSt → LinkSt) :
    (s.modLink k g).rewritten = s.rewritten := rfl

@[simp] theorem State.modLink_queue (s : State) (k : Fin 24) (g : LinkSt → LinkSt) :
    (s.modLink k g).queue = s.queue := rfl

@[simp] theorem State.modLink_queueFresh (s : State) (k : Fin 24) (g : LinkSt → LinkSt) :
    (s.modLink k g).queueFresh = s.queueFresh := rfl

@[simp] theorem State.modLink_sessions (s : State) (k : Fin 24) (g : LinkSt → LinkSt) :
    (s.modLink k g).sessions = s.sessions := rfl

@[simp] theorem State.modLink_storing (s : State) (k : Fin 24) (g : LinkSt → LinkSt) :
    (s.modLink k g).storing = s.storing := rfl

@[simp] theorem State.modLink_can (s : State) (k : Fin 24) (g : LinkSt → LinkSt) :
    (s.modLink k g).can = s.can := rfl

@[simp] theorem State.modLink_pcs (s : State) (k : Fin 24) (g : LinkSt → LinkSt) :
    (s.modLink k g).pcs = s.pcs := rfl

@[simp] theorem State.modLink_scrubs (s : State) (k : Fin 24) (g : LinkSt → LinkSt) :
    (s.modLink k g).scrubs = s.scrubs := rfl

@[simp] theorem State.modLink_tests (s : State) (k : Fin 24) (g : LinkSt → LinkSt) :
    (s.modLink k g).tests = s.tests := rfl

@[simp] theorem State.modLink_watch (s : State) (k : Fin 24) (g : LinkSt → LinkSt) :
    (s.modLink k g).watch = s.watch := rfl

@[simp] theorem State.modLink_posts (s : State) (k : Fin 24) (g : LinkSt → LinkSt) :
    (s.modLink k g).posts = s.posts := rfl

@[simp] theorem State.modLink_posting (s : State) (k : Fin 24) (g : LinkSt → LinkSt) :
    (s.modLink k g).posting = s.posting := rfl

@[simp] theorem State.modLink_mail (s : State) (k : Fin 24) (g : LinkSt → LinkSt) :
    (s.modLink k g).mail = s.mail := rfl

@[simp] theorem State.modLink_dw (s : State) (k : Fin 24) (g : LinkSt → LinkSt) :
    (s.modLink k g).dw = s.dw := rfl

@[simp] theorem State.modLink_rings (s : State) (k : Fin 24) (g : LinkSt → LinkSt) :
    (s.modLink k g).rings = s.rings := rfl

@[simp] theorem State.modLink_host (s : State) (k : Fin 24) (g : LinkSt → LinkSt) :
    (s.modLink k g).host = s.host := rfl

@[simp] theorem State.modLink_clock (s : State) (k : Fin 24) (g : LinkSt → LinkSt) :
    (s.modLink k g).clock = s.clock := rfl

@[simp] theorem State.modLink_power (s : State) (k : Fin 24) (g : LinkSt → LinkSt) :
    (s.modLink k g).power = s.power := rfl

@[simp] theorem State.modLink_monitors (s : State) (k : Fin 24) (g : LinkSt → LinkSt) :
    (s.modLink k g).monitors = s.monitors := rfl

@[simp] theorem State.modLink_contexts (s : State) (k : Fin 24) (g : LinkSt → LinkSt) :
    (s.modLink k g).contexts = s.contexts := rfl

@[simp] theorem State.modLink_sentExp (s : State) (k : Fin 24) (g : LinkSt → LinkSt) :
    (s.modLink k g).sentExp = s.sentExp := rfl

@[simp] theorem State.modLink_tallyBlocks (s : State) (k : Fin 24) (g : LinkSt → LinkSt) :
    (s.modLink k g).tallyBlocks = s.tallyBlocks := rfl

@[simp] theorem State.modLink_rolls (s : State) (k : Fin 24) (g : LinkSt → LinkSt) :
    (s.modLink k g).rolls = s.rolls := rfl

@[simp] theorem State.modLink_buckets (s : State) (k : Fin 24) (g : LinkSt → LinkSt) :
    (s.modLink k g).buckets = s.buckets := rfl

@[simp] theorem State.modLink_returns (s : State) (k : Fin 24) (g : LinkSt → LinkSt) :
    (s.modLink k g).returns = s.returns := rfl

@[simp] theorem State.modLink_landings (s : State) (k : Fin 24) (g : LinkSt → LinkSt) :
    (s.modLink k g).landings = s.landings := rfl

@[simp] theorem State.modLink_moves (s : State) (k : Fin 24) (g : LinkSt → LinkSt) :
    (s.modLink k g).moves = s.moves := rfl

@[simp] theorem State.modLink_closes (s : State) (k : Fin 24) (g : LinkSt → LinkSt) :
    (s.modLink k g).closes = s.closes := rfl

@[simp] theorem State.modLink_snaps (s : State) (k : Fin 24) (g : LinkSt → LinkSt) :
    (s.modLink k g).snaps = s.snaps := rfl

@[simp] theorem State.modLink_rests (s : State) (k : Fin 24) (g : LinkSt → LinkSt) :
    (s.modLink k g).rests = s.rests := rfl

@[simp] theorem State.modLink_flash (s : State) (k : Fin 24) (g : LinkSt → LinkSt) :
    (s.modLink k g).flash = s.flash := rfl

@[simp] theorem State.modLink_sup (s : State) (k : Fin 24) (g : LinkSt → LinkSt) :
    (s.modLink k g).sup = s.sup := rfl

@[simp] theorem State.modLink_jtag (s : State) (k : Fin 24) (g : LinkSt → LinkSt) :
    (s.modLink k g).jtag = s.jtag := rfl

@[simp] theorem State.modLink_log (s : State) (k : Fin 24) (g : LinkSt → LinkSt) :
    (s.modLink k g).log = s.log := rfl

@[simp] theorem State.modLink_out (s : State) (k : Fin 24) (g : LinkSt → LinkSt) :
    (s.modLink k g).out = s.out := rfl

@[simp] theorem State.modPc_pending (s : State) (i : Nat) (g : PseudoChannel → PseudoChannel) :
    (s.modPc i g).pending = s.pending := rfl

@[simp] theorem State.modPc_supCycles (s : State) (i : Nat) (g : PseudoChannel → PseudoChannel) :
    (s.modPc i g).supCycles = s.supCycles := rfl

@[simp] theorem State.modPc_freeCtr (s : State) (i : Nat) (g : PseudoChannel → PseudoChannel) :
    (s.modPc i g).freeCtr = s.freeCtr := rfl

@[simp] theorem State.modPc_mem (s : State) (i : Nat) (g : PseudoChannel → PseudoChannel) :
    (s.modPc i g).mem = s.mem := rfl

@[simp] theorem State.modPc_stat (s : State) (i : Nat) (g : PseudoChannel → PseudoChannel) :
    (s.modPc i g).stat = s.stat := rfl

@[simp] theorem State.modPc_errs (s : State) (i : Nat) (g : PseudoChannel → PseudoChannel) :
    (s.modPc i g).errs = s.errs := rfl

@[simp] theorem State.modPc_statErrs (s : State) (i : Nat) (g : PseudoChannel → PseudoChannel) :
    (s.modPc i g).statErrs = s.statErrs := rfl

@[simp] theorem State.modPc_od (s : State) (i : Nat) (g : PseudoChannel → PseudoChannel) :
    (s.modPc i g).od = s.od := rfl

@[simp] theorem State.modPc_tables (s : State) (i : Nat) (g : PseudoChannel → PseudoChannel) :
    (s.modPc i g).tables = s.tables := rfl

@[simp] theorem State.modPc_grid (s : State) (i : Nat) (g : PseudoChannel → PseudoChannel) :
    (s.modPc i g).grid = s.grid := rfl

@[simp] theorem State.modPc_frames (s : State) (i : Nat) (g : PseudoChannel → PseudoChannel) :
    (s.modPc i g).frames = s.frames := rfl

@[simp] theorem State.modPc_tiles (s : State) (i : Nat) (g : PseudoChannel → PseudoChannel) :
    (s.modPc i g).tiles = s.tiles := rfl

@[simp] theorem State.modPc_stall (s : State) (i : Nat) (g : PseudoChannel → PseudoChannel) :
    (s.modPc i g).stall = s.stall := rfl

@[simp] theorem State.modPc_undefinedGroups (s : State) (i : Nat) (g : PseudoChannel → PseudoChannel) :
    (s.modPc i g).undefinedGroups = s.undefinedGroups := rfl

@[simp] theorem State.modPc_rewritten (s : State) (i : Nat) (g : PseudoChannel → PseudoChannel) :
    (s.modPc i g).rewritten = s.rewritten := rfl

@[simp] theorem State.modPc_queue (s : State) (i : Nat) (g : PseudoChannel → PseudoChannel) :
    (s.modPc i g).queue = s.queue := rfl

@[simp] theorem State.modPc_queueFresh (s : State) (i : Nat) (g : PseudoChannel → PseudoChannel) :
    (s.modPc i g).queueFresh = s.queueFresh := rfl

@[simp] theorem State.modPc_sessions (s : State) (i : Nat) (g : PseudoChannel → PseudoChannel) :
    (s.modPc i g).sessions = s.sessions := rfl

@[simp] theorem State.modPc_storing (s : State) (i : Nat) (g : PseudoChannel → PseudoChannel) :
    (s.modPc i g).storing = s.storing := rfl

@[simp] theorem State.modPc_can (s : State) (i : Nat) (g : PseudoChannel → PseudoChannel) :
    (s.modPc i g).can = s.can := rfl

@[simp] theorem State.modPc_scrubs (s : State) (i : Nat) (g : PseudoChannel → PseudoChannel) :
    (s.modPc i g).scrubs = s.scrubs := rfl

@[simp] theorem State.modPc_tests (s : State) (i : Nat) (g : PseudoChannel → PseudoChannel) :
    (s.modPc i g).tests = s.tests := rfl

@[simp] theorem State.modPc_watch (s : State) (i : Nat) (g : PseudoChannel → PseudoChannel) :
    (s.modPc i g).watch = s.watch := rfl

@[simp] theorem State.modPc_posts (s : State) (i : Nat) (g : PseudoChannel → PseudoChannel) :
    (s.modPc i g).posts = s.posts := rfl

@[simp] theorem State.modPc_posting (s : State) (i : Nat) (g : PseudoChannel → PseudoChannel) :
    (s.modPc i g).posting = s.posting := rfl

@[simp] theorem State.modPc_mail (s : State) (i : Nat) (g : PseudoChannel → PseudoChannel) :
    (s.modPc i g).mail = s.mail := rfl

@[simp] theorem State.modPc_dw (s : State) (i : Nat) (g : PseudoChannel → PseudoChannel) :
    (s.modPc i g).dw = s.dw := rfl

@[simp] theorem State.modPc_rings (s : State) (i : Nat) (g : PseudoChannel → PseudoChannel) :
    (s.modPc i g).rings = s.rings := rfl

@[simp] theorem State.modPc_host (s : State) (i : Nat) (g : PseudoChannel → PseudoChannel) :
    (s.modPc i g).host = s.host := rfl

@[simp] theorem State.modPc_clock (s : State) (i : Nat) (g : PseudoChannel → PseudoChannel) :
    (s.modPc i g).clock = s.clock := rfl

@[simp] theorem State.modPc_power (s : State) (i : Nat) (g : PseudoChannel → PseudoChannel) :
    (s.modPc i g).power = s.power := rfl

@[simp] theorem State.modPc_monitors (s : State) (i : Nat) (g : PseudoChannel → PseudoChannel) :
    (s.modPc i g).monitors = s.monitors := rfl

@[simp] theorem State.modPc_contexts (s : State) (i : Nat) (g : PseudoChannel → PseudoChannel) :
    (s.modPc i g).contexts = s.contexts := rfl

@[simp] theorem State.modPc_sentExp (s : State) (i : Nat) (g : PseudoChannel → PseudoChannel) :
    (s.modPc i g).sentExp = s.sentExp := rfl

@[simp] theorem State.modPc_tallyBlocks (s : State) (i : Nat) (g : PseudoChannel → PseudoChannel) :
    (s.modPc i g).tallyBlocks = s.tallyBlocks := rfl

@[simp] theorem State.modPc_rolls (s : State) (i : Nat) (g : PseudoChannel → PseudoChannel) :
    (s.modPc i g).rolls = s.rolls := rfl

@[simp] theorem State.modPc_buckets (s : State) (i : Nat) (g : PseudoChannel → PseudoChannel) :
    (s.modPc i g).buckets = s.buckets := rfl

@[simp] theorem State.modPc_returns (s : State) (i : Nat) (g : PseudoChannel → PseudoChannel) :
    (s.modPc i g).returns = s.returns := rfl

@[simp] theorem State.modPc_landings (s : State) (i : Nat) (g : PseudoChannel → PseudoChannel) :
    (s.modPc i g).landings = s.landings := rfl

@[simp] theorem State.modPc_moves (s : State) (i : Nat) (g : PseudoChannel → PseudoChannel) :
    (s.modPc i g).moves = s.moves := rfl

@[simp] theorem State.modPc_closes (s : State) (i : Nat) (g : PseudoChannel → PseudoChannel) :
    (s.modPc i g).closes = s.closes := rfl

@[simp] theorem State.modPc_links (s : State) (i : Nat) (g : PseudoChannel → PseudoChannel) :
    (s.modPc i g).links = s.links := rfl

@[simp] theorem State.modPc_snaps (s : State) (i : Nat) (g : PseudoChannel → PseudoChannel) :
    (s.modPc i g).snaps = s.snaps := rfl

@[simp] theorem State.modPc_rests (s : State) (i : Nat) (g : PseudoChannel → PseudoChannel) :
    (s.modPc i g).rests = s.rests := rfl

@[simp] theorem State.modPc_flash (s : State) (i : Nat) (g : PseudoChannel → PseudoChannel) :
    (s.modPc i g).flash = s.flash := rfl

@[simp] theorem State.modPc_sup (s : State) (i : Nat) (g : PseudoChannel → PseudoChannel) :
    (s.modPc i g).sup = s.sup := rfl

@[simp] theorem State.modPc_jtag (s : State) (i : Nat) (g : PseudoChannel → PseudoChannel) :
    (s.modPc i g).jtag = s.jtag := rfl

@[simp] theorem State.modPc_log (s : State) (i : Nat) (g : PseudoChannel → PseudoChannel) :
    (s.modPc i g).log = s.log := rfl

@[simp] theorem State.modPc_out (s : State) (i : Nat) (g : PseudoChannel → PseudoChannel) :
    (s.modPc i g).out = s.out := rfl

@[simp] theorem State.setPoint_pending (s : State) (i : Nat) (p : MonPoint) :
    (s.setPoint i p).pending = s.pending := rfl

@[simp] theorem State.setPoint_supCycles (s : State) (i : Nat) (p : MonPoint) :
    (s.setPoint i p).supCycles = s.supCycles := rfl

@[simp] theorem State.setPoint_freeCtr (s : State) (i : Nat) (p : MonPoint) :
    (s.setPoint i p).freeCtr = s.freeCtr := rfl

@[simp] theorem State.setPoint_mem (s : State) (i : Nat) (p : MonPoint) :
    (s.setPoint i p).mem = s.mem := rfl

@[simp] theorem State.setPoint_stat (s : State) (i : Nat) (p : MonPoint) :
    (s.setPoint i p).stat = s.stat := rfl

@[simp] theorem State.setPoint_errs (s : State) (i : Nat) (p : MonPoint) :
    (s.setPoint i p).errs = s.errs := rfl

@[simp] theorem State.setPoint_statErrs (s : State) (i : Nat) (p : MonPoint) :
    (s.setPoint i p).statErrs = s.statErrs := rfl

@[simp] theorem State.setPoint_od (s : State) (i : Nat) (p : MonPoint) :
    (s.setPoint i p).od = s.od := rfl

@[simp] theorem State.setPoint_tables (s : State) (i : Nat) (p : MonPoint) :
    (s.setPoint i p).tables = s.tables := rfl

@[simp] theorem State.setPoint_grid (s : State) (i : Nat) (p : MonPoint) :
    (s.setPoint i p).grid = s.grid := rfl

@[simp] theorem State.setPoint_frames (s : State) (i : Nat) (p : MonPoint) :
    (s.setPoint i p).frames = s.frames := rfl

@[simp] theorem State.setPoint_tiles (s : State) (i : Nat) (p : MonPoint) :
    (s.setPoint i p).tiles = s.tiles := rfl

@[simp] theorem State.setPoint_stall (s : State) (i : Nat) (p : MonPoint) :
    (s.setPoint i p).stall = s.stall := rfl

@[simp] theorem State.setPoint_undefinedGroups (s : State) (i : Nat) (p : MonPoint) :
    (s.setPoint i p).undefinedGroups = s.undefinedGroups := rfl

@[simp] theorem State.setPoint_rewritten (s : State) (i : Nat) (p : MonPoint) :
    (s.setPoint i p).rewritten = s.rewritten := rfl

@[simp] theorem State.setPoint_queue (s : State) (i : Nat) (p : MonPoint) :
    (s.setPoint i p).queue = s.queue := rfl

@[simp] theorem State.setPoint_queueFresh (s : State) (i : Nat) (p : MonPoint) :
    (s.setPoint i p).queueFresh = s.queueFresh := rfl

@[simp] theorem State.setPoint_sessions (s : State) (i : Nat) (p : MonPoint) :
    (s.setPoint i p).sessions = s.sessions := rfl

@[simp] theorem State.setPoint_storing (s : State) (i : Nat) (p : MonPoint) :
    (s.setPoint i p).storing = s.storing := rfl

@[simp] theorem State.setPoint_can (s : State) (i : Nat) (p : MonPoint) :
    (s.setPoint i p).can = s.can := rfl

@[simp] theorem State.setPoint_pcs (s : State) (i : Nat) (p : MonPoint) :
    (s.setPoint i p).pcs = s.pcs := rfl

@[simp] theorem State.setPoint_scrubs (s : State) (i : Nat) (p : MonPoint) :
    (s.setPoint i p).scrubs = s.scrubs := rfl

@[simp] theorem State.setPoint_tests (s : State) (i : Nat) (p : MonPoint) :
    (s.setPoint i p).tests = s.tests := rfl

@[simp] theorem State.setPoint_watch (s : State) (i : Nat) (p : MonPoint) :
    (s.setPoint i p).watch = s.watch := rfl

@[simp] theorem State.setPoint_posts (s : State) (i : Nat) (p : MonPoint) :
    (s.setPoint i p).posts = s.posts := rfl

@[simp] theorem State.setPoint_posting (s : State) (i : Nat) (p : MonPoint) :
    (s.setPoint i p).posting = s.posting := rfl

@[simp] theorem State.setPoint_mail (s : State) (i : Nat) (p : MonPoint) :
    (s.setPoint i p).mail = s.mail := rfl

@[simp] theorem State.setPoint_dw (s : State) (i : Nat) (p : MonPoint) :
    (s.setPoint i p).dw = s.dw := rfl

@[simp] theorem State.setPoint_rings (s : State) (i : Nat) (p : MonPoint) :
    (s.setPoint i p).rings = s.rings := rfl

@[simp] theorem State.setPoint_host (s : State) (i : Nat) (p : MonPoint) :
    (s.setPoint i p).host = s.host := rfl

@[simp] theorem State.setPoint_clock (s : State) (i : Nat) (p : MonPoint) :
    (s.setPoint i p).clock = s.clock := rfl

@[simp] theorem State.setPoint_power (s : State) (i : Nat) (p : MonPoint) :
    (s.setPoint i p).power = s.power := rfl

@[simp] theorem State.setPoint_contexts (s : State) (i : Nat) (p : MonPoint) :
    (s.setPoint i p).contexts = s.contexts := rfl

@[simp] theorem State.setPoint_sentExp (s : State) (i : Nat) (p : MonPoint) :
    (s.setPoint i p).sentExp = s.sentExp := rfl

@[simp] theorem State.setPoint_tallyBlocks (s : State) (i : Nat) (p : MonPoint) :
    (s.setPoint i p).tallyBlocks = s.tallyBlocks := rfl

@[simp] theorem State.setPoint_rolls (s : State) (i : Nat) (p : MonPoint) :
    (s.setPoint i p).rolls = s.rolls := rfl

@[simp] theorem State.setPoint_buckets (s : State) (i : Nat) (p : MonPoint) :
    (s.setPoint i p).buckets = s.buckets := rfl

@[simp] theorem State.setPoint_returns (s : State) (i : Nat) (p : MonPoint) :
    (s.setPoint i p).returns = s.returns := rfl

@[simp] theorem State.setPoint_landings (s : State) (i : Nat) (p : MonPoint) :
    (s.setPoint i p).landings = s.landings := rfl

@[simp] theorem State.setPoint_moves (s : State) (i : Nat) (p : MonPoint) :
    (s.setPoint i p).moves = s.moves := rfl

@[simp] theorem State.setPoint_closes (s : State) (i : Nat) (p : MonPoint) :
    (s.setPoint i p).closes = s.closes := rfl

@[simp] theorem State.setPoint_links (s : State) (i : Nat) (p : MonPoint) :
    (s.setPoint i p).links = s.links := rfl

@[simp] theorem State.setPoint_snaps (s : State) (i : Nat) (p : MonPoint) :
    (s.setPoint i p).snaps = s.snaps := rfl

@[simp] theorem State.setPoint_rests (s : State) (i : Nat) (p : MonPoint) :
    (s.setPoint i p).rests = s.rests := rfl

@[simp] theorem State.setPoint_flash (s : State) (i : Nat) (p : MonPoint) :
    (s.setPoint i p).flash = s.flash := rfl

@[simp] theorem State.setPoint_sup (s : State) (i : Nat) (p : MonPoint) :
    (s.setPoint i p).sup = s.sup := rfl

@[simp] theorem State.setPoint_jtag (s : State) (i : Nat) (p : MonPoint) :
    (s.setPoint i p).jtag = s.jtag := rfl

@[simp] theorem State.setPoint_log (s : State) (i : Nat) (p : MonPoint) :
    (s.setPoint i p).log = s.log := rfl

@[simp] theorem State.setPoint_out (s : State) (i : Nat) (p : MonPoint) :
    (s.setPoint i p).out = s.out := rfl

@[simp] theorem State.modPower_pending (s : State) (g : PowerState → PowerState) :
    (s.modPower g).pending = s.pending := rfl

@[simp] theorem State.modPower_supCycles (s : State) (g : PowerState → PowerState) :
    (s.modPower g).supCycles = s.supCycles := rfl

@[simp] theorem State.modPower_freeCtr (s : State) (g : PowerState → PowerState) :
    (s.modPower g).freeCtr = s.freeCtr := rfl

@[simp] theorem State.modPower_mem (s : State) (g : PowerState → PowerState) :
    (s.modPower g).mem = s.mem := rfl

@[simp] theorem State.modPower_stat (s : State) (g : PowerState → PowerState) :
    (s.modPower g).stat = s.stat := rfl

@[simp] theorem State.modPower_errs (s : State) (g : PowerState → PowerState) :
    (s.modPower g).errs = s.errs := rfl

@[simp] theorem State.modPower_statErrs (s : State) (g : PowerState → PowerState) :
    (s.modPower g).statErrs = s.statErrs := rfl

@[simp] theorem State.modPower_od (s : State) (g : PowerState → PowerState) :
    (s.modPower g).od = s.od := rfl

@[simp] theorem State.modPower_tables (s : State) (g : PowerState → PowerState) :
    (s.modPower g).tables = s.tables := rfl

@[simp] theorem State.modPower_grid (s : State) (g : PowerState → PowerState) :
    (s.modPower g).grid = s.grid := rfl

@[simp] theorem State.modPower_frames (s : State) (g : PowerState → PowerState) :
    (s.modPower g).frames = s.frames := rfl

@[simp] theorem State.modPower_tiles (s : State) (g : PowerState → PowerState) :
    (s.modPower g).tiles = s.tiles := rfl

@[simp] theorem State.modPower_stall (s : State) (g : PowerState → PowerState) :
    (s.modPower g).stall = s.stall := rfl

@[simp] theorem State.modPower_undefinedGroups (s : State) (g : PowerState → PowerState) :
    (s.modPower g).undefinedGroups = s.undefinedGroups := rfl

@[simp] theorem State.modPower_rewritten (s : State) (g : PowerState → PowerState) :
    (s.modPower g).rewritten = s.rewritten := rfl

@[simp] theorem State.modPower_queue (s : State) (g : PowerState → PowerState) :
    (s.modPower g).queue = s.queue := rfl

@[simp] theorem State.modPower_queueFresh (s : State) (g : PowerState → PowerState) :
    (s.modPower g).queueFresh = s.queueFresh := rfl

@[simp] theorem State.modPower_sessions (s : State) (g : PowerState → PowerState) :
    (s.modPower g).sessions = s.sessions := rfl

@[simp] theorem State.modPower_storing (s : State) (g : PowerState → PowerState) :
    (s.modPower g).storing = s.storing := rfl

@[simp] theorem State.modPower_can (s : State) (g : PowerState → PowerState) :
    (s.modPower g).can = s.can := rfl

@[simp] theorem State.modPower_pcs (s : State) (g : PowerState → PowerState) :
    (s.modPower g).pcs = s.pcs := rfl

@[simp] theorem State.modPower_scrubs (s : State) (g : PowerState → PowerState) :
    (s.modPower g).scrubs = s.scrubs := rfl

@[simp] theorem State.modPower_tests (s : State) (g : PowerState → PowerState) :
    (s.modPower g).tests = s.tests := rfl

@[simp] theorem State.modPower_watch (s : State) (g : PowerState → PowerState) :
    (s.modPower g).watch = s.watch := rfl

@[simp] theorem State.modPower_posts (s : State) (g : PowerState → PowerState) :
    (s.modPower g).posts = s.posts := rfl

@[simp] theorem State.modPower_posting (s : State) (g : PowerState → PowerState) :
    (s.modPower g).posting = s.posting := rfl

@[simp] theorem State.modPower_mail (s : State) (g : PowerState → PowerState) :
    (s.modPower g).mail = s.mail := rfl

@[simp] theorem State.modPower_dw (s : State) (g : PowerState → PowerState) :
    (s.modPower g).dw = s.dw := rfl

@[simp] theorem State.modPower_rings (s : State) (g : PowerState → PowerState) :
    (s.modPower g).rings = s.rings := rfl

@[simp] theorem State.modPower_host (s : State) (g : PowerState → PowerState) :
    (s.modPower g).host = s.host := rfl

@[simp] theorem State.modPower_clock (s : State) (g : PowerState → PowerState) :
    (s.modPower g).clock = s.clock := rfl

@[simp] theorem State.modPower_monitors (s : State) (g : PowerState → PowerState) :
    (s.modPower g).monitors = s.monitors := rfl

@[simp] theorem State.modPower_contexts (s : State) (g : PowerState → PowerState) :
    (s.modPower g).contexts = s.contexts := rfl

@[simp] theorem State.modPower_sentExp (s : State) (g : PowerState → PowerState) :
    (s.modPower g).sentExp = s.sentExp := rfl

@[simp] theorem State.modPower_tallyBlocks (s : State) (g : PowerState → PowerState) :
    (s.modPower g).tallyBlocks = s.tallyBlocks := rfl

@[simp] theorem State.modPower_rolls (s : State) (g : PowerState → PowerState) :
    (s.modPower g).rolls = s.rolls := rfl

@[simp] theorem State.modPower_buckets (s : State) (g : PowerState → PowerState) :
    (s.modPower g).buckets = s.buckets := rfl

@[simp] theorem State.modPower_returns (s : State) (g : PowerState → PowerState) :
    (s.modPower g).returns = s.returns := rfl

@[simp] theorem State.modPower_landings (s : State) (g : PowerState → PowerState) :
    (s.modPower g).landings = s.landings := rfl

@[simp] theorem State.modPower_moves (s : State) (g : PowerState → PowerState) :
    (s.modPower g).moves = s.moves := rfl

@[simp] theorem State.modPower_closes (s : State) (g : PowerState → PowerState) :
    (s.modPower g).closes = s.closes := rfl

@[simp] theorem State.modPower_links (s : State) (g : PowerState → PowerState) :
    (s.modPower g).links = s.links := rfl

@[simp] theorem State.modPower_snaps (s : State) (g : PowerState → PowerState) :
    (s.modPower g).snaps = s.snaps := rfl

@[simp] theorem State.modPower_rests (s : State) (g : PowerState → PowerState) :
    (s.modPower g).rests = s.rests := rfl

@[simp] theorem State.modPower_flash (s : State) (g : PowerState → PowerState) :
    (s.modPower g).flash = s.flash := rfl

@[simp] theorem State.modPower_sup (s : State) (g : PowerState → PowerState) :
    (s.modPower g).sup = s.sup := rfl

@[simp] theorem State.modPower_jtag (s : State) (g : PowerState → PowerState) :
    (s.modPower g).jtag = s.jtag := rfl

@[simp] theorem State.modPower_log (s : State) (g : PowerState → PowerState) :
    (s.modPower g).log = s.log := rfl

@[simp] theorem State.modPower_out (s : State) (g : PowerState → PowerState) :
    (s.modPower g).out = s.out := rfl

@[simp] theorem State.modScrub_pending (s : State) (u : Fin 5) (g : Scrub → Scrub) :
    (s.modScrub u g).pending = s.pending := rfl

@[simp] theorem State.modScrub_supCycles (s : State) (u : Fin 5) (g : Scrub → Scrub) :
    (s.modScrub u g).supCycles = s.supCycles := rfl

@[simp] theorem State.modScrub_freeCtr (s : State) (u : Fin 5) (g : Scrub → Scrub) :
    (s.modScrub u g).freeCtr = s.freeCtr := rfl

@[simp] theorem State.modScrub_mem (s : State) (u : Fin 5) (g : Scrub → Scrub) :
    (s.modScrub u g).mem = s.mem := rfl

@[simp] theorem State.modScrub_stat (s : State) (u : Fin 5) (g : Scrub → Scrub) :
    (s.modScrub u g).stat = s.stat := rfl

@[simp] theorem State.modScrub_errs (s : State) (u : Fin 5) (g : Scrub → Scrub) :
    (s.modScrub u g).errs = s.errs := rfl

@[simp] theorem State.modScrub_statErrs (s : State) (u : Fin 5) (g : Scrub → Scrub) :
    (s.modScrub u g).statErrs = s.statErrs := rfl

@[simp] theorem State.modScrub_od (s : State) (u : Fin 5) (g : Scrub → Scrub) :
    (s.modScrub u g).od = s.od := rfl

@[simp] theorem State.modScrub_tables (s : State) (u : Fin 5) (g : Scrub → Scrub) :
    (s.modScrub u g).tables = s.tables := rfl

@[simp] theorem State.modScrub_grid (s : State) (u : Fin 5) (g : Scrub → Scrub) :
    (s.modScrub u g).grid = s.grid := rfl

@[simp] theorem State.modScrub_frames (s : State) (u : Fin 5) (g : Scrub → Scrub) :
    (s.modScrub u g).frames = s.frames := rfl

@[simp] theorem State.modScrub_tiles (s : State) (u : Fin 5) (g : Scrub → Scrub) :
    (s.modScrub u g).tiles = s.tiles := rfl

@[simp] theorem State.modScrub_stall (s : State) (u : Fin 5) (g : Scrub → Scrub) :
    (s.modScrub u g).stall = s.stall := rfl

@[simp] theorem State.modScrub_undefinedGroups (s : State) (u : Fin 5) (g : Scrub → Scrub) :
    (s.modScrub u g).undefinedGroups = s.undefinedGroups := rfl

@[simp] theorem State.modScrub_rewritten (s : State) (u : Fin 5) (g : Scrub → Scrub) :
    (s.modScrub u g).rewritten = s.rewritten := rfl

@[simp] theorem State.modScrub_queue (s : State) (u : Fin 5) (g : Scrub → Scrub) :
    (s.modScrub u g).queue = s.queue := rfl

@[simp] theorem State.modScrub_queueFresh (s : State) (u : Fin 5) (g : Scrub → Scrub) :
    (s.modScrub u g).queueFresh = s.queueFresh := rfl

@[simp] theorem State.modScrub_sessions (s : State) (u : Fin 5) (g : Scrub → Scrub) :
    (s.modScrub u g).sessions = s.sessions := rfl

@[simp] theorem State.modScrub_storing (s : State) (u : Fin 5) (g : Scrub → Scrub) :
    (s.modScrub u g).storing = s.storing := rfl

@[simp] theorem State.modScrub_can (s : State) (u : Fin 5) (g : Scrub → Scrub) :
    (s.modScrub u g).can = s.can := rfl

@[simp] theorem State.modScrub_pcs (s : State) (u : Fin 5) (g : Scrub → Scrub) :
    (s.modScrub u g).pcs = s.pcs := rfl

@[simp] theorem State.modScrub_tests (s : State) (u : Fin 5) (g : Scrub → Scrub) :
    (s.modScrub u g).tests = s.tests := rfl

@[simp] theorem State.modScrub_watch (s : State) (u : Fin 5) (g : Scrub → Scrub) :
    (s.modScrub u g).watch = s.watch := rfl

@[simp] theorem State.modScrub_posts (s : State) (u : Fin 5) (g : Scrub → Scrub) :
    (s.modScrub u g).posts = s.posts := rfl

@[simp] theorem State.modScrub_posting (s : State) (u : Fin 5) (g : Scrub → Scrub) :
    (s.modScrub u g).posting = s.posting := rfl

@[simp] theorem State.modScrub_mail (s : State) (u : Fin 5) (g : Scrub → Scrub) :
    (s.modScrub u g).mail = s.mail := rfl

@[simp] theorem State.modScrub_dw (s : State) (u : Fin 5) (g : Scrub → Scrub) :
    (s.modScrub u g).dw = s.dw := rfl

@[simp] theorem State.modScrub_rings (s : State) (u : Fin 5) (g : Scrub → Scrub) :
    (s.modScrub u g).rings = s.rings := rfl

@[simp] theorem State.modScrub_host (s : State) (u : Fin 5) (g : Scrub → Scrub) :
    (s.modScrub u g).host = s.host := rfl

@[simp] theorem State.modScrub_clock (s : State) (u : Fin 5) (g : Scrub → Scrub) :
    (s.modScrub u g).clock = s.clock := rfl

@[simp] theorem State.modScrub_power (s : State) (u : Fin 5) (g : Scrub → Scrub) :
    (s.modScrub u g).power = s.power := rfl

@[simp] theorem State.modScrub_monitors (s : State) (u : Fin 5) (g : Scrub → Scrub) :
    (s.modScrub u g).monitors = s.monitors := rfl

@[simp] theorem State.modScrub_contexts (s : State) (u : Fin 5) (g : Scrub → Scrub) :
    (s.modScrub u g).contexts = s.contexts := rfl

@[simp] theorem State.modScrub_sentExp (s : State) (u : Fin 5) (g : Scrub → Scrub) :
    (s.modScrub u g).sentExp = s.sentExp := rfl

@[simp] theorem State.modScrub_tallyBlocks (s : State) (u : Fin 5) (g : Scrub → Scrub) :
    (s.modScrub u g).tallyBlocks = s.tallyBlocks := rfl

@[simp] theorem State.modScrub_rolls (s : State) (u : Fin 5) (g : Scrub → Scrub) :
    (s.modScrub u g).rolls = s.rolls := rfl

@[simp] theorem State.modScrub_buckets (s : State) (u : Fin 5) (g : Scrub → Scrub) :
    (s.modScrub u g).buckets = s.buckets := rfl

@[simp] theorem State.modScrub_returns (s : State) (u : Fin 5) (g : Scrub → Scrub) :
    (s.modScrub u g).returns = s.returns := rfl

@[simp] theorem State.modScrub_landings (s : State) (u : Fin 5) (g : Scrub → Scrub) :
    (s.modScrub u g).landings = s.landings := rfl

@[simp] theorem State.modScrub_moves (s : State) (u : Fin 5) (g : Scrub → Scrub) :
    (s.modScrub u g).moves = s.moves := rfl

@[simp] theorem State.modScrub_closes (s : State) (u : Fin 5) (g : Scrub → Scrub) :
    (s.modScrub u g).closes = s.closes := rfl

@[simp] theorem State.modScrub_links (s : State) (u : Fin 5) (g : Scrub → Scrub) :
    (s.modScrub u g).links = s.links := rfl

@[simp] theorem State.modScrub_snaps (s : State) (u : Fin 5) (g : Scrub → Scrub) :
    (s.modScrub u g).snaps = s.snaps := rfl

@[simp] theorem State.modScrub_rests (s : State) (u : Fin 5) (g : Scrub → Scrub) :
    (s.modScrub u g).rests = s.rests := rfl

@[simp] theorem State.modScrub_flash (s : State) (u : Fin 5) (g : Scrub → Scrub) :
    (s.modScrub u g).flash = s.flash := rfl

@[simp] theorem State.modScrub_sup (s : State) (u : Fin 5) (g : Scrub → Scrub) :
    (s.modScrub u g).sup = s.sup := rfl

@[simp] theorem State.modScrub_jtag (s : State) (u : Fin 5) (g : Scrub → Scrub) :
    (s.modScrub u g).jtag = s.jtag := rfl

@[simp] theorem State.modScrub_log (s : State) (u : Fin 5) (g : Scrub → Scrub) :
    (s.modScrub u g).log = s.log := rfl

@[simp] theorem State.modScrub_out (s : State) (u : Fin 5) (g : Scrub → Scrub) :
    (s.modScrub u g).out = s.out := rfl

@[simp] theorem State.modMove_pending (s : State) (j : Fin 16) (e : Nat) (g : MoveEngine → MoveEngine) :
    (s.modMove j e g).pending = s.pending := rfl

@[simp] theorem State.modMove_supCycles (s : State) (j : Fin 16) (e : Nat) (g : MoveEngine → MoveEngine) :
    (s.modMove j e g).supCycles = s.supCycles := rfl

@[simp] theorem State.modMove_freeCtr (s : State) (j : Fin 16) (e : Nat) (g : MoveEngine → MoveEngine) :
    (s.modMove j e g).freeCtr = s.freeCtr := rfl

@[simp] theorem State.modMove_mem (s : State) (j : Fin 16) (e : Nat) (g : MoveEngine → MoveEngine) :
    (s.modMove j e g).mem = s.mem := rfl

@[simp] theorem State.modMove_stat (s : State) (j : Fin 16) (e : Nat) (g : MoveEngine → MoveEngine) :
    (s.modMove j e g).stat = s.stat := rfl

@[simp] theorem State.modMove_errs (s : State) (j : Fin 16) (e : Nat) (g : MoveEngine → MoveEngine) :
    (s.modMove j e g).errs = s.errs := rfl

@[simp] theorem State.modMove_statErrs (s : State) (j : Fin 16) (e : Nat) (g : MoveEngine → MoveEngine) :
    (s.modMove j e g).statErrs = s.statErrs := rfl

@[simp] theorem State.modMove_od (s : State) (j : Fin 16) (e : Nat) (g : MoveEngine → MoveEngine) :
    (s.modMove j e g).od = s.od := rfl

@[simp] theorem State.modMove_tables (s : State) (j : Fin 16) (e : Nat) (g : MoveEngine → MoveEngine) :
    (s.modMove j e g).tables = s.tables := rfl

@[simp] theorem State.modMove_grid (s : State) (j : Fin 16) (e : Nat) (g : MoveEngine → MoveEngine) :
    (s.modMove j e g).grid = s.grid := rfl

@[simp] theorem State.modMove_frames (s : State) (j : Fin 16) (e : Nat) (g : MoveEngine → MoveEngine) :
    (s.modMove j e g).frames = s.frames := rfl

@[simp] theorem State.modMove_tiles (s : State) (j : Fin 16) (e : Nat) (g : MoveEngine → MoveEngine) :
    (s.modMove j e g).tiles = s.tiles := rfl

@[simp] theorem State.modMove_stall (s : State) (j : Fin 16) (e : Nat) (g : MoveEngine → MoveEngine) :
    (s.modMove j e g).stall = s.stall := rfl

@[simp] theorem State.modMove_undefinedGroups (s : State) (j : Fin 16) (e : Nat) (g : MoveEngine → MoveEngine) :
    (s.modMove j e g).undefinedGroups = s.undefinedGroups := rfl

@[simp] theorem State.modMove_rewritten (s : State) (j : Fin 16) (e : Nat) (g : MoveEngine → MoveEngine) :
    (s.modMove j e g).rewritten = s.rewritten := rfl

@[simp] theorem State.modMove_queue (s : State) (j : Fin 16) (e : Nat) (g : MoveEngine → MoveEngine) :
    (s.modMove j e g).queue = s.queue := rfl

@[simp] theorem State.modMove_queueFresh (s : State) (j : Fin 16) (e : Nat) (g : MoveEngine → MoveEngine) :
    (s.modMove j e g).queueFresh = s.queueFresh := rfl

@[simp] theorem State.modMove_sessions (s : State) (j : Fin 16) (e : Nat) (g : MoveEngine → MoveEngine) :
    (s.modMove j e g).sessions = s.sessions := rfl

@[simp] theorem State.modMove_storing (s : State) (j : Fin 16) (e : Nat) (g : MoveEngine → MoveEngine) :
    (s.modMove j e g).storing = s.storing := rfl

@[simp] theorem State.modMove_can (s : State) (j : Fin 16) (e : Nat) (g : MoveEngine → MoveEngine) :
    (s.modMove j e g).can = s.can := rfl

@[simp] theorem State.modMove_pcs (s : State) (j : Fin 16) (e : Nat) (g : MoveEngine → MoveEngine) :
    (s.modMove j e g).pcs = s.pcs := rfl

@[simp] theorem State.modMove_scrubs (s : State) (j : Fin 16) (e : Nat) (g : MoveEngine → MoveEngine) :
    (s.modMove j e g).scrubs = s.scrubs := rfl

@[simp] theorem State.modMove_tests (s : State) (j : Fin 16) (e : Nat) (g : MoveEngine → MoveEngine) :
    (s.modMove j e g).tests = s.tests := rfl

@[simp] theorem State.modMove_watch (s : State) (j : Fin 16) (e : Nat) (g : MoveEngine → MoveEngine) :
    (s.modMove j e g).watch = s.watch := rfl

@[simp] theorem State.modMove_posts (s : State) (j : Fin 16) (e : Nat) (g : MoveEngine → MoveEngine) :
    (s.modMove j e g).posts = s.posts := rfl

@[simp] theorem State.modMove_posting (s : State) (j : Fin 16) (e : Nat) (g : MoveEngine → MoveEngine) :
    (s.modMove j e g).posting = s.posting := rfl

@[simp] theorem State.modMove_mail (s : State) (j : Fin 16) (e : Nat) (g : MoveEngine → MoveEngine) :
    (s.modMove j e g).mail = s.mail := rfl

@[simp] theorem State.modMove_dw (s : State) (j : Fin 16) (e : Nat) (g : MoveEngine → MoveEngine) :
    (s.modMove j e g).dw = s.dw := rfl

@[simp] theorem State.modMove_rings (s : State) (j : Fin 16) (e : Nat) (g : MoveEngine → MoveEngine) :
    (s.modMove j e g).rings = s.rings := rfl

@[simp] theorem State.modMove_host (s : State) (j : Fin 16) (e : Nat) (g : MoveEngine → MoveEngine) :
    (s.modMove j e g).host = s.host := rfl

@[simp] theorem State.modMove_clock (s : State) (j : Fin 16) (e : Nat) (g : MoveEngine → MoveEngine) :
    (s.modMove j e g).clock = s.clock := rfl

@[simp] theorem State.modMove_power (s : State) (j : Fin 16) (e : Nat) (g : MoveEngine → MoveEngine) :
    (s.modMove j e g).power = s.power := rfl

@[simp] theorem State.modMove_monitors (s : State) (j : Fin 16) (e : Nat) (g : MoveEngine → MoveEngine) :
    (s.modMove j e g).monitors = s.monitors := rfl

@[simp] theorem State.modMove_contexts (s : State) (j : Fin 16) (e : Nat) (g : MoveEngine → MoveEngine) :
    (s.modMove j e g).contexts = s.contexts := rfl

@[simp] theorem State.modMove_sentExp (s : State) (j : Fin 16) (e : Nat) (g : MoveEngine → MoveEngine) :
    (s.modMove j e g).sentExp = s.sentExp := rfl

@[simp] theorem State.modMove_tallyBlocks (s : State) (j : Fin 16) (e : Nat) (g : MoveEngine → MoveEngine) :
    (s.modMove j e g).tallyBlocks = s.tallyBlocks := rfl

@[simp] theorem State.modMove_rolls (s : State) (j : Fin 16) (e : Nat) (g : MoveEngine → MoveEngine) :
    (s.modMove j e g).rolls = s.rolls := rfl

@[simp] theorem State.modMove_buckets (s : State) (j : Fin 16) (e : Nat) (g : MoveEngine → MoveEngine) :
    (s.modMove j e g).buckets = s.buckets := rfl

@[simp] theorem State.modMove_returns (s : State) (j : Fin 16) (e : Nat) (g : MoveEngine → MoveEngine) :
    (s.modMove j e g).returns = s.returns := rfl

@[simp] theorem State.modMove_landings (s : State) (j : Fin 16) (e : Nat) (g : MoveEngine → MoveEngine) :
    (s.modMove j e g).landings = s.landings := rfl

@[simp] theorem State.modMove_closes (s : State) (j : Fin 16) (e : Nat) (g : MoveEngine → MoveEngine) :
    (s.modMove j e g).closes = s.closes := rfl

@[simp] theorem State.modMove_links (s : State) (j : Fin 16) (e : Nat) (g : MoveEngine → MoveEngine) :
    (s.modMove j e g).links = s.links := rfl

@[simp] theorem State.modMove_snaps (s : State) (j : Fin 16) (e : Nat) (g : MoveEngine → MoveEngine) :
    (s.modMove j e g).snaps = s.snaps := rfl

@[simp] theorem State.modMove_rests (s : State) (j : Fin 16) (e : Nat) (g : MoveEngine → MoveEngine) :
    (s.modMove j e g).rests = s.rests := rfl

@[simp] theorem State.modMove_flash (s : State) (j : Fin 16) (e : Nat) (g : MoveEngine → MoveEngine) :
    (s.modMove j e g).flash = s.flash := rfl

@[simp] theorem State.modMove_sup (s : State) (j : Fin 16) (e : Nat) (g : MoveEngine → MoveEngine) :
    (s.modMove j e g).sup = s.sup := rfl

@[simp] theorem State.modMove_jtag (s : State) (j : Fin 16) (e : Nat) (g : MoveEngine → MoveEngine) :
    (s.modMove j e g).jtag = s.jtag := rfl

@[simp] theorem State.modMove_log (s : State) (j : Fin 16) (e : Nat) (g : MoveEngine → MoveEngine) :
    (s.modMove j e g).log = s.log := rfl

@[simp] theorem State.modMove_out (s : State) (j : Fin 16) (e : Nat) (g : MoveEngine → MoveEngine) :
    (s.modMove j e g).out = s.out := rfl

@[simp] theorem State.modSnap_pending (s : State) (j : Fin 16) (g : Snap → Snap) :
    (s.modSnap j g).pending = s.pending := rfl

@[simp] theorem State.modSnap_supCycles (s : State) (j : Fin 16) (g : Snap → Snap) :
    (s.modSnap j g).supCycles = s.supCycles := rfl

@[simp] theorem State.modSnap_freeCtr (s : State) (j : Fin 16) (g : Snap → Snap) :
    (s.modSnap j g).freeCtr = s.freeCtr := rfl

@[simp] theorem State.modSnap_mem (s : State) (j : Fin 16) (g : Snap → Snap) :
    (s.modSnap j g).mem = s.mem := rfl

@[simp] theorem State.modSnap_stat (s : State) (j : Fin 16) (g : Snap → Snap) :
    (s.modSnap j g).stat = s.stat := rfl

@[simp] theorem State.modSnap_errs (s : State) (j : Fin 16) (g : Snap → Snap) :
    (s.modSnap j g).errs = s.errs := rfl

@[simp] theorem State.modSnap_statErrs (s : State) (j : Fin 16) (g : Snap → Snap) :
    (s.modSnap j g).statErrs = s.statErrs := rfl

@[simp] theorem State.modSnap_od (s : State) (j : Fin 16) (g : Snap → Snap) :
    (s.modSnap j g).od = s.od := rfl

@[simp] theorem State.modSnap_tables (s : State) (j : Fin 16) (g : Snap → Snap) :
    (s.modSnap j g).tables = s.tables := rfl

@[simp] theorem State.modSnap_grid (s : State) (j : Fin 16) (g : Snap → Snap) :
    (s.modSnap j g).grid = s.grid := rfl

@[simp] theorem State.modSnap_frames (s : State) (j : Fin 16) (g : Snap → Snap) :
    (s.modSnap j g).frames = s.frames := rfl

@[simp] theorem State.modSnap_tiles (s : State) (j : Fin 16) (g : Snap → Snap) :
    (s.modSnap j g).tiles = s.tiles := rfl

@[simp] theorem State.modSnap_stall (s : State) (j : Fin 16) (g : Snap → Snap) :
    (s.modSnap j g).stall = s.stall := rfl

@[simp] theorem State.modSnap_undefinedGroups (s : State) (j : Fin 16) (g : Snap → Snap) :
    (s.modSnap j g).undefinedGroups = s.undefinedGroups := rfl

@[simp] theorem State.modSnap_rewritten (s : State) (j : Fin 16) (g : Snap → Snap) :
    (s.modSnap j g).rewritten = s.rewritten := rfl

@[simp] theorem State.modSnap_queue (s : State) (j : Fin 16) (g : Snap → Snap) :
    (s.modSnap j g).queue = s.queue := rfl

@[simp] theorem State.modSnap_queueFresh (s : State) (j : Fin 16) (g : Snap → Snap) :
    (s.modSnap j g).queueFresh = s.queueFresh := rfl

@[simp] theorem State.modSnap_sessions (s : State) (j : Fin 16) (g : Snap → Snap) :
    (s.modSnap j g).sessions = s.sessions := rfl

@[simp] theorem State.modSnap_storing (s : State) (j : Fin 16) (g : Snap → Snap) :
    (s.modSnap j g).storing = s.storing := rfl

@[simp] theorem State.modSnap_can (s : State) (j : Fin 16) (g : Snap → Snap) :
    (s.modSnap j g).can = s.can := rfl

@[simp] theorem State.modSnap_pcs (s : State) (j : Fin 16) (g : Snap → Snap) :
    (s.modSnap j g).pcs = s.pcs := rfl

@[simp] theorem State.modSnap_scrubs (s : State) (j : Fin 16) (g : Snap → Snap) :
    (s.modSnap j g).scrubs = s.scrubs := rfl

@[simp] theorem State.modSnap_tests (s : State) (j : Fin 16) (g : Snap → Snap) :
    (s.modSnap j g).tests = s.tests := rfl

@[simp] theorem State.modSnap_watch (s : State) (j : Fin 16) (g : Snap → Snap) :
    (s.modSnap j g).watch = s.watch := rfl

@[simp] theorem State.modSnap_posts (s : State) (j : Fin 16) (g : Snap → Snap) :
    (s.modSnap j g).posts = s.posts := rfl

@[simp] theorem State.modSnap_posting (s : State) (j : Fin 16) (g : Snap → Snap) :
    (s.modSnap j g).posting = s.posting := rfl

@[simp] theorem State.modSnap_mail (s : State) (j : Fin 16) (g : Snap → Snap) :
    (s.modSnap j g).mail = s.mail := rfl

@[simp] theorem State.modSnap_dw (s : State) (j : Fin 16) (g : Snap → Snap) :
    (s.modSnap j g).dw = s.dw := rfl

@[simp] theorem State.modSnap_rings (s : State) (j : Fin 16) (g : Snap → Snap) :
    (s.modSnap j g).rings = s.rings := rfl

@[simp] theorem State.modSnap_host (s : State) (j : Fin 16) (g : Snap → Snap) :
    (s.modSnap j g).host = s.host := rfl

@[simp] theorem State.modSnap_clock (s : State) (j : Fin 16) (g : Snap → Snap) :
    (s.modSnap j g).clock = s.clock := rfl

@[simp] theorem State.modSnap_power (s : State) (j : Fin 16) (g : Snap → Snap) :
    (s.modSnap j g).power = s.power := rfl

@[simp] theorem State.modSnap_monitors (s : State) (j : Fin 16) (g : Snap → Snap) :
    (s.modSnap j g).monitors = s.monitors := rfl

@[simp] theorem State.modSnap_contexts (s : State) (j : Fin 16) (g : Snap → Snap) :
    (s.modSnap j g).contexts = s.contexts := rfl

@[simp] theorem State.modSnap_sentExp (s : State) (j : Fin 16) (g : Snap → Snap) :
    (s.modSnap j g).sentExp = s.sentExp := rfl

@[simp] theorem State.modSnap_tallyBlocks (s : State) (j : Fin 16) (g : Snap → Snap) :
    (s.modSnap j g).tallyBlocks = s.tallyBlocks := rfl

@[simp] theorem State.modSnap_rolls (s : State) (j : Fin 16) (g : Snap → Snap) :
    (s.modSnap j g).rolls = s.rolls := rfl

@[simp] theorem State.modSnap_buckets (s : State) (j : Fin 16) (g : Snap → Snap) :
    (s.modSnap j g).buckets = s.buckets := rfl

@[simp] theorem State.modSnap_returns (s : State) (j : Fin 16) (g : Snap → Snap) :
    (s.modSnap j g).returns = s.returns := rfl

@[simp] theorem State.modSnap_landings (s : State) (j : Fin 16) (g : Snap → Snap) :
    (s.modSnap j g).landings = s.landings := rfl

@[simp] theorem State.modSnap_moves (s : State) (j : Fin 16) (g : Snap → Snap) :
    (s.modSnap j g).moves = s.moves := rfl

@[simp] theorem State.modSnap_closes (s : State) (j : Fin 16) (g : Snap → Snap) :
    (s.modSnap j g).closes = s.closes := rfl

@[simp] theorem State.modSnap_links (s : State) (j : Fin 16) (g : Snap → Snap) :
    (s.modSnap j g).links = s.links := rfl

@[simp] theorem State.modSnap_rests (s : State) (j : Fin 16) (g : Snap → Snap) :
    (s.modSnap j g).rests = s.rests := rfl

@[simp] theorem State.modSnap_flash (s : State) (j : Fin 16) (g : Snap → Snap) :
    (s.modSnap j g).flash = s.flash := rfl

@[simp] theorem State.modSnap_sup (s : State) (j : Fin 16) (g : Snap → Snap) :
    (s.modSnap j g).sup = s.sup := rfl

@[simp] theorem State.modSnap_jtag (s : State) (j : Fin 16) (g : Snap → Snap) :
    (s.modSnap j g).jtag = s.jtag := rfl

@[simp] theorem State.modSnap_log (s : State) (j : Fin 16) (g : Snap → Snap) :
    (s.modSnap j g).log = s.log := rfl

@[simp] theorem State.modSnap_out (s : State) (j : Fin 16) (g : Snap → Snap) :
    (s.modSnap j g).out = s.out := rfl

@[simp] theorem State.modRoll_pending (s : State) (j : Fin 16) (g : Roll → Roll) :
    (s.modRoll j g).pending = s.pending := rfl

@[simp] theorem State.modRoll_supCycles (s : State) (j : Fin 16) (g : Roll → Roll) :
    (s.modRoll j g).supCycles = s.supCycles := rfl

@[simp] theorem State.modRoll_freeCtr (s : State) (j : Fin 16) (g : Roll → Roll) :
    (s.modRoll j g).freeCtr = s.freeCtr := rfl

@[simp] theorem State.modRoll_mem (s : State) (j : Fin 16) (g : Roll → Roll) :
    (s.modRoll j g).mem = s.mem := rfl

@[simp] theorem State.modRoll_stat (s : State) (j : Fin 16) (g : Roll → Roll) :
    (s.modRoll j g).stat = s.stat := rfl

@[simp] theorem State.modRoll_errs (s : State) (j : Fin 16) (g : Roll → Roll) :
    (s.modRoll j g).errs = s.errs := rfl

@[simp] theorem State.modRoll_statErrs (s : State) (j : Fin 16) (g : Roll → Roll) :
    (s.modRoll j g).statErrs = s.statErrs := rfl

@[simp] theorem State.modRoll_od (s : State) (j : Fin 16) (g : Roll → Roll) :
    (s.modRoll j g).od = s.od := rfl

@[simp] theorem State.modRoll_tables (s : State) (j : Fin 16) (g : Roll → Roll) :
    (s.modRoll j g).tables = s.tables := rfl

@[simp] theorem State.modRoll_grid (s : State) (j : Fin 16) (g : Roll → Roll) :
    (s.modRoll j g).grid = s.grid := rfl

@[simp] theorem State.modRoll_frames (s : State) (j : Fin 16) (g : Roll → Roll) :
    (s.modRoll j g).frames = s.frames := rfl

@[simp] theorem State.modRoll_tiles (s : State) (j : Fin 16) (g : Roll → Roll) :
    (s.modRoll j g).tiles = s.tiles := rfl

@[simp] theorem State.modRoll_stall (s : State) (j : Fin 16) (g : Roll → Roll) :
    (s.modRoll j g).stall = s.stall := rfl

@[simp] theorem State.modRoll_undefinedGroups (s : State) (j : Fin 16) (g : Roll → Roll) :
    (s.modRoll j g).undefinedGroups = s.undefinedGroups := rfl

@[simp] theorem State.modRoll_rewritten (s : State) (j : Fin 16) (g : Roll → Roll) :
    (s.modRoll j g).rewritten = s.rewritten := rfl

@[simp] theorem State.modRoll_queue (s : State) (j : Fin 16) (g : Roll → Roll) :
    (s.modRoll j g).queue = s.queue := rfl

@[simp] theorem State.modRoll_queueFresh (s : State) (j : Fin 16) (g : Roll → Roll) :
    (s.modRoll j g).queueFresh = s.queueFresh := rfl

@[simp] theorem State.modRoll_sessions (s : State) (j : Fin 16) (g : Roll → Roll) :
    (s.modRoll j g).sessions = s.sessions := rfl

@[simp] theorem State.modRoll_storing (s : State) (j : Fin 16) (g : Roll → Roll) :
    (s.modRoll j g).storing = s.storing := rfl

@[simp] theorem State.modRoll_can (s : State) (j : Fin 16) (g : Roll → Roll) :
    (s.modRoll j g).can = s.can := rfl

@[simp] theorem State.modRoll_pcs (s : State) (j : Fin 16) (g : Roll → Roll) :
    (s.modRoll j g).pcs = s.pcs := rfl

@[simp] theorem State.modRoll_scrubs (s : State) (j : Fin 16) (g : Roll → Roll) :
    (s.modRoll j g).scrubs = s.scrubs := rfl

@[simp] theorem State.modRoll_tests (s : State) (j : Fin 16) (g : Roll → Roll) :
    (s.modRoll j g).tests = s.tests := rfl

@[simp] theorem State.modRoll_watch (s : State) (j : Fin 16) (g : Roll → Roll) :
    (s.modRoll j g).watch = s.watch := rfl

@[simp] theorem State.modRoll_posts (s : State) (j : Fin 16) (g : Roll → Roll) :
    (s.modRoll j g).posts = s.posts := rfl

@[simp] theorem State.modRoll_posting (s : State) (j : Fin 16) (g : Roll → Roll) :
    (s.modRoll j g).posting = s.posting := rfl

@[simp] theorem State.modRoll_mail (s : State) (j : Fin 16) (g : Roll → Roll) :
    (s.modRoll j g).mail = s.mail := rfl

@[simp] theorem State.modRoll_dw (s : State) (j : Fin 16) (g : Roll → Roll) :
    (s.modRoll j g).dw = s.dw := rfl

@[simp] theorem State.modRoll_rings (s : State) (j : Fin 16) (g : Roll → Roll) :
    (s.modRoll j g).rings = s.rings := rfl

@[simp] theorem State.modRoll_host (s : State) (j : Fin 16) (g : Roll → Roll) :
    (s.modRoll j g).host = s.host := rfl

@[simp] theorem State.modRoll_clock (s : State) (j : Fin 16) (g : Roll → Roll) :
    (s.modRoll j g).clock = s.clock := rfl

@[simp] theorem State.modRoll_power (s : State) (j : Fin 16) (g : Roll → Roll) :
    (s.modRoll j g).power = s.power := rfl

@[simp] theorem State.modRoll_monitors (s : State) (j : Fin 16) (g : Roll → Roll) :
    (s.modRoll j g).monitors = s.monitors := rfl

@[simp] theorem State.modRoll_contexts (s : State) (j : Fin 16) (g : Roll → Roll) :
    (s.modRoll j g).contexts = s.contexts := rfl

@[simp] theorem State.modRoll_sentExp (s : State) (j : Fin 16) (g : Roll → Roll) :
    (s.modRoll j g).sentExp = s.sentExp := rfl

@[simp] theorem State.modRoll_tallyBlocks (s : State) (j : Fin 16) (g : Roll → Roll) :
    (s.modRoll j g).tallyBlocks = s.tallyBlocks := rfl

@[simp] theorem State.modRoll_buckets (s : State) (j : Fin 16) (g : Roll → Roll) :
    (s.modRoll j g).buckets = s.buckets := rfl

@[simp] theorem State.modRoll_returns (s : State) (j : Fin 16) (g : Roll → Roll) :
    (s.modRoll j g).returns = s.returns := rfl

@[simp] theorem State.modRoll_landings (s : State) (j : Fin 16) (g : Roll → Roll) :
    (s.modRoll j g).landings = s.landings := rfl

@[simp] theorem State.modRoll_moves (s : State) (j : Fin 16) (g : Roll → Roll) :
    (s.modRoll j g).moves = s.moves := rfl

@[simp] theorem State.modRoll_closes (s : State) (j : Fin 16) (g : Roll → Roll) :
    (s.modRoll j g).closes = s.closes := rfl

@[simp] theorem State.modRoll_links (s : State) (j : Fin 16) (g : Roll → Roll) :
    (s.modRoll j g).links = s.links := rfl

@[simp] theorem State.modRoll_snaps (s : State) (j : Fin 16) (g : Roll → Roll) :
    (s.modRoll j g).snaps = s.snaps := rfl

@[simp] theorem State.modRoll_rests (s : State) (j : Fin 16) (g : Roll → Roll) :
    (s.modRoll j g).rests = s.rests := rfl

@[simp] theorem State.modRoll_flash (s : State) (j : Fin 16) (g : Roll → Roll) :
    (s.modRoll j g).flash = s.flash := rfl

@[simp] theorem State.modRoll_sup (s : State) (j : Fin 16) (g : Roll → Roll) :
    (s.modRoll j g).sup = s.sup := rfl

@[simp] theorem State.modRoll_jtag (s : State) (j : Fin 16) (g : Roll → Roll) :
    (s.modRoll j g).jtag = s.jtag := rfl

@[simp] theorem State.modRoll_log (s : State) (j : Fin 16) (g : Roll → Roll) :
    (s.modRoll j g).log = s.log := rfl

@[simp] theorem State.modRoll_out (s : State) (j : Fin 16) (g : Roll → Roll) :
    (s.modRoll j g).out = s.out := rfl

@[simp] theorem State.setCtx_pending (s : State) (c : Nat) (x : Option TallyCtx) :
    (s.setCtx c x).pending = s.pending := rfl

@[simp] theorem State.setCtx_supCycles (s : State) (c : Nat) (x : Option TallyCtx) :
    (s.setCtx c x).supCycles = s.supCycles := rfl

@[simp] theorem State.setCtx_freeCtr (s : State) (c : Nat) (x : Option TallyCtx) :
    (s.setCtx c x).freeCtr = s.freeCtr := rfl

@[simp] theorem State.setCtx_mem (s : State) (c : Nat) (x : Option TallyCtx) :
    (s.setCtx c x).mem = s.mem := rfl

@[simp] theorem State.setCtx_stat (s : State) (c : Nat) (x : Option TallyCtx) :
    (s.setCtx c x).stat = s.stat := rfl

@[simp] theorem State.setCtx_errs (s : State) (c : Nat) (x : Option TallyCtx) :
    (s.setCtx c x).errs = s.errs := rfl

@[simp] theorem State.setCtx_statErrs (s : State) (c : Nat) (x : Option TallyCtx) :
    (s.setCtx c x).statErrs = s.statErrs := rfl

@[simp] theorem State.setCtx_od (s : State) (c : Nat) (x : Option TallyCtx) :
    (s.setCtx c x).od = s.od := rfl

@[simp] theorem State.setCtx_tables (s : State) (c : Nat) (x : Option TallyCtx) :
    (s.setCtx c x).tables = s.tables := rfl

@[simp] theorem State.setCtx_grid (s : State) (c : Nat) (x : Option TallyCtx) :
    (s.setCtx c x).grid = s.grid := rfl

@[simp] theorem State.setCtx_frames (s : State) (c : Nat) (x : Option TallyCtx) :
    (s.setCtx c x).frames = s.frames := rfl

@[simp] theorem State.setCtx_tiles (s : State) (c : Nat) (x : Option TallyCtx) :
    (s.setCtx c x).tiles = s.tiles := rfl

@[simp] theorem State.setCtx_stall (s : State) (c : Nat) (x : Option TallyCtx) :
    (s.setCtx c x).stall = s.stall := rfl

@[simp] theorem State.setCtx_undefinedGroups (s : State) (c : Nat) (x : Option TallyCtx) :
    (s.setCtx c x).undefinedGroups = s.undefinedGroups := rfl

@[simp] theorem State.setCtx_rewritten (s : State) (c : Nat) (x : Option TallyCtx) :
    (s.setCtx c x).rewritten = s.rewritten := rfl

@[simp] theorem State.setCtx_queue (s : State) (c : Nat) (x : Option TallyCtx) :
    (s.setCtx c x).queue = s.queue := rfl

@[simp] theorem State.setCtx_queueFresh (s : State) (c : Nat) (x : Option TallyCtx) :
    (s.setCtx c x).queueFresh = s.queueFresh := rfl

@[simp] theorem State.setCtx_sessions (s : State) (c : Nat) (x : Option TallyCtx) :
    (s.setCtx c x).sessions = s.sessions := rfl

@[simp] theorem State.setCtx_storing (s : State) (c : Nat) (x : Option TallyCtx) :
    (s.setCtx c x).storing = s.storing := rfl

@[simp] theorem State.setCtx_can (s : State) (c : Nat) (x : Option TallyCtx) :
    (s.setCtx c x).can = s.can := rfl

@[simp] theorem State.setCtx_pcs (s : State) (c : Nat) (x : Option TallyCtx) :
    (s.setCtx c x).pcs = s.pcs := rfl

@[simp] theorem State.setCtx_scrubs (s : State) (c : Nat) (x : Option TallyCtx) :
    (s.setCtx c x).scrubs = s.scrubs := rfl

@[simp] theorem State.setCtx_tests (s : State) (c : Nat) (x : Option TallyCtx) :
    (s.setCtx c x).tests = s.tests := rfl

@[simp] theorem State.setCtx_watch (s : State) (c : Nat) (x : Option TallyCtx) :
    (s.setCtx c x).watch = s.watch := rfl

@[simp] theorem State.setCtx_posts (s : State) (c : Nat) (x : Option TallyCtx) :
    (s.setCtx c x).posts = s.posts := rfl

@[simp] theorem State.setCtx_posting (s : State) (c : Nat) (x : Option TallyCtx) :
    (s.setCtx c x).posting = s.posting := rfl

@[simp] theorem State.setCtx_mail (s : State) (c : Nat) (x : Option TallyCtx) :
    (s.setCtx c x).mail = s.mail := rfl

@[simp] theorem State.setCtx_dw (s : State) (c : Nat) (x : Option TallyCtx) :
    (s.setCtx c x).dw = s.dw := rfl

@[simp] theorem State.setCtx_rings (s : State) (c : Nat) (x : Option TallyCtx) :
    (s.setCtx c x).rings = s.rings := rfl

@[simp] theorem State.setCtx_host (s : State) (c : Nat) (x : Option TallyCtx) :
    (s.setCtx c x).host = s.host := rfl

@[simp] theorem State.setCtx_clock (s : State) (c : Nat) (x : Option TallyCtx) :
    (s.setCtx c x).clock = s.clock := rfl

@[simp] theorem State.setCtx_power (s : State) (c : Nat) (x : Option TallyCtx) :
    (s.setCtx c x).power = s.power := rfl

@[simp] theorem State.setCtx_monitors (s : State) (c : Nat) (x : Option TallyCtx) :
    (s.setCtx c x).monitors = s.monitors := rfl

@[simp] theorem State.setCtx_sentExp (s : State) (c : Nat) (x : Option TallyCtx) :
    (s.setCtx c x).sentExp = s.sentExp := rfl

@[simp] theorem State.setCtx_tallyBlocks (s : State) (c : Nat) (x : Option TallyCtx) :
    (s.setCtx c x).tallyBlocks = s.tallyBlocks := rfl

@[simp] theorem State.setCtx_rolls (s : State) (c : Nat) (x : Option TallyCtx) :
    (s.setCtx c x).rolls = s.rolls := rfl

@[simp] theorem State.setCtx_buckets (s : State) (c : Nat) (x : Option TallyCtx) :
    (s.setCtx c x).buckets = s.buckets := rfl

@[simp] theorem State.setCtx_returns (s : State) (c : Nat) (x : Option TallyCtx) :
    (s.setCtx c x).returns = s.returns := rfl

@[simp] theorem State.setCtx_landings (s : State) (c : Nat) (x : Option TallyCtx) :
    (s.setCtx c x).landings = s.landings := rfl

@[simp] theorem State.setCtx_moves (s : State) (c : Nat) (x : Option TallyCtx) :
    (s.setCtx c x).moves = s.moves := rfl

@[simp] theorem State.setCtx_closes (s : State) (c : Nat) (x : Option TallyCtx) :
    (s.setCtx c x).closes = s.closes := rfl

@[simp] theorem State.setCtx_links (s : State) (c : Nat) (x : Option TallyCtx) :
    (s.setCtx c x).links = s.links := rfl

@[simp] theorem State.setCtx_snaps (s : State) (c : Nat) (x : Option TallyCtx) :
    (s.setCtx c x).snaps = s.snaps := rfl

@[simp] theorem State.setCtx_rests (s : State) (c : Nat) (x : Option TallyCtx) :
    (s.setCtx c x).rests = s.rests := rfl

@[simp] theorem State.setCtx_flash (s : State) (c : Nat) (x : Option TallyCtx) :
    (s.setCtx c x).flash = s.flash := rfl

@[simp] theorem State.setCtx_sup (s : State) (c : Nat) (x : Option TallyCtx) :
    (s.setCtx c x).sup = s.sup := rfl

@[simp] theorem State.setCtx_jtag (s : State) (c : Nat) (x : Option TallyCtx) :
    (s.setCtx c x).jtag = s.jtag := rfl

@[simp] theorem State.setCtx_log (s : State) (c : Nat) (x : Option TallyCtx) :
    (s.setCtx c x).log = s.log := rfl

@[simp] theorem State.setCtx_out (s : State) (c : Nat) (x : Option TallyCtx) :
    (s.setCtx c x).out = s.out := rfl

@[simp] theorem State.writeScratch_pending (s : State) (t off : Nat) (d : List Byte) :
    (s.writeScratch t off d).pending = s.pending := rfl

@[simp] theorem State.writeScratch_supCycles (s : State) (t off : Nat) (d : List Byte) :
    (s.writeScratch t off d).supCycles = s.supCycles := rfl

@[simp] theorem State.writeScratch_freeCtr (s : State) (t off : Nat) (d : List Byte) :
    (s.writeScratch t off d).freeCtr = s.freeCtr := rfl

@[simp] theorem State.writeScratch_stat (s : State) (t off : Nat) (d : List Byte) :
    (s.writeScratch t off d).stat = s.stat := rfl

@[simp] theorem State.writeScratch_statErrs (s : State) (t off : Nat) (d : List Byte) :
    (s.writeScratch t off d).statErrs = s.statErrs := rfl

@[simp] theorem State.writeScratch_od (s : State) (t off : Nat) (d : List Byte) :
    (s.writeScratch t off d).od = s.od := rfl

@[simp] theorem State.writeScratch_tables (s : State) (t off : Nat) (d : List Byte) :
    (s.writeScratch t off d).tables = s.tables := rfl

@[simp] theorem State.writeScratch_grid (s : State) (t off : Nat) (d : List Byte) :
    (s.writeScratch t off d).grid = s.grid := rfl

@[simp] theorem State.writeScratch_frames (s : State) (t off : Nat) (d : List Byte) :
    (s.writeScratch t off d).frames = s.frames := rfl

@[simp] theorem State.writeScratch_tiles (s : State) (t off : Nat) (d : List Byte) :
    (s.writeScratch t off d).tiles = s.tiles := rfl

@[simp] theorem State.writeScratch_stall (s : State) (t off : Nat) (d : List Byte) :
    (s.writeScratch t off d).stall = s.stall := rfl

@[simp] theorem State.writeScratch_undefinedGroups (s : State) (t off : Nat) (d : List Byte) :
    (s.writeScratch t off d).undefinedGroups = s.undefinedGroups := rfl

@[simp] theorem State.writeScratch_rewritten (s : State) (t off : Nat) (d : List Byte) :
    (s.writeScratch t off d).rewritten = s.rewritten := rfl

@[simp] theorem State.writeScratch_queue (s : State) (t off : Nat) (d : List Byte) :
    (s.writeScratch t off d).queue = s.queue := rfl

@[simp] theorem State.writeScratch_queueFresh (s : State) (t off : Nat) (d : List Byte) :
    (s.writeScratch t off d).queueFresh = s.queueFresh := rfl

@[simp] theorem State.writeScratch_sessions (s : State) (t off : Nat) (d : List Byte) :
    (s.writeScratch t off d).sessions = s.sessions := rfl

@[simp] theorem State.writeScratch_storing (s : State) (t off : Nat) (d : List Byte) :
    (s.writeScratch t off d).storing = s.storing := rfl

@[simp] theorem State.writeScratch_can (s : State) (t off : Nat) (d : List Byte) :
    (s.writeScratch t off d).can = s.can := rfl

@[simp] theorem State.writeScratch_pcs (s : State) (t off : Nat) (d : List Byte) :
    (s.writeScratch t off d).pcs = s.pcs := rfl

@[simp] theorem State.writeScratch_scrubs (s : State) (t off : Nat) (d : List Byte) :
    (s.writeScratch t off d).scrubs = s.scrubs := rfl

@[simp] theorem State.writeScratch_tests (s : State) (t off : Nat) (d : List Byte) :
    (s.writeScratch t off d).tests = s.tests := rfl

@[simp] theorem State.writeScratch_watch (s : State) (t off : Nat) (d : List Byte) :
    (s.writeScratch t off d).watch = s.watch := rfl

@[simp] theorem State.writeScratch_posts (s : State) (t off : Nat) (d : List Byte) :
    (s.writeScratch t off d).posts = s.posts := rfl

@[simp] theorem State.writeScratch_posting (s : State) (t off : Nat) (d : List Byte) :
    (s.writeScratch t off d).posting = s.posting := rfl

@[simp] theorem State.writeScratch_mail (s : State) (t off : Nat) (d : List Byte) :
    (s.writeScratch t off d).mail = s.mail := rfl

@[simp] theorem State.writeScratch_dw (s : State) (t off : Nat) (d : List Byte) :
    (s.writeScratch t off d).dw = s.dw := rfl

@[simp] theorem State.writeScratch_rings (s : State) (t off : Nat) (d : List Byte) :
    (s.writeScratch t off d).rings = s.rings := rfl

@[simp] theorem State.writeScratch_host (s : State) (t off : Nat) (d : List Byte) :
    (s.writeScratch t off d).host = s.host := rfl

@[simp] theorem State.writeScratch_clock (s : State) (t off : Nat) (d : List Byte) :
    (s.writeScratch t off d).clock = s.clock := rfl

@[simp] theorem State.writeScratch_power (s : State) (t off : Nat) (d : List Byte) :
    (s.writeScratch t off d).power = s.power := rfl

@[simp] theorem State.writeScratch_monitors (s : State) (t off : Nat) (d : List Byte) :
    (s.writeScratch t off d).monitors = s.monitors := rfl

@[simp] theorem State.writeScratch_contexts (s : State) (t off : Nat) (d : List Byte) :
    (s.writeScratch t off d).contexts = s.contexts := rfl

@[simp] theorem State.writeScratch_sentExp (s : State) (t off : Nat) (d : List Byte) :
    (s.writeScratch t off d).sentExp = s.sentExp := rfl

@[simp] theorem State.writeScratch_tallyBlocks (s : State) (t off : Nat) (d : List Byte) :
    (s.writeScratch t off d).tallyBlocks = s.tallyBlocks := rfl

@[simp] theorem State.writeScratch_rolls (s : State) (t off : Nat) (d : List Byte) :
    (s.writeScratch t off d).rolls = s.rolls := rfl

@[simp] theorem State.writeScratch_buckets (s : State) (t off : Nat) (d : List Byte) :
    (s.writeScratch t off d).buckets = s.buckets := rfl

@[simp] theorem State.writeScratch_returns (s : State) (t off : Nat) (d : List Byte) :
    (s.writeScratch t off d).returns = s.returns := rfl

@[simp] theorem State.writeScratch_landings (s : State) (t off : Nat) (d : List Byte) :
    (s.writeScratch t off d).landings = s.landings := rfl

@[simp] theorem State.writeScratch_moves (s : State) (t off : Nat) (d : List Byte) :
    (s.writeScratch t off d).moves = s.moves := rfl

@[simp] theorem State.writeScratch_closes (s : State) (t off : Nat) (d : List Byte) :
    (s.writeScratch t off d).closes = s.closes := rfl

@[simp] theorem State.writeScratch_links (s : State) (t off : Nat) (d : List Byte) :
    (s.writeScratch t off d).links = s.links := rfl

@[simp] theorem State.writeScratch_snaps (s : State) (t off : Nat) (d : List Byte) :
    (s.writeScratch t off d).snaps = s.snaps := rfl

@[simp] theorem State.writeScratch_rests (s : State) (t off : Nat) (d : List Byte) :
    (s.writeScratch t off d).rests = s.rests := rfl

@[simp] theorem State.writeScratch_flash (s : State) (t off : Nat) (d : List Byte) :
    (s.writeScratch t off d).flash = s.flash := rfl

@[simp] theorem State.writeScratch_sup (s : State) (t off : Nat) (d : List Byte) :
    (s.writeScratch t off d).sup = s.sup := rfl

@[simp] theorem State.writeScratch_jtag (s : State) (t off : Nat) (d : List Byte) :
    (s.writeScratch t off d).jtag = s.jtag := rfl

@[simp] theorem State.writeScratch_log (s : State) (t off : Nat) (d : List Byte) :
    (s.writeScratch t off d).log = s.log := rfl

@[simp] theorem State.writeScratch_out (s : State) (t off : Nat) (d : List Byte) :
    (s.writeScratch t off d).out = s.out := rfl

@[simp] theorem State.writeRow_pending (s : State) (t row : Nat) (d : List Byte) (p : Bool) :
    (s.writeRow t row d p).pending = s.pending := rfl

@[simp] theorem State.writeRow_supCycles (s : State) (t row : Nat) (d : List Byte) (p : Bool) :
    (s.writeRow t row d p).supCycles = s.supCycles := rfl

@[simp] theorem State.writeRow_freeCtr (s : State) (t row : Nat) (d : List Byte) (p : Bool) :
    (s.writeRow t row d p).freeCtr = s.freeCtr := rfl

@[simp] theorem State.writeRow_stat (s : State) (t row : Nat) (d : List Byte) (p : Bool) :
    (s.writeRow t row d p).stat = s.stat := rfl

@[simp] theorem State.writeRow_statErrs (s : State) (t row : Nat) (d : List Byte) (p : Bool) :
    (s.writeRow t row d p).statErrs = s.statErrs := rfl

@[simp] theorem State.writeRow_od (s : State) (t row : Nat) (d : List Byte) (p : Bool) :
    (s.writeRow t row d p).od = s.od := rfl

@[simp] theorem State.writeRow_tables (s : State) (t row : Nat) (d : List Byte) (p : Bool) :
    (s.writeRow t row d p).tables = s.tables := rfl

@[simp] theorem State.writeRow_grid (s : State) (t row : Nat) (d : List Byte) (p : Bool) :
    (s.writeRow t row d p).grid = s.grid := rfl

@[simp] theorem State.writeRow_frames (s : State) (t row : Nat) (d : List Byte) (p : Bool) :
    (s.writeRow t row d p).frames = s.frames := rfl

@[simp] theorem State.writeRow_tiles (s : State) (t row : Nat) (d : List Byte) (p : Bool) :
    (s.writeRow t row d p).tiles = s.tiles := rfl

@[simp] theorem State.writeRow_stall (s : State) (t row : Nat) (d : List Byte) (p : Bool) :
    (s.writeRow t row d p).stall = s.stall := rfl

@[simp] theorem State.writeRow_undefinedGroups (s : State) (t row : Nat) (d : List Byte) (p : Bool) :
    (s.writeRow t row d p).undefinedGroups = s.undefinedGroups := rfl

@[simp] theorem State.writeRow_rewritten (s : State) (t row : Nat) (d : List Byte) (p : Bool) :
    (s.writeRow t row d p).rewritten = s.rewritten := rfl

@[simp] theorem State.writeRow_queue (s : State) (t row : Nat) (d : List Byte) (p : Bool) :
    (s.writeRow t row d p).queue = s.queue := rfl

@[simp] theorem State.writeRow_queueFresh (s : State) (t row : Nat) (d : List Byte) (p : Bool) :
    (s.writeRow t row d p).queueFresh = s.queueFresh := rfl

@[simp] theorem State.writeRow_sessions (s : State) (t row : Nat) (d : List Byte) (p : Bool) :
    (s.writeRow t row d p).sessions = s.sessions := rfl

@[simp] theorem State.writeRow_storing (s : State) (t row : Nat) (d : List Byte) (p : Bool) :
    (s.writeRow t row d p).storing = s.storing := rfl

@[simp] theorem State.writeRow_can (s : State) (t row : Nat) (d : List Byte) (p : Bool) :
    (s.writeRow t row d p).can = s.can := rfl

@[simp] theorem State.writeRow_pcs (s : State) (t row : Nat) (d : List Byte) (p : Bool) :
    (s.writeRow t row d p).pcs = s.pcs := rfl

@[simp] theorem State.writeRow_scrubs (s : State) (t row : Nat) (d : List Byte) (p : Bool) :
    (s.writeRow t row d p).scrubs = s.scrubs := rfl

@[simp] theorem State.writeRow_tests (s : State) (t row : Nat) (d : List Byte) (p : Bool) :
    (s.writeRow t row d p).tests = s.tests := rfl

@[simp] theorem State.writeRow_watch (s : State) (t row : Nat) (d : List Byte) (p : Bool) :
    (s.writeRow t row d p).watch = s.watch := rfl

@[simp] theorem State.writeRow_posts (s : State) (t row : Nat) (d : List Byte) (p : Bool) :
    (s.writeRow t row d p).posts = s.posts := rfl

@[simp] theorem State.writeRow_posting (s : State) (t row : Nat) (d : List Byte) (p : Bool) :
    (s.writeRow t row d p).posting = s.posting := rfl

@[simp] theorem State.writeRow_mail (s : State) (t row : Nat) (d : List Byte) (p : Bool) :
    (s.writeRow t row d p).mail = s.mail := rfl

@[simp] theorem State.writeRow_dw (s : State) (t row : Nat) (d : List Byte) (p : Bool) :
    (s.writeRow t row d p).dw = s.dw := rfl

@[simp] theorem State.writeRow_rings (s : State) (t row : Nat) (d : List Byte) (p : Bool) :
    (s.writeRow t row d p).rings = s.rings := rfl

@[simp] theorem State.writeRow_host (s : State) (t row : Nat) (d : List Byte) (p : Bool) :
    (s.writeRow t row d p).host = s.host := rfl

@[simp] theorem State.writeRow_clock (s : State) (t row : Nat) (d : List Byte) (p : Bool) :
    (s.writeRow t row d p).clock = s.clock := rfl

@[simp] theorem State.writeRow_power (s : State) (t row : Nat) (d : List Byte) (p : Bool) :
    (s.writeRow t row d p).power = s.power := rfl

@[simp] theorem State.writeRow_monitors (s : State) (t row : Nat) (d : List Byte) (p : Bool) :
    (s.writeRow t row d p).monitors = s.monitors := rfl

@[simp] theorem State.writeRow_contexts (s : State) (t row : Nat) (d : List Byte) (p : Bool) :
    (s.writeRow t row d p).contexts = s.contexts := rfl

@[simp] theorem State.writeRow_sentExp (s : State) (t row : Nat) (d : List Byte) (p : Bool) :
    (s.writeRow t row d p).sentExp = s.sentExp := rfl

@[simp] theorem State.writeRow_tallyBlocks (s : State) (t row : Nat) (d : List Byte) (p : Bool) :
    (s.writeRow t row d p).tallyBlocks = s.tallyBlocks := rfl

@[simp] theorem State.writeRow_rolls (s : State) (t row : Nat) (d : List Byte) (p : Bool) :
    (s.writeRow t row d p).rolls = s.rolls := rfl

@[simp] theorem State.writeRow_buckets (s : State) (t row : Nat) (d : List Byte) (p : Bool) :
    (s.writeRow t row d p).buckets = s.buckets := rfl

@[simp] theorem State.writeRow_returns (s : State) (t row : Nat) (d : List Byte) (p : Bool) :
    (s.writeRow t row d p).returns = s.returns := rfl

@[simp] theorem State.writeRow_landings (s : State) (t row : Nat) (d : List Byte) (p : Bool) :
    (s.writeRow t row d p).landings = s.landings := rfl

@[simp] theorem State.writeRow_moves (s : State) (t row : Nat) (d : List Byte) (p : Bool) :
    (s.writeRow t row d p).moves = s.moves := rfl

@[simp] theorem State.writeRow_closes (s : State) (t row : Nat) (d : List Byte) (p : Bool) :
    (s.writeRow t row d p).closes = s.closes := rfl

@[simp] theorem State.writeRow_links (s : State) (t row : Nat) (d : List Byte) (p : Bool) :
    (s.writeRow t row d p).links = s.links := rfl

@[simp] theorem State.writeRow_snaps (s : State) (t row : Nat) (d : List Byte) (p : Bool) :
    (s.writeRow t row d p).snaps = s.snaps := rfl

@[simp] theorem State.writeRow_rests (s : State) (t row : Nat) (d : List Byte) (p : Bool) :
    (s.writeRow t row d p).rests = s.rests := rfl

@[simp] theorem State.writeRow_flash (s : State) (t row : Nat) (d : List Byte) (p : Bool) :
    (s.writeRow t row d p).flash = s.flash := rfl

@[simp] theorem State.writeRow_sup (s : State) (t row : Nat) (d : List Byte) (p : Bool) :
    (s.writeRow t row d p).sup = s.sup := rfl

@[simp] theorem State.writeRow_jtag (s : State) (t row : Nat) (d : List Byte) (p : Bool) :
    (s.writeRow t row d p).jtag = s.jtag := rfl

@[simp] theorem State.writeRow_log (s : State) (t row : Nat) (d : List Byte) (p : Bool) :
    (s.writeRow t row d p).log = s.log := rfl

@[simp] theorem State.writeRow_out (s : State) (t row : Nat) (d : List Byte) (p : Bool) :
    (s.writeRow t row d p).out = s.out := rfl

@[simp] theorem State.writeLine_pending (s : State) (t line : Nat) (d : List Byte) :
    (s.writeLine t line d).pending = s.pending := rfl

@[simp] theorem State.writeLine_supCycles (s : State) (t line : Nat) (d : List Byte) :
    (s.writeLine t line d).supCycles = s.supCycles := rfl

@[simp] theorem State.writeLine_freeCtr (s : State) (t line : Nat) (d : List Byte) :
    (s.writeLine t line d).freeCtr = s.freeCtr := rfl

@[simp] theorem State.writeLine_mem (s : State) (t line : Nat) (d : List Byte) :
    (s.writeLine t line d).mem = s.mem := rfl

@[simp] theorem State.writeLine_errs (s : State) (t line : Nat) (d : List Byte) :
    (s.writeLine t line d).errs = s.errs := rfl

@[simp] theorem State.writeLine_od (s : State) (t line : Nat) (d : List Byte) :
    (s.writeLine t line d).od = s.od := rfl

@[simp] theorem State.writeLine_tables (s : State) (t line : Nat) (d : List Byte) :
    (s.writeLine t line d).tables = s.tables := rfl

@[simp] theorem State.writeLine_grid (s : State) (t line : Nat) (d : List Byte) :
    (s.writeLine t line d).grid = s.grid := rfl

@[simp] theorem State.writeLine_frames (s : State) (t line : Nat) (d : List Byte) :
    (s.writeLine t line d).frames = s.frames := rfl

@[simp] theorem State.writeLine_tiles (s : State) (t line : Nat) (d : List Byte) :
    (s.writeLine t line d).tiles = s.tiles := rfl

@[simp] theorem State.writeLine_stall (s : State) (t line : Nat) (d : List Byte) :
    (s.writeLine t line d).stall = s.stall := rfl

@[simp] theorem State.writeLine_undefinedGroups (s : State) (t line : Nat) (d : List Byte) :
    (s.writeLine t line d).undefinedGroups = s.undefinedGroups := rfl

@[simp] theorem State.writeLine_rewritten (s : State) (t line : Nat) (d : List Byte) :
    (s.writeLine t line d).rewritten = s.rewritten := rfl

@[simp] theorem State.writeLine_queue (s : State) (t line : Nat) (d : List Byte) :
    (s.writeLine t line d).queue = s.queue := rfl

@[simp] theorem State.writeLine_queueFresh (s : State) (t line : Nat) (d : List Byte) :
    (s.writeLine t line d).queueFresh = s.queueFresh := rfl

@[simp] theorem State.writeLine_sessions (s : State) (t line : Nat) (d : List Byte) :
    (s.writeLine t line d).sessions = s.sessions := rfl

@[simp] theorem State.writeLine_storing (s : State) (t line : Nat) (d : List Byte) :
    (s.writeLine t line d).storing = s.storing := rfl

@[simp] theorem State.writeLine_can (s : State) (t line : Nat) (d : List Byte) :
    (s.writeLine t line d).can = s.can := rfl

@[simp] theorem State.writeLine_pcs (s : State) (t line : Nat) (d : List Byte) :
    (s.writeLine t line d).pcs = s.pcs := rfl

@[simp] theorem State.writeLine_scrubs (s : State) (t line : Nat) (d : List Byte) :
    (s.writeLine t line d).scrubs = s.scrubs := rfl

@[simp] theorem State.writeLine_tests (s : State) (t line : Nat) (d : List Byte) :
    (s.writeLine t line d).tests = s.tests := rfl

@[simp] theorem State.writeLine_watch (s : State) (t line : Nat) (d : List Byte) :
    (s.writeLine t line d).watch = s.watch := rfl

@[simp] theorem State.writeLine_posts (s : State) (t line : Nat) (d : List Byte) :
    (s.writeLine t line d).posts = s.posts := rfl

@[simp] theorem State.writeLine_posting (s : State) (t line : Nat) (d : List Byte) :
    (s.writeLine t line d).posting = s.posting := rfl

@[simp] theorem State.writeLine_mail (s : State) (t line : Nat) (d : List Byte) :
    (s.writeLine t line d).mail = s.mail := rfl

@[simp] theorem State.writeLine_dw (s : State) (t line : Nat) (d : List Byte) :
    (s.writeLine t line d).dw = s.dw := rfl

@[simp] theorem State.writeLine_rings (s : State) (t line : Nat) (d : List Byte) :
    (s.writeLine t line d).rings = s.rings := rfl

@[simp] theorem State.writeLine_host (s : State) (t line : Nat) (d : List Byte) :
    (s.writeLine t line d).host = s.host := rfl

@[simp] theorem State.writeLine_clock (s : State) (t line : Nat) (d : List Byte) :
    (s.writeLine t line d).clock = s.clock := rfl

@[simp] theorem State.writeLine_power (s : State) (t line : Nat) (d : List Byte) :
    (s.writeLine t line d).power = s.power := rfl

@[simp] theorem State.writeLine_monitors (s : State) (t line : Nat) (d : List Byte) :
    (s.writeLine t line d).monitors = s.monitors := rfl

@[simp] theorem State.writeLine_contexts (s : State) (t line : Nat) (d : List Byte) :
    (s.writeLine t line d).contexts = s.contexts := rfl

@[simp] theorem State.writeLine_sentExp (s : State) (t line : Nat) (d : List Byte) :
    (s.writeLine t line d).sentExp = s.sentExp := rfl

@[simp] theorem State.writeLine_tallyBlocks (s : State) (t line : Nat) (d : List Byte) :
    (s.writeLine t line d).tallyBlocks = s.tallyBlocks := rfl

@[simp] theorem State.writeLine_rolls (s : State) (t line : Nat) (d : List Byte) :
    (s.writeLine t line d).rolls = s.rolls := rfl

@[simp] theorem State.writeLine_buckets (s : State) (t line : Nat) (d : List Byte) :
    (s.writeLine t line d).buckets = s.buckets := rfl

@[simp] theorem State.writeLine_returns (s : State) (t line : Nat) (d : List Byte) :
    (s.writeLine t line d).returns = s.returns := rfl

@[simp] theorem State.writeLine_landings (s : State) (t line : Nat) (d : List Byte) :
    (s.writeLine t line d).landings = s.landings := rfl

@[simp] theorem State.writeLine_moves (s : State) (t line : Nat) (d : List Byte) :
    (s.writeLine t line d).moves = s.moves := rfl

@[simp] theorem State.writeLine_closes (s : State) (t line : Nat) (d : List Byte) :
    (s.writeLine t line d).closes = s.closes := rfl

@[simp] theorem State.writeLine_links (s : State) (t line : Nat) (d : List Byte) :
    (s.writeLine t line d).links = s.links := rfl

@[simp] theorem State.writeLine_snaps (s : State) (t line : Nat) (d : List Byte) :
    (s.writeLine t line d).snaps = s.snaps := rfl

@[simp] theorem State.writeLine_rests (s : State) (t line : Nat) (d : List Byte) :
    (s.writeLine t line d).rests = s.rests := rfl

@[simp] theorem State.writeLine_flash (s : State) (t line : Nat) (d : List Byte) :
    (s.writeLine t line d).flash = s.flash := rfl

@[simp] theorem State.writeLine_sup (s : State) (t line : Nat) (d : List Byte) :
    (s.writeLine t line d).sup = s.sup := rfl

@[simp] theorem State.writeLine_jtag (s : State) (t line : Nat) (d : List Byte) :
    (s.writeLine t line d).jtag = s.jtag := rfl

@[simp] theorem State.writeLine_log (s : State) (t line : Nat) (d : List Byte) :
    (s.writeLine t line d).log = s.log := rfl

@[simp] theorem State.writeLine_out (s : State) (t line : Nat) (d : List Byte) :
    (s.writeLine t line d).out = s.out := rfl

end Sys2Proof.Machine
end

