-- ==== Sys2Proof/Laws/Ops.lean ====
section
/-! SUPPORT. Laws/Ops: what each shared operation does, said once: reads after writes of the sparse tables, and
the run of a core instruction. -/

namespace Sys2Proof.Machine

open Sys2Proof.Safety

/-! ### Reads after writes -/

theorem Sound.tables_rising {s : State} (h : Sound s) : srising s.tiles = true := by
  have := h.rising
  simp only [State.rising, Bool.and_eq_true] at this
  exact this.1.1.1.1.1.1.1.1.1.1.1.1.1.2

@[simp] theorem State.tile_of_tiles {s u : State} (h : u.tiles = s.tiles) (t : Nat) : u.tile t = s.tile t := by
  rw [State.tile, State.tile, h]

theorem State.tile_setTile_same {s : State} (h : srising s.tiles = true) (t : Nat) (x : Tile) :
    (s.setTile t x).tile t = x := sget_sput_same h ..

theorem State.tile_setTile_other {s : State} (h : srising s.tiles = true) {t j : Nat} (x : Tile) (hj : j ≠ t) :
    (s.setTile t x).tile j = s.tile j := sget_sput_other h _ hj

theorem State.tile_modTile_same {s : State} (h : srising s.tiles = true) (t : Nat) (g : Tile → Tile) :
    (s.modTile t g).tile t = g (s.tile t) := State.tile_setTile_same h ..

theorem State.tile_modTile_other {s : State} (h : srising s.tiles = true) {t j : Nat} (g : Tile → Tile) (hj : j ≠ t) :
    (s.modTile t g).tile j = s.tile j := State.tile_setTile_other h _ hj

@[simp] theorem State.frame_setFrame_same (s : State) (f : Fin 8) (x : Frame) : (s.setFrame f x).frame f = x := by
  simp [State.frame, State.setFrame]

theorem State.frame_setFrame_other (s : State) {f k : Fin 8} (x : Frame) (h : k ≠ f) :
    (s.setFrame f x).frame k = s.frame k := by
  simp only [State.frame, State.setFrame]
  exact Vector.getElem_set_ne _ _ (fun e => h (Fin.ext e.symm))

/-! ### Register contexts -/

theorem Tile.ctx_setCtx (x : Tile) (a : Nat) (c : RegContext) : (x.setCtx a c).ctx a = c := by
  unfold Tile.setCtx Tile.ctx
  split
  · rfl
  · split <;> rfl

@[simp] theorem Tile.setCtx_active (x : Tile) (a : Nat) (c : RegContext) : (x.setCtx a c).active = x.active := by
  unfold Tile.setCtx
  split
  · rfl
  · split <;> rfl

@[simp] theorem Tile.core_setCtx (x : Tile) (c : RegContext) : (x.setCtx x.active c).core = c := by
  rw [Tile.core, Tile.setCtx_active, Tile.ctx_setCtx]

theorem RegContext.reg_setReg (c : RegContext) (rd q : Reg) (v : W64) :
    (c.setReg rd v).reg q = if q = 0 then 0 else if q = rd then v else c.reg q := by
  unfold RegContext.reg RegContext.setReg
  by_cases hq : q = 0
  · simp [hq]
  · by_cases hr : rd = 0
    · subst hr
      simp [hq]
    · by_cases e : q = rd
      · subst e
        simp [hq]
      · have : rd.val ≠ q.val := fun h => e (Fin.ext h.symm)
        simp [hq, hr, e, this]

/-! ### A core instruction -/

/-- An instruction whose fetch meets no trap runs its body, with the word fetched. -/
theorem runCore_next {s u : State} {t : Nat} {f : Fin 8} {i : Instr} (h : Fetched s t f i u)
    (body : State → Fin 8 → Nat → State) :
    ∃ w, coreInstr t w = some i ∧ runCore s t i body = .next (body u f w) := by
  obtain ⟨h1, h2, w, h3, h4⟩ := h
  refine ⟨w, h4, ?_⟩
  unfold runCore runFetched
  rw [if_neg (Nat.not_le.mpr h1), h2]
  simp only [h3, h4, beq_self_eq_true, if_true]

/-- An instruction whose body has no use for its word runs it. -/
theorem runCore_wordless {s u : State} {t : Nat} {f : Fin 8} {i : Instr} (h : Fetched s t f i u)
    (body : State → Fin 8 → State) : runCore s t i (fun s f _ => body s f) = .next (body u f) :=
  let ⟨_, _, e⟩ := runCore_next h fun s f _ => body s f
  e

theorem fetched_sound {s u : State} {t : Nat} {f : Fin 8} {i : Instr} (h : Fetched s t f i u)
    (hs : s.inv = true) : Sound u := by
  obtain ⟨w, e, _⟩ := h.word
  have k := (State.fetchWord_kept s t f).2 (inv_iff.mp hs)
  rwa [e] at k

/-- What changing the active context does. -/
theorem State.modCore_is {u : State} (h : srising u.tiles = true) (t : Nat) (g : RegContext → RegContext) :
    CoreIs u t (g (u.tile t).core) (u.modCore t g) := by
  have e : (u.modCore t g).tile t = (u.tile t).setCtx (u.tile t).active (g (u.tile t).core) :=
    State.tile_modTile_same h ..
  refine ⟨⟨⟨rfl, fun j hj => State.tile_modTile_other h _ hj⟩, ?_⟩, ?_⟩ <;> rw [e, Tile.core_setCtx]

/-- What a register result does. -/
theorem State.retire_wrote {u : State} (h : srising u.tiles = true) (t : Nat) (rd : Reg) (v : W64) :
    Wrote u t rd v (u.retire t rd v) := by
  obtain ⟨h1, h2⟩ := State.modCore_is h t fun c => (c.setReg rd v).advance
  have k : ∀ q, (u.retire t rd v).reg t q = ((u.tile t).core.setReg rd v).reg q := fun q => by
    unfold State.reg State.retire
    rw [h2]
    rfl
  refine ⟨h1, ?_, fun q hq => ?_, ?_⟩
  · rw [k, RegContext.reg_setReg]
    by_cases e : rd = 0 <;> simp [e]
  · rw [k, RegContext.reg_setReg]
    by_cases e : q = 0 <;> simp [e, hq, State.reg, RegContext.reg]
  · unfold State.retire
    rw [h2]
    unfold RegContext.setReg
    split <;> rfl

/-! ### Reads of core scratch -/

theorem onlyCounts_refl (s : State) (t : Nat) : OnlyCounts s s t := ⟨Eq.refl _, fun _ _ => Eq.refl _, Eq.refl _⟩

theorem onlyCounts_trans {a b c : State} {t : Nat} (h : OnlyCounts a b t) (g : OnlyCounts b c t) : OnlyCounts a c t :=
  by
  obtain ⟨h1, h2, h3⟩ := h
  obtain ⟨g1, g2, g3⟩ := g
  refine ⟨?_, fun j hj => (g2 j hj).trans (h2 j hj), ?_⟩
  · have e := congrArg (fun x : State => { x with freeCtr := a.freeCtr, tiles := a.tiles }) g1
    exact e.trans h1
  · rw [g3, h3]

theorem onlyCounts_draw (s : State) (t : Nat) : OnlyCounts s s.draw.2 t := ⟨Eq.refl _, fun _ _ => Eq.refl _, Eq.refl _⟩

theorem onlyCounts_count {s : State} (h : srising s.tiles = true) (t : Nat) (g : TileCounters → TileCounters) :
    OnlyCounts s (s.modTile t fun x => { x with cnt := g x.cnt }) t := by
  refine ⟨Eq.refl _, fun j hj => State.tile_modTile_other h _ hj, ?_⟩
  rw [State.tile_modTile_same h]

/-- A read of core scratch that meets no uncorrectable byte changes nothing but the counts of errors. -/
theorem State.readScratch_counts {s : State} (hs : Sound s) (t off n : Nat) (hg : (s.readScratch t off n).2.1 = none) :
    OnlyCounts s (s.readScratch t off n).2.2 t := by
  have key := foldl_rel (fun r : ReadOut × Option Nat × State => Sound r.2.2 ∧ (r.2.1 = none → OnlyCounts s r.2.2 t))
    (fun r p =>
      let d := r.2.2.draw
      let found := findErrors 1 2 p.2 d.1
      let o := p.1 - scratchAddr t 0
      let data := splice r.1.data (p.1 - scratchAddr t off)
        (found.data d.1 p.1 (slice r.1.data (p.1 - scratchAddr t off) 1))
      if found.bad then
        (⟨data, true⟩, some (r.2.1.getD o),
          ((d.2.logSplit p.2 2 t).modTile t fun x => { x with cnt := { x.cnt with
            scratchUe := satAdd 16 x.cnt.scratchUe 1, scratchLast := o } }).logEvent 0x0205 t)
      else if found.counts then
        (⟨data, r.1.bad⟩, r.2.1, d.2.modTile t fun x => { x with cnt := { x.cnt with
          scratchCe := satAdd 16 x.cnt.scratchCe 1, scratchLast := o } })
      else (⟨data, r.1.bad⟩, r.2.1, d.2))
    (fun r p h => by
      have hd : Sound r.2.2.draw.2 := (State.draw_kept _).2 h.1
      dsimp only
      split
      · refine ⟨?_, fun e => nomatch e⟩
        dsimp only
        exact (Kept.trans (Kept.trans (State.logSplit_kept ..) (State.modTile_kept ..)) (State.logEvent_kept ..)).2 hd
      · split
        · refine ⟨?_, fun e => ?_⟩ <;> dsimp only at *
          · exact (State.modTile_kept ..).2 hd
          · exact onlyCounts_trans (onlyCounts_trans (h.2 e) (onlyCounts_draw ..)) (onlyCounts_count hd.tables_rising t
              fun c => { c with scratchCe := satAdd 16 c.scratchCe 1, scratchLast := p.1 - scratchAddr t 0 })
        · exact ⟨hd, fun e => onlyCounts_trans (h.2 e) (onlyCounts_draw ..)⟩)
    (errsIn s.errs (scratchAddr t off) n) (⟨s.mem.read (scratchAddr t off) n, false⟩, none, s)
    ⟨hs, fun _ => onlyCounts_refl s t⟩
  exact key.2 hg

/-- A fetch that meets no trap changes nothing but the counts of errors and the pair the core holds. -/
theorem fetched_counts {s u : State} {t : Nat} {f : Fin 8} {i : Instr} (h : Fetched s t f i u)
    (hs : s.inv = true) : OnlyFetch s u t := by
  obtain ⟨w, e, _⟩ := h.word
  unfold State.fetchWord at e
  dsimp only at e
  split at e
  · cases e
  split at e
  · injection e with _ e
    subst e
    exact ⟨rfl, fun _ _ => rfl, rfl⟩
  unfold State.fetchPair at e
  dsimp only at e
  split at e
  · cases e
  split at e
  · cases e
  rename_i hr
  injection e with _ e
  subst e
  have k := State.readScratch_counts (inv_iff.mp hs) t _ 8 hr
  have ks := ((State.readScratch_kept s t ((s.tile t).core.pc.toNat / 8 * 8) 8).2 (inv_iff.mp hs)).tables_rising
  refine ⟨k.1, fun j hj => (State.tile_modTile_other ks _ hj).trans (k.2.1 j hj), ?_⟩
  rw [State.tile_modTile_same ks]
  dsimp only
  rw [k.2.2]

/-- After a fetch the core still waits on nothing and no trap entry is in progress. -/
theorem fetched_free {s u : State} {t : Nat} {f : Fin 8} {i : Instr} (h : Fetched s t f i u)
    (hs : s.inv = true) : (u.tile t).coreFree = true := by
  have e := h.ready
  unfold State.coreReady at e
  rw [(fetched_counts h hs).2.2]
  split at e
  · split at e
    · rename_i g
      exact g
    · cases e
  · cases e

theorem Tile.coreFree_wait {x : Tile} (h : x.coreFree = true) : x.wait = .none := by
  simp only [Tile.coreFree, Bool.and_eq_true, beq_iff_eq] at h
  exact h.1.1.2

theorem Tile.coreFree_entry {x : Tile} (h : x.coreFree = true) : x.trap.entry = none := by
  simp only [Tile.coreFree, Bool.and_eq_true, Option.isNone_iff_eq_none] at h
  exact h.1.2

end Sys2Proof.Machine
end

