-- ==== Sys2Proof/Laws/Engines.lean ====
section
/-! SUPPORT. Laws/Engines: what the reads and writes of an engine operation leave alone. -/

namespace Sys2Proof.Machine

open Sys2Proof.Safety

/-- `b` keeps what `a` keeps, and differs from it only in what an engine's reads and writes change. -/
def Rec (t : Nat) (a b : State) : Prop := Kept a b ∧ (Sound a → OnlyRecords a b t)

theorem Rec.refl (t : Nat) (s : State) : Rec t s s :=
  ⟨Kept.rfl s, fun _ => ⟨fun _ _ => Eq.refl _, Eq.refl _, Eq.refl _, Eq.refl _⟩⟩

theorem Rec.trans {t : Nat} {a b c : State} (h : Rec t a b) (g : Rec t b c) : Rec t a c := by
  refine ⟨h.1.trans g.1, fun hs => ?_⟩
  obtain ⟨h1, h2, h3, h4⟩ := h.2 hs
  obtain ⟨g1, g2, g3, g4⟩ := g.2 (h.1.2 hs)
  refine ⟨fun j hj => (g1 j hj).trans (h1 j hj), g2.trans h2, g3.trans h3, ?_⟩
  rw [g4, h4]

/-- An update that leaves tiles, frames and grid alone. -/
theorem Rec.of_same {t : Nat} {a b : State} (k : Kept a b) (h1 : b.tiles = a.tiles) (h2 : b.frames = a.frames)
    (h3 : b.grid = a.grid) : Rec t a b :=
  ⟨k, fun _ => ⟨fun _ _ => State.tile_of_tiles h1 _, h2, h3, by rw [State.tile_of_tiles h1]⟩⟩

/-- An update of the counts and the watch unit of the tile. -/
theorem Rec.of_modTile {t : Nat} (s : State) (g : Tile → Tile)
    (h : ∀ x, g x = { x with cnt := (g x).cnt, watch := (g x).watch }) : Rec t s (s.modTile t g) :=
  ⟨State.modTile_kept .., fun hs => ⟨fun _ hj => State.tile_modTile_other hs.tables_rising _ hj, Eq.refl _, Eq.refl _,
    by
    rw [State.tile_modTile_same hs.tables_rising]; exact h _⟩⟩

theorem Rec.draw (t : Nat) (s : State) : Rec t s s.draw.2 := Rec.of_same (State.draw_kept _) rfl rfl rfl

theorem Rec.count64 (t : Nat) (s : State) (i sub : Nat) : Rec t s (s.count64 i sub) :=
  Rec.of_same (State.count64_kept ..) rfl rfl rfl

theorem Rec.count32 (t : Nat) (s : State) (i sub : Nat) : Rec t s (s.count32 i sub) :=
  Rec.of_same (State.count32_kept ..) rfl rfl rfl

theorem Rec.logEvent (t : Nat) (s : State) (e d : Nat) : Rec t s (s.logEvent e d) :=
  Rec.of_same (State.logEvent_kept ..) (by simp) (by simp) (by simp)

theorem Rec.logSplit (t : Nat) (s : State) (e : CellErr) (c n : Nat) : Rec t s (s.logSplit e c n) := by
  unfold State.logSplit
  split
  · exact Rec.logEvent ..
  · exact Rec.refl ..

theorem Rec.windowRefusal (s : State) (t c m u : Nat) : Rec t s (s.windowRefusal t c m u) :=
  Rec.of_modTile s _ fun _ => rfl

theorem Rec.pendRow (s : State) (t row : Nat) : Rec t s (s.pendRow t row) := by
  refine Rec.of_same (State.pendRow_kept ..) ?_ ?_ ?_ <;> unfold State.pendRow <;> split <;> rfl

theorem Rec.scanGroup (t row req cyc : Nat) (r : RowScan) (p : Nat × CellErr) :
    Rec t r.s (scanGroup t row req cyc r p).s := by
  unfold Machine.scanGroup
  extract_lets d x g found word data s
  have h : Rec t r.s s := Rec.trans (Rec.draw ..) (Rec.logSplit ..)
  split
  · exact h.trans (Rec.of_modTile s _ fun _ => rfl)
  · split
    · exact h.trans (Rec.of_modTile s _ fun _ => rfl)
    · exact h

theorem Rec.close (t row : Nat) (r : RowScan) : Rec t r.s (r.close t row) := by
  unfold RowScan.close
  extract_lets s1 s2 s3
  have h1 : Rec t r.s s1 := Rec.of_modTile r.s _ fun _ => rfl
  have h2 : Rec t s1 s2 := by
    unfold s2
    split
    · exact Rec.refl ..
    · exact Rec.pendRow ..
  have h3 : Rec t r.s s3 := by
    unfold s3
    split
    · exact Rec.trans (Rec.trans h1 h2) (Rec.logEvent ..)
    · exact Rec.refl ..
  split
  · exact Rec.trans h3 (Rec.count64 ..)
  · exact h3

theorem Rec.readRow (s : State) (t row req : Nat) : Rec t s (s.readRow t row req).2 :=
  Rec.trans (foldl_rel (fun r : RowScan => Rec t s r.s) _ (fun r p h => Rec.trans h (Rec.scanGroup ..))
    (errsIn s.errs (mainAddr t (row * 512)) 512) { data := s.mem.read (mainAddr t (row * 512)) 512, s := s }
    (Rec.refl t s)) (Rec.close t row (s.scanRow t row req))

theorem Rec.writeRow (s : State) (t row : Nat) (d : List Byte) (p : Bool) : Rec t s (s.writeRow t row d p) :=
  Rec.of_same (State.writeRow_kept ..) rfl rfl rfl

theorem Rec.engineRow (s : State) (t c req r : Nat) : Rec t s (s.engineRow t c req r).2 := by
  unfold State.engineRow
  split
  · exact Rec.readRow ..
  · exact Rec.windowRefusal ..

theorem Rec.readEngineRow (t c req : Nat) (a : EngineReads) (r : Nat) : Rec t a.s (readEngineRow t c req a r).s := by
  unfold Machine.readEngineRow
  split
  · exact Rec.refl ..
  · exact Rec.engineRow ..

/-- The reads of an engine operation. -/
theorem State.engineReads_rec (s : State) (t c req : Nat) (rows : List Nat) : Rec t s (s.engineReads t c req rows).s :=
  foldl_rel (fun a : EngineReads => Rec t s a.s) _ (fun _ _ h => Rec.trans h (Rec.readEngineRow ..)) rows _
    (Rec.refl t s)

theorem Rec.engineWrite (s : State) (t c r : Nat) (d : List Byte) (p : Bool) : Rec t s (s.engineWrite t c r d p).2 := by
  unfold State.engineWrite
  split
  · exact Rec.writeRow ..
  · exact Rec.windowRefusal ..

/-- The rows an engine operation writes. -/
theorem State.writeOut_rec (s : State) (t c : Nat) (b : OutBuf) (bus : Option Nat) : Rec t s
  (s.writeOut t c b bus).2 := by
  unfold State.writeOut
  refine foldl_rel (fun a : Option Nat × State => Rec t s a.2) _ (fun a r h => ?_) _ _ (Rec.refl t s)
  exact Rec.trans h (Rec.engineWrite ..)

theorem Rec.recordNonfinite (s : State) (t c n : Nat) (g : Bool) : Rec t s (s.recordNonfinite t c n g) := by
  unfold State.recordNonfinite
  split
  · exact Rec.refl ..
  · exact Rec.of_modTile s _ fun _ => rfl

theorem Rec.modSlot (s : State) (t i : Nat) (f : WatchSlot → WatchSlot) : Rec t s (s.modSlot t i f) :=
  Rec.of_modTile s _ fun _ => rfl

theorem Rec.recordWatch (s : State) (t c tid sat flush nf : Nat) (amax : Option W32) :
    Rec t s (s.recordWatch t c tid sat flush nf amax) := by
  unfold State.recordWatch
  split
  · exact Rec.refl ..
  · split
    · exact Rec.of_same (State.countDropped_kept ..) rfl rfl rfl
    · extract_lets x
      split
      · exact Rec.trans (Rec.count32 ..) (Rec.of_modTile _ _ fun _ => rfl)
      · exact Rec.modSlot ..

/-- What an operation's outputs are recorded in. -/
theorem State.recordOutputs_rec (s : State) (t : Nat) (op : EngOp) (h : Header) (b : OutBuf) (amax : Option W32) :
    Rec t s (s.recordOutputs t op h b amax) :=
  Rec.trans (Rec.recordNonfinite ..) (Rec.recordWatch ..)

theorem Rec.readLine (s : State) (t line : Nat) : Rec t s (s.readLine t line).2 := by
  unfold State.readLine
  refine foldl_rel (fun r : ReadOut × State => Rec t s r.2) _ (fun r p h => Rec.trans h ?_) _ _ (Rec.refl t s)
  dsimp only
  split
  · exact Rec.trans (Rec.trans (Rec.trans (Rec.draw ..) (Rec.logSplit ..)) (Rec.of_modTile _ _ fun _ => rfl))
      (Rec.logEvent ..)
  · split
    · exact Rec.trans (Rec.draw ..) (Rec.of_modTile _ _ fun _ => rfl)
    · exact Rec.draw ..

theorem Rec.readScratch (s : State) (t off n : Nat) : Rec t s (s.readScratch t off n).2.2 := by
  unfold State.readScratch
  refine foldl_rel (fun r : ReadOut × Option Nat × State => Rec t s r.2.2) _ (fun r p h => Rec.trans h ?_) _ _
    (Rec.refl t s)
  dsimp only
  split
  · exact Rec.trans (Rec.trans (Rec.trans (Rec.draw ..) (Rec.logSplit ..)) (Rec.of_modTile _ _ fun _ => rfl))
      (Rec.logEvent ..)
  · split
    · exact Rec.trans (Rec.draw ..) (Rec.of_modTile _ _ fun _ => rfl)
    · exact Rec.draw ..

/-- The reads of a row operation's records in stat memory. -/
theorem State.statReads_rec (s : State) (t c first n : Nat) : Rec t s (s.statReads t c first n).s := by
  unfold State.statReads
  refine foldl_rel (fun a : StatReads => Rec t s a.s) _ (fun a m h => Rec.trans h ?_) _ _ (Rec.refl t s)
  unfold State.statRecord
  dsimp only
  split
  · exact Rec.windowRefusal ..
  · exact Rec.readLine ..

theorem Rec.writeRecord (s : State) (t c i : Nat) (r : W32 × W32) : Rec t s (s.writeRecord t c i r).2 := by
  have k := State.writeRecord_kept s t c i r
  unfold State.writeRecord at *
  split
  · rename_i h
    rw [if_pos h] at k
    exact Rec.of_same k rfl rfl rfl
  · exact Rec.windowRefusal ..

/-- The reads of a DMA operation's pieces. -/
theorem State.readPieces_rec (s : State) (t c space a n : Nat) : Rec t s (s.readPieces t c space a n).s := by
  unfold State.readPieces
  split
  · exact State.engineReads_rec ..
  · refine foldl_rel (fun a : Pieces => Rec t s a.s) _ (fun a m h => Rec.trans h ?_) _ _ (Rec.refl t s)
    unfold State.readPiece
    dsimp only
    split <;> split
    · exact Rec.windowRefusal ..
    · exact Rec.readScratch ..
    · exact Rec.windowRefusal ..
    · exact Rec.readLine ..

/-- The writes of a DMA operation's pieces. -/
theorem State.writePieces_rec (s : State) (t c space a : Nat) (ps : List (List Byte × Bool)) (bus : Option Nat) :
    Rec t s (s.writePieces t c space a ps bus).2 := by
  unfold State.writePieces
  split
  · refine foldl_rel (fun a : Option Nat × State => Rec t s a.2) _ (fun a r h => ?_) _ _ (Rec.refl t s)
    exact Rec.trans h (Rec.engineWrite ..)
  · refine foldl_rel (fun a : Option Nat × State => Rec t s a.2) _ (fun a m h => Rec.trans h ?_) _ _ (Rec.refl t s)
    unfold State.writePiece
    dsimp only
    split <;> split
    · exact Rec.of_same (State.writeScratch_kept ..) rfl rfl rfl
    · exact Rec.windowRefusal ..
    · exact Rec.of_same (State.writeLine_kept ..) rfl rfl rfl
    · exact Rec.windowRefusal ..

end Sys2Proof.Machine
end

