-- ==== Sys2Proof/Laws/KeptSums.lean ====
section
/-! SUPPORT. KeptSums: every operation of the model leaves the queue of waiting commands alone and keeps a sound state
sound; here tally, landing, watch, update, roll and moves. One lemma per operation. -/

namespace Sys2Proof.Machine

/-! ### JobTables.lean -/

theorem State.landingAt_kept (s : State) (j : Fin 16) (i : Nat) (bucket : Nat) : Kept s (State.landingAt s j i
    bucket).2 := by
  grind [State.landingAt, Kept, !. State.readTable_kept]

theorem State.checkEval_kept (s : State) (f : Fin 8) : Kept s (State.checkEval s f) := by
  grind [State.checkEval, Kept, !. State.modFrame_kept]

/-! ### Tally.lean -/

theorem State.bucketAt_kept (s : State) (j : Fin 16) (i : Nat) (bucket : Nat) : Kept s (State.bucketAt s j i
    bucket).2 := by
  grind [State.bucketAt, Kept, !. State.readTable_kept]

theorem State.groupList_kept (s : State) (j : Fin 16) (i : Nat) (group : Nat) : Kept s (State.groupList s j i
    group).2 := by
  grind [State.groupList, Kept, !. State.readTable_kept]

theorem State.setExp_kept (s : State) (j : Fin 16) (i : Nat) (bucket : Nat) (e : Option Int) : Kept s
    (State.setExp s j i bucket e) := by
  exact State.writeTable_kept ..

theorem State.modRoll_kept (s : State) (j : Fin 16) (f : Roll → Roll) : Kept s (State.modRoll s j f) := by
  grind [State.modRoll, Kept, Sound, State.rising, srising_sput, srising_smod, srising_sclear, Mem.write_wf,
      Mem.zero_wf]

theorem State.setCtx_kept (s : State) (c : Nat) (x : Option TallyCtx) : Kept s (State.setCtx s c x) := by
  grind [State.setCtx, Kept, Sound, State.rising, srising_sput, srising_smod, srising_sclear, Mem.write_wf,
      Mem.zero_wf]

theorem State.touchBlock_kept (s : State) (ch : Nat) (b : Nat) : Kept s (State.touchBlock s ch b).2 := by
  grind [State.touchBlock, Kept, Sound, State.rising, srising_sput, srising_smod, srising_sclear, Mem.write_wf,
      Mem.zero_wf, !. State.count64_kept]

theorem State.flushBlocks_kept (s : State) (ch : Nat) (a : Nat) (n : Nat) (count : Bool) : Kept s
    (State.flushBlocks s ch a n count) := by
  grind [State.flushBlocks, Kept, Sound, State.rising, srising_sput, srising_smod, srising_sclear, Mem.write_wf,
      Mem.zero_wf, !. State.odAdd_kept]

theorem State.adjust_kept (s : State) (ch : Nat) (a : Nat) (w : Nat) (f : Nat → Nat) : Kept s (State.adjust s ch a
    w f) := by
  grind [State.adjust, Kept, !. State.touchBlock_kept, !. State.readBlock_kept, !. State.writeBlock_kept]

theorem State.ownerView_kept (s : State) (h : TallyHeader) : Kept s (State.ownerView s h).2 := by
  grind [State.ownerView, Kept, !. State.bucketAt_kept, !. State.groupList_kept]

theorem State.openCtx_kept (s : State) (h : TallyHeader) (b : BucketRec) (g : List Nat) : Kept s (State.openCtx s
    h b g).2 := by
  grind [State.openCtx, Kept, !. State.count32_kept, !. State.setCtx_kept]

theorem State.addPairs_kept (s : State) (x : TallyCtx) (pairs : List (Nat × Nat)) : Kept s (State.addPairs s x
    pairs) := by
  unfold State.addPairs
  refine foldl_kept _ (fun s x => ?_) _ _
  grind [Kept, !. State.adjust_kept]

theorem State.toClosing_kept (s : State) (c : Nat) (x : TallyCtx) : Kept s (State.toClosing s c x) := by
  grind [State.toClosing, Kept, !. State.setCtx_kept, !. State.flushBlocks_kept]

theorem State.settleCtx_kept (s : State) (c : Nat) : Kept s (State.settleCtx s c) := by
  grind [State.settleCtx, Kept, !. State.toClosing_kept]

theorem State.acceptSegment_kept (s : State) (c : Nat) (x : TallyCtx) (h : TallyHeader) (pairs : List (Nat × Nat))
    : Kept s (State.acceptSegment s c x h pairs) := by
  grind [State.acceptSegment, Kept, !. State.addPairs_kept, !. State.count64_kept, !. State.setCtx_kept, !.
      State.count32_kept, !. State.settleCtx_kept]

theorem State.answerTally_kept (s : State) (src : TallySource) (status : Nat) (e : Int) : Kept s
    (State.answerTally s src status e) := by
  grind [State.answerTally, Kept, !. State.emit_kept, !. State.takeTxn_kept, !. State.sendTxn_kept]

theorem State.refuseSegment_kept (s : State) (v : OwnerView) (src : TallySource) (h : TallyHeader) (status : Nat)
    : Kept s (State.refuseSegment s v src h status) := by
  grind [State.refuseSegment, Kept, !. State.odSet_kept, !. State.count64_kept, !. State.setCtx_kept]

theorem execTallySegmentArrival_kept (src : TallySource) (header : BitVec 128) (data : List Byte) (s : State) : ∀
    nx, execTallySegmentArrival src header data s = .next nx → Kept s nx := by
  grind [execTallySegmentArrival, Kept, !. State.ownerView_kept, !. State.answerTally_kept, !.
      State.refuseSegment_kept, !. State.openCtx_kept, !. State.acceptSegment_kept]

theorem State.discardCtx_kept (s : State) (c : Nat) : Kept s (State.discardCtx s c) := by
  grind [State.discardCtx, Kept, !. State.count32_kept, !. State.setCtx_kept]

theorem State.zeroSum_kept (s : State) (a : Nat) (n : Nat) : Kept s (State.zeroSum s a n) := by
  unfold State.zeroSum
  extract_lets u
  exact Kept.trans (b := u) (State.flushBlocks_kept ..) (foldl_kept _ (fun s i => State.writeBlock_kept ..) _ u)

theorem State.sendNotice_kept (s : State) (h : BitVec 128) (dev : Nat) : Kept s (State.sendNotice s h dev) := by
  grind [State.sendNotice, Kept, !. State.emit_kept, !. State.requestOrWait_kept]

theorem State.notify_kept (s : State) (x : TallyCtx) (kind : Nat) (e : Int) (devs : List Nat) : Kept s
    (State.notify s x kind e devs) := by
  unfold State.notify
  refine foldl_kept _ (fun s x => ?_) _ _
  grind [Kept, !. State.sendNotice_kept]

theorem State.pushExponent_kept (s : State) (x : TallyCtx) (m : Int) : Kept s (State.pushExponent s x m).2 := by
  unfold State.pushExponent
  dsimp only
  split
  all_goals first
    | grind [Kept, !. State.bucketAt_kept, !. State.writeTable_kept]
    | (refine foldl_kept _ (fun s x => ?_) _ _ <;> grind [Kept, !. State.bucketAt_kept, !. State.writeTable_kept])
    | (refine Kept.trans ?_ (foldl_kept _ (fun s x => ?_) _ _) <;> grind [Kept, !. State.bucketAt_kept, !.
        State.writeTable_kept])

theorem State.closeSum_kept (s : State) (c : Nat) (x : TallyCtx) : Kept s (State.closeSum s c x) := by
  grind [State.closeSum, Kept, Sound, State.rising, srising_sput, srising_smod, srising_sclear, Mem.write_wf,
      Mem.zero_wf, !. State.count64_kept, !. State.setCtx_kept]

theorem State.noteExp_kept (s : State) (x : TallyCtx) (e : Int) : Kept s (State.noteExp s x e) := by
  grind [State.noteExp, Kept, Sound, State.rising, srising_sput, srising_smod, srising_sclear, Mem.write_wf,
      Mem.zero_wf]

theorem State.closeCtx_kept (s : State) (c : Nat) (x : TallyCtx) : Kept s (State.closeCtx s c x) := by
  grind [State.closeCtx, Kept, !. State.closeSum_kept, !. State.setCtx_kept, !. State.notify_kept, !.
      State.settleCtx_kept, !. State.pushExponent_kept, !. State.noteExp_kept, !. State.zeroSum_kept, !.
      State.count32_kept]

/-! ### Landing.lean -/

theorem State.dropLanding_kept (s : State) (src : Nat) (f : Fin 8) (x : ReturnRow) : Kept s (State.dropLanding s
    src f x) := by
  grind [State.dropLanding, Kept, Sound, State.rising, srising_sput, srising_smod, srising_sclear, Mem.write_wf,
      Mem.zero_wf, !. State.odSet_kept, !. State.count32_kept]

theorem State.placeRow_kept (s : State) (a : Nat) (data : List Byte) (poison : Bool) : Kept s (State.placeRow s a data
    poison).2 := by
  grind [State.placeRow, Kept, !. State.writeRow_kept, !. State.windowRefusal_kept]

theorem State.completeLanding_kept (s : State) (f : Fin 8) (x : ReturnRow) (step : Nat) (l : Landing) (r : LandingRec)
    (n : Nat) : Kept s (State.completeLanding s f x step l r n) := by
  have key := foldl_kept (fun (s : State) a => (s.placeRow a (zeroBytes 512) false).2) (fun s a =>
      State.placeRow_kept s a _ _) (r.rows.drop n) s
  have land (s : State) (l : List Landing) : Kept s { s with landings := l } := ⟨Eq.refl _, fun h => ⟨h.mem, h.stat,
      h.columns, h.width, h.log, h.kept, h.emcy, h.history, h.queue, h.first, h.last, h.flash, h.rising⟩⟩
  simp only [State.completeLanding]
  refine Kept.trans ?_ (State.checkEval_kept ..)
  refine Kept.trans (Kept.trans key ?_) (land ..)
  exact Kept.ite (State.supervisorSend_kept ..) (Kept.rfl _)

theorem State.landReturn_kept (s : State) (src : Nat) (f : Fin 8) (x : ReturnRow) : Kept s (State.landReturn s src
    f x).2 := by
  simp only [State.landReturn]
  repeat' split
  all_goals grind [Kept, Sound, State.rising, srising_sput, srising_smod, srising_sclear, !. State.dropLanding_kept, !.
      State.landingAt_kept, !. State.placeRow_kept, !. State.completeLanding_kept]

theorem State.serveReturn_kept (s : State) (src : Nat) (x : Txn) : Kept s (State.serveReturn s src x) := by
  grind [State.serveReturn, Kept, !. State.takeTxn_kept, !. State.landReturn_kept, !. State.ackTxn_kept]

theorem execWeightReturnReceive_kept (src : Nat) (x : Txn) (s : State) : ∀ nx, execWeightReturnReceive src x s =
    .next nx → Kept s nx := by
  grind [execWeightReturnReceive, Kept, !. State.serveReturn_kept]

/-! ### Watch.lean -/

theorem execWatchLineCopy_kept (t : Nat) (slot : Fin 16) (s : State) : ∀ nx, execWatchLineCopy t slot s = .next nx
    → Kept s nx := by
  refine onTile_kept s t _ ?_
  grind [Kept, !. State.readLine_kept, !. State.modTile_kept, !. State.writeLine_kept, Sound, State.rising,
      srising_sput, srising_smod, srising_sclear]

theorem State.alarm_kept (s : State) (tid : Nat) (kind : Nat) (step : Nat) : Kept s (State.alarm s tid kind step)
    := by
  grind [State.alarm, Kept, !. State.logEvent_kept, !. State.odSet_kept, !. State.count32_kept, !.
      State.publish_kept]

theorem State.closeTensor_kept (s : State) (f : Fin 8) (step : Nat) (tid : Nat) (r : Nat) (scanBad : Bool) : Kept
    s (State.closeTensor s f step tid r scanBad) := by
  unfold State.closeTensor
  dsimp only
  split
  all_goals first
    | grind [Kept, !. State.setWatch_kept, !. State.alarm_kept]
    | (refine foldl_kept _ (fun s x => ?_) _ _ <;> grind [Kept, !. State.setWatch_kept, !. State.alarm_kept])
    | (refine Kept.trans ?_ (foldl_kept _ (fun s x => ?_) _ _) <;> grind [Kept, !. State.setWatch_kept, !.
        State.alarm_kept])

theorem State.writeScale_kept (s : State) (t : Nat) (i : Nat) (h : Nat) (scale : Nat) : Kept s (State.writeScale s
    t i h scale) := by
  grind [State.writeScale, Kept, !. State.writeScratch_kept]

theorem State.deliverScales_kept (s : State) (f : Fin 8) (step : Nat) (t : Nat) : Kept s (State.deliverScales s f
    step t) := by
  simp only [State.deliverScales]
  refine Kept.trans (Kept.trans (foldl_kept _ (fun s p => ?_) _ _) (State.signal_kept ..)) (State.wake_kept ..)
  split
  · exact Kept.rfl s
  · exact State.writeScale_kept ..

theorem State.closeStep_kept (s : State) (f : Fin 8) (step : Nat) : Kept s (State.closeStep s f step) := by
  simp only [State.closeStep]
  split
  · exact Kept.rfl s
  · refine Kept.trans ?_ (State.modFrame_kept ..)
    have k : ∀ (s : State) (p : List WatchPost), Kept s { s with posts := p } := fun s p => by grind [Kept, Sound,
        State.rising, srising_sput, srising_smod, srising_sclear]
    refine Kept.trans ?_ (k ..)
    exact Kept.trans (foldl_kept _ (fun s p => State.closeTensor_kept ..) _ _) (foldl_kept _ (fun s t =>
        State.deliverScales_kept ..) _ _)

theorem execWatchStepClose_kept (f : Fin 8) (s : State) : ∀ nx, execWatchStepClose f s = .next nx → Kept s nx := by
  grind [execWatchStepClose, Kept, !. State.closeStep_kept]

theorem execWatchRecordArrival_kept (r : WatchPost) (poisoned : Bool) (s : State) : ∀ nx, execWatchRecordArrival r
    poisoned s = .next nx → Kept s nx := by
  grind [execWatchRecordArrival, Kept, Sound, State.rising, srising_sput, srising_smod, srising_sclear, Mem.write_wf,
      Mem.zero_wf, !. State.count32_kept]

theorem State.shadowResult_kept (s : State) (t : Nat) (j : ShadowJob) : Kept s (State.shadowResult s t j).2 := by
  exact State.engineReads_kept ..

theorem State.shadowSample_kept (s : State) (f : Fin 8) (tid : Nat) (e : W32) : Kept s (State.shadowSample s f tid
    e) := by
  grind [State.shadowSample, Kept, !. State.count32_kept, !. State.setWatch_kept, !. State.alarm_kept]

theorem execShadowJobComplete_kept (t : Nat) (s : State) : ∀ nx, execShadowJobComplete t s = .next nx → Kept s nx
    := by
  grind [execShadowJobComplete, Kept, !. onRunning_kept, !. State.shadowResult_kept, !. State.modTile_kept, !.
      State.modSlot_kept, !. State.shadowSample_kept]

/-! ### TallySend.lean -/

theorem State.sendRoll_kept (s : State) (j : Fin 16) (dev : Nat) (service : Nat) (payload : List Byte) : Kept s
    (State.sendRoll s j dev service payload) := by
  grind [State.sendRoll, Kept, !. State.sendMsg_kept]

theorem State.sendKeepers_kept (s : State) (j : Fin 16) (service : Nat) (payload : List Byte) : Kept s
    (State.sendKeepers s j service payload) := by
  grind [State.sendKeepers, Kept, !. State.sendRoll_kept]

theorem State.sendReport_kept (s : State) (j : Fin 16) (sent : Bool) : Kept s (State.sendReport s j sent) := by
  grind [State.sendReport, Kept, !. State.sendRoll_kept]

theorem State.checkSent_kept (s : State) (j : Fin 16) : Kept s (State.checkSent s j) := by
  grind [State.checkSent, Kept, !. State.sendReport_kept, !. State.modRoll_kept]

theorem State.checkClosed_kept (s : State) (j : Fin 16) : Kept s (State.checkClosed s j) := by
  grind [State.checkClosed, Kept, !. State.sendReport_kept, !. State.modRoll_kept]

theorem State.sendAt_kept (s : State) (j : Fin 16) (n : Nat) : Kept s (State.sendAt s j n).2 := by
  grind [State.sendAt, Kept, !. State.readTable_kept]

theorem State.contribution_kept (s : State) (x : SendEntry) : Kept s (State.contribution s x).2 := by
  grind [State.contribution, Kept, !. State.readTable_kept]

theorem State.modRec_kept (s : State) (j : Fin 16) (n : Nat) (f : SendRec → SendRec) : Kept s (State.modRec s j n
    f) := by
  grind [State.modRec, Kept, !. State.modRoll_kept]

theorem State.lateFault_kept (s : State) (j : Fin 16) (n : Nat) (kind : Nat) (hard : Bool) : Kept s
    (State.lateFault s j n kind hard) := by
  grind [State.lateFault, Kept, !. State.count32_kept, !. State.modRec_kept, !. State.modRoll_kept]

theorem State.sendSegment_kept (s : State) (j : Fin 16) (n : Nat) (x : SendEntry) (sfr : Nat) (p : BitVec 128 ×
    List Byte) : Kept s (State.sendSegment s j n x sfr p) := by
  grind [State.sendSegment, Kept, !. State.count64_kept, !. State.modRec_kept, !. State.emit_kept, !.
      State.lateFault_kept, !. State.requestOrWait_kept]

theorem State.sendRecord_kept (s : State) (j : Fin 16) (n : Nat) : Kept s (State.sendRecord s j n) := by
  unfold State.sendRecord
  dsimp only
  repeat' split
  all_goals first
    | grind [Kept, !. State.sendAt_kept, !. State.lateFault_kept, !. State.contribution_kept, !.
        State.modRec_kept, !. State.sendSegment_kept]
    | (refine foldl_kept _ (fun s x => ?_) _ _ <;> grind [Kept, !. State.sendAt_kept, !. State.lateFault_kept, !.
        State.contribution_kept, !. State.modRec_kept, !. State.sendSegment_kept])
    | (refine Kept.trans ?_ (foldl_kept _ (fun s x => ?_) _ _) <;> grind [Kept, !. State.sendAt_kept, !.
        State.lateFault_kept, !. State.contribution_kept, !. State.modRec_kept, !. State.sendSegment_kept])

theorem execTallySendRecord_kept (j : Fin 16) (r : Nat) (s : State) : ∀ nx, execTallySendRecord j r s = .next nx →
    Kept s nx := by
  grind [execTallySendRecord, Kept, !. State.sendRecord_kept]

theorem execTallyRetry_kept (j : Fin 16) (r : Nat) (s : State) : ∀ nx, execTallyRetry j r s = .next nx → Kept s nx
    := by
  grind [execTallyRetry, Kept, !. State.sendRecord_kept]

theorem State.tallyStatus_kept (s : State) (j : Fin 16) (n step revision status : Nat) (e : Int) : Kept s
    (State.tallyStatus s j n step revision status e) := by
  grind [State.tallyStatus, Kept, !. State.modRec_kept, !. State.count64_kept, !. State.refuse_kept, !.
      State.lateFault_kept, !. State.modRoll_kept, !. State.sendAt_kept, !. State.setExp_kept, !.
      State.checkSent_kept]

theorem State.tallyLost_kept (s : State) (j : Fin 16) (n step revision : Nat) : Kept s (State.tallyLost s j n step
    revision) := by
  grind [State.tallyLost, Kept, !. State.modRec_kept, !. State.lateFault_kept]

theorem execTallyAckReceive_kept (j : Fin 16) (r step : Nat) (revision status : Fin 16) (e : BitVec 12) (s : State) :
    ∀ nx, execTallyAckReceive j r step revision status e s = .next nx → Kept s nx := by
  grind [execTallyAckReceive, Kept, !. State.tallyStatus_kept]

theorem State.applyNotice_kept (s : State) (h : TallyHeader) : Kept s (State.applyNotice s h) := by
  unfold State.applyNotice
  dsimp only
  repeat' split
  all_goals first
    | grind [Kept, !. State.modRec_kept, !. State.setExp_kept]
    | (refine foldl_kept _ (fun s x => ?_) _ _ <;> grind [Kept, !. State.modRec_kept, !. State.setExp_kept])
    | (refine Kept.trans ?_ (foldl_kept _ (fun s x => ?_) _ _) <;> grind [Kept, !. State.modRec_kept, !.
        State.setExp_kept])

theorem execTallyNoticeReceive_kept (header : BitVec 128) (s : State) : ∀ nx, execTallyNoticeReceive header s =
    .next nx → Kept s nx := by
  grind [execTallyNoticeReceive, Kept, !. State.ackTxn_kept, !. State.takeTxn_kept, !. State.applyNotice_kept]

theorem execTallyContextClose_kept (c : Fin 16384) (s : State) : ∀ nx, execTallyContextClose c s = .next nx → Kept
    s nx := by
  grind [execTallyContextClose, Kept, !. State.checkClosed_kept, !. State.closeCtx_kept]

theorem execTallyLeaseExpiry_kept (c : Fin 16384) (s : State) : ∀ nx, execTallyLeaseExpiry c s = .next nx → Kept s nx
    := by
  intro nx h
  unfold execTallyLeaseExpiry at h
  split at h
  · dsimp only at h
    split at h
    · cases h
      exact Kept.rfl s
    · cases h
      exact Kept.trans (Kept.trans (Kept.trans (State.discardCtx_kept ..) (State.count32_kept ..))
        (State.logEvent_kept ..)) (foldl_kept _ (fun s x => State.sendRoll_kept ..) _ _)
  · cases h
    exact Kept.rfl s

theorem execTallyDiscardComplete_kept (c : Fin 16384) (s : State) : ∀ nx, execTallyDiscardComplete c s = .next nx
    → Kept s nx := by
  grind [execTallyDiscardComplete, Kept, !. State.checkClosed_kept, !. State.setCtx_kept, !. State.zeroSum_kept]

/-! ### Access.lean -/

theorem State.countRefusal_kept (s : State) (write : Bool) (a : Nat) (n : Nat) : Kept s (State.countRefusal s
    write a n) := by
  grind [State.countRefusal, Kept, !. State.windowRefusal_kept]

theorem State.storeAt_kept (s : State) (a : Nat) (data : List Byte) (poison : Bool) : Kept s (State.storeAt s a
    data poison).2 := by
  unfold State.storeAt
  dsimp only
  split
  all_goals first
    | grind [Kept, !. State.writeRow_kept, !. State.writeDevice_kept]
    | (refine foldl_kept _ (fun s x => ?_) _ _ <;> grind [Kept, !. State.writeRow_kept, !. State.writeDevice_kept])
    | (refine Kept.trans ?_ (foldl_kept _ (fun s x => ?_) _ _) <;> grind [Kept, !. State.writeRow_kept, !.
        State.writeDevice_kept])

theorem State.loadAt_kept (s : State) (a : Nat) (n : Nat) : Kept s (State.loadAt s a n).2 := by
  unfold State.loadAt
  split
  · refine foldl_rel (fun a : ReadOut × State => Kept s a.2) _ (fun a r h => ?_) _ _ (Kept.rfl s)
    exact Kept.trans h (State.readRow_kept ..)
  · exact State.readDevice_kept ..

theorem State.writeChecked_kept (s : State) (f : Option (Fin 8)) (a : Nat) (data : List Byte) (poison : Bool) :
    Kept s (State.writeChecked s f a data poison).2 := by
  grind [State.writeChecked, Kept, !. State.countRefusal_kept, !. State.storeAt_kept]

theorem State.readChecked_kept (s : State) (f : Option (Fin 8)) (a : Nat) (n : Nat) : Kept s (State.readChecked s
    f a n).2.2 := by
  grind [State.readChecked, Kept, !. State.countRefusal_kept, !. State.loadAt_kept]

theorem State.refreshHosting_kept (s : State) (i : Nat) : Kept s (State.refreshHosting s i) := by
  grind [State.refreshHosting, Kept, !. State.odSet_kept]

theorem State.writeHosted_kept (s : State) (dev : Nat) (a : Nat) (data : List Byte) (poison : Bool) : Kept s
    (State.writeHosted s dev a data poison).2 := by
  grind [State.writeHosted, Kept, !. State.writeChecked_kept, !. State.refreshHosting_kept]

theorem State.readHosted_kept (s : State) (dev : Nat) (a : Nat) (n : Nat) : Kept s (State.readHosted s dev a
    n).2.2 := by
  grind [State.readHosted, Kept, !. State.readChecked_kept]

/-! ### DictCheck.lean -/

theorem State.countAbort_kept (s : State) (via : Path) (i : Nat) (sub : Nat) (code : Nat) : Kept s
    (State.countAbort s via i sub code) := by
  grind [State.countAbort, Kept, !. State.odSet_kept, !. State.count32_kept]

theorem State.served_kept (s : State) (via : Path) (i : Nat) (sub : Nat) (code : Nat) (out : List Byte) : Kept s
    (State.served s via i sub code out) := by
  grind [State.served, Kept, !. State.count64_kept, !. State.emit_kept, !. State.countAbort_kept]

theorem State.serveWrite_kept (s : State) (via : Path) (i sub : Nat) (data : List Byte) (body : State → Nat × State)
    (h : Kept s (body s).2) : Kept s (s.serveWrite via i sub data body) := by
  grind [State.serveWrite, Kept, !. State.served_kept, !. State.count32_kept]

theorem State.command_kept (s : State) (via : Path) (i sub v : Nat) (body : State → Nat × State)
    (h : Kept s (body s).2) : ∀ u, s.command via i sub v body = .next u → Kept s u := by
  intro u hu
  cases hu
  exact State.serveWrite_kept _ _ _ _ _ _ h

/-! ### Update.lean -/

theorem State.groupRecord_kept (s : State) (j : Fin 16) (g : Nat) : Kept s (State.groupRecord s j g).2 := by
  grind [State.groupRecord, Kept, !. State.readTable_kept]

theorem State.sealGroups_kept (s : State) (j : Fin 16) (step : Nat) : Kept s (State.sealGroups s j step) := by
  unfold State.sealGroups
  refine foldl_kept _ (fun s x => ?_) _ _
  grind [Kept, !. State.groupRecord_kept, !. State.writeTable_kept]

theorem State.writeMarked_kept (s : State) (a : Nat) (data : List Byte) (skip : Nat → Bool) : Kept s
    (State.writeMarked s a data skip) := by
  unfold State.writeMarked
  refine foldl_kept _ (fun s x => ?_) _ _
  grind [Kept, !. State.writeBlock_kept]

theorem State.pushAmax_kept (s : State) (a : Nat) (r : UpdateRec) (scale : Nat) (ws : List (W32 × Bool)) : Kept s
    (State.pushAmax s a r scale ws) := by
  simp only [State.pushAmax]
  have k : Kept s (if fmtHasTensorScale r.format then s.writeTable (a + 24) [BitVec.ofNat 8 scale] else s) := by
    split
    · exact State.writeTable_kept ..
    · exact Kept.rfl s
  split
  · exact k
  · exact Kept.trans (Kept.trans (Kept.trans k (State.writeTable_kept ..)) (State.writeTable_kept ..))
      (State.writeTable_kept ..)

theorem State.sendReturnRow_kept (s : State) (k : Fin 24) (who : Requester) (dev : Nat) (frame : Nat) (x :
    ReturnRow) : Kept s (State.sendReturnRow s k who dev frame x) := by
  grind [State.sendReturnRow, Kept, !. State.requestOrWait_kept]

theorem State.sendReturn_kept (s : State) (b : BucketJob) (rows : List ReturnRow) (dest : Nat) : Kept s
    (State.sendReturn s b rows dest) := by
  simp only [State.sendReturn]
  have k0 := State.count64_kept s 0x2A01 0x03
  split
  · have k1 := foldl_rel (fun a : Bool × State => Kept s a.2)
      (fun (a : Bool × State) x =>
        (a.1 || (a.2.landReturn (s.count64 0x2A01 0x03).device (frameIx (contribFrame dest)) x).1 == 1,
          (a.2.landReturn (s.count64 0x2A01 0x03).device (frameIx (contribFrame dest)) x).2))
      (fun a x h => Kept.trans h (State.landReturn_kept ..)) rows (false, s.count64 0x2A01 0x03) k0
    split
    · grind [Kept, Sound, State.rising, srising_sput, srising_smod, srising_sclear, !. State.count32_kept]
    · exact k1
  · split
    · grind [Kept, Sound, State.rising, srising_sput, srising_smod, srising_sclear]
    · refine Kept.trans ?_ (foldl_kept _ (fun s x => State.sendReturnRow_kept ..) _ _)
      grind [Kept, Sound, State.rising, srising_sput, srising_smod, srising_sclear]

theorem State.freeSum_kept (s : State) (b : BucketJob) : Kept s (State.freeSum s b) := by
  grind [State.freeSum, Kept, !. State.setCtx_kept]

theorem State.brokenBucket_kept (s : State) (b : BucketJob) : Kept s (State.brokenBucket s b) := by
  grind [State.brokenBucket, Kept, !. State.zeroSum_kept, !. State.freeSum_kept, !. State.count32_kept]

theorem State.updateJob_kept (s : State) (b : BucketJob) : Kept s (State.updateJob s b).2 := by
  grind [State.updateJob, Kept, !. State.readTable_kept, !. State.groupRecord_kept]

theorem State.resendTo_kept (s : State) (j : Fin 16) (dev : Nat) : Kept s (State.resendTo s j dev) := by
  simp only [State.resendTo]
  split
  · refine foldl_kept _ (fun s b => ?_) _ _
    grind [Kept, Sound, State.rising, srising_sput, srising_smod, srising_sclear, !. State.bucketAt_kept]
  · exact Kept.rfl s

theorem State.checkResends_kept (s : State) (j : Fin 16) : Kept s (State.checkResends s j) := by
  unfold State.checkResends
  dsimp only
  split
  all_goals first
    | grind [Kept, !. State.resendTo_kept, !. State.modRoll_kept]
    | (refine foldl_kept _ (fun s x => ?_) _ _ <;> grind [Kept, !. State.resendTo_kept, !. State.modRoll_kept])
    | (refine Kept.trans ?_ (foldl_kept _ (fun s x => ?_) _ _) <;> grind [Kept, !. State.resendTo_kept, !.
        State.modRoll_kept])

theorem State.readMarked_kept (s : State) (a n : Nat) : Kept s (s.readMarked a n).s := by
  unfold State.readMarked
  refine foldl_rel (fun m : Marked => Kept s m.s) _ (fun m i h => ?_) _ _ (Kept.rfl s)
  grind [Kept, !. State.readBlock_kept]

theorem State.readPage_kept (s : State) (a : Nat) (second : Bool) : Kept s (s.readPage a second).s := by
  have k := Kept.trans (State.readMarked_kept s a 1024) (State.readMarked_kept (s.readMarked a 1024).s (a + 2048) 64)
  generalize h : State.readMarked = f at *
  unfold State.readPage
  rw [h]
  split
  · rw [← h]
    exact State.readMarked_kept ..
  · exact k
theorem UpdateRun.chunk_kept (a : UpdateRun) (u : UpdateJob) (e : Int) (n p : Nat) : Kept a.s (a.chunk u e n p).s
    := by
  unfold UpdateRun.chunk
  refine Kept.trans ?_ (State.odAdd_kept ..)
  refine Kept.trans ?_ (State.odAdd_kept ..)
  refine Kept.trans ?_ (State.odAdd_kept ..)
  have k := fun (s0 : State) (n1 n2 n3 n4 n5 : Nat) (b : Bool) =>
    Kept.trans (Kept.trans (State.readMarked_kept s0 n1 n2)
      (State.readMarked_kept _ n3 n4)) (State.readPage_kept _ n5 b)
  refine Kept.trans ?_ (foldl_kept _ (fun s x => ?_) _ _)
  · refine Kept.ite ?_ ?_
    · refine Kept.trans ?_ (foldl_kept _ (fun s x => State.writeMarked_kept ..) _ _)
      exact k ..
    · refine Kept.trans ?_ (State.writeMarked_kept ..)
      refine Kept.trans ?_ (foldl_kept _ (fun s x => State.writeMarked_kept ..) _ _)
      exact k ..
  · split
    · exact Kept.rfl s
    · exact State.zeroSum_kept ..
theorem State.readMasters_kept (s : State) (u : UpdateJob) : Kept s (s.readMasters u).s :=
  Kept.trans (State.readMarked_kept ..) (State.odAdd_kept ..)
theorem State.runBucket_kept (s : State) (u : UpdateJob) : Kept s (s.runBucket u).s := by
  unfold State.runBucket
  split
  · exact State.readMasters_kept ..
  · split
    · exact Kept.trans (State.zeroSum_kept ..) (State.readMasters_kept ..)
    · split
      · exact Kept.trans (Kept.trans (State.zeroSum_kept ..) (State.count32_kept ..)) (State.readMasters_kept ..)
      · refine Kept.trans ?_ (State.count64_kept ..)
        exact foldl_rel (fun a : UpdateRun => Kept s a.s) _ (fun a p h => Kept.trans h (UpdateRun.chunk_kept ..)) _
          _ (Kept.rfl s)
theorem State.updateBucket_kept (s : State) (b : BucketJob) : Kept s (State.updateBucket s b) := by
  simp only [State.updateBucket]
  have k0 := State.updateJob_kept s b
  split
  · rename_i u h
    rw [h] at k0
    split
    · exact Kept.trans k0 (State.brokenBucket_kept ..)
    · exact Kept.trans k0 (State.count32_kept ..)
  · rename_i u a v h
    rw [h] at k0
    refine Kept.trans k0 (Kept.trans (State.runBucket_kept v u) ?_)
    refine Kept.trans ?_ (State.freeSum_kept ..)
    split
    · exact Kept.trans (foldl_kept _ (fun s x => State.sendReturn_kept ..) _ _) (State.pushAmax_kept ..)
    · exact foldl_kept _ (fun s x => State.sendReturn_kept ..) _ _

theorem execUpdateBucket_kept (e : Fin 4) (s : State) : ∀ nx, execUpdateBucket e s = .next nx → Kept s nx := by
  grind [execUpdateBucket, Kept, Sound, State.rising, srising_sput, srising_smod, srising_sclear, Mem.write_wf,
      Mem.zero_wf, !. State.checkResends_kept, !. State.updateBucket_kept]

theorem State.sendAgain_kept (s : State) (r : ReturnOut) : Kept s (State.sendAgain s r) := by
  simp only [State.sendAgain]
  have k0 := State.updateJob_kept s { r.bucket with sum := none }
  split
  · rename_i u h
    rw [h] at k0
    exact k0
  · rename_i u a v h
    rw [h] at k0
    exact Kept.trans k0 (Kept.trans (State.readMasters_kept ..) (State.sendReturn_kept ..))

theorem execWeightReturnResend_kept (e : Fin 4) (s : State) : ∀ nx, execWeightReturnResend e s = .next nx → Kept s
    nx := by
  grind [execWeightReturnResend, Kept, Sound, State.rising, srising_sput, srising_smod, srising_sclear,
      Mem.write_wf, Mem.zero_wf, !. State.checkResends_kept, !. State.sendAgain_kept]

theorem State.returnAnswered_kept (s : State) (job : Nat) (bucket : Nat) (dev : Nat) (frame : Nat) (status : Nat)
    : Kept s (State.returnAnswered s job bucket dev frame status) := by
  simp only [State.returnAnswered]
  have k : ∀ (s : State) (x : List ReturnOut), Kept s { s with returns := x } := fun s x => by grind [Kept, Sound,
      State.rising]
  split
  · exact Kept.rfl s
  · refine Kept.ite (Kept.trans ?_ (State.checkResends_kept ..)) ?_
    · exact Kept.trans (Kept.ite (State.count32_kept ..) (Kept.rfl s)) (k ..)
    · exact Kept.trans (Kept.ite (State.count32_kept ..) (Kept.rfl s)) (k ..)

theorem execRegenerateBucket_kept (via : Path) (j : Fin 16) (bucket : W16) (s : State) : ∀ nx,
    execRegenerateBucket via j bucket s = .next nx → Kept s nx := by
  grind [execRegenerateBucket, Kept, Sound, State.rising, srising_sput, srising_smod, srising_sclear,
      Mem.write_wf, Mem.zero_wf, !. State.command_kept, !. State.odSet_kept, !. State.bucketAt_kept]

/-! ### Roll.lean -/

theorem State.sendAnswer_kept (s : State) (j : Fin 16) (step : Nat) (ready : Bool) : Kept s (State.sendAnswer s j step
    ready) := by
  have key (s : State) : Kept s (allFrames.foldl (fun s f => s.modFrame f fun y => y.answered j.val step) s) :=
    foldl_kept _ (fun s f => State.modFrame_kept ..) _ s
  exact Kept.trans (Kept.trans (Kept.trans (State.modRoll_kept ..) (State.odSet_kept ..)) (key _))
    (State.sendKeepers_kept ..)

theorem execRollCallAnswer_kept (j : Fin 16) (s : State) : ∀ nx, execRollCallAnswer j s = .next nx → Kept s nx := by
  grind [execRollCallAnswer, Kept, !. State.sendAnswer_kept]

theorem State.sendDecision_kept (s : State) (j : Fin 16) (d : Decision) (dev : Nat) : Kept s (State.sendDecision s
    j d dev) := by
  unfold State.sendDecision
  split <;> exact State.sendRoll_kept ..

theorem State.broadcast_kept (s : State) (j : Fin 16) (d : Decision) : Kept s (State.broadcast s j d) := by
  unfold State.broadcast
  refine foldl_kept _ (fun s x => ?_) _ _
  grind [Kept, !. State.sendDecision_kept]

theorem State.propose_kept (s : State) (j : Fin 16) (d : Decision) : Kept s (State.propose s j d) := by
  grind [State.propose, Kept, !. State.broadcast_kept, !. State.modRoll_kept, !. State.sendDecision_kept]

theorem State.decisionAcked_kept (s : State) (j : Fin 16) : Kept s (State.decisionAcked s j) := by
  grind [State.decisionAcked, Kept, !. State.broadcast_kept, !. State.modRoll_kept, !. State.sendDecision_kept]

theorem State.issueRevision_kept (s : State) (j : Fin 16) (step : Nat) (rev : Nat) (replay : Bool) (ms : List Nat)
    : Kept s (State.issueRevision s j step rev replay ms) := by
  grind [State.issueRevision, Kept, !. State.modRoll_kept, !. State.propose_kept, !. State.logEvent_kept]

theorem State.issueFixed_kept (s : State) (j : Fin 16) : Kept s (State.issueFixed s j) := by
  grind [State.issueFixed, Kept, !. State.modRoll_kept, !. State.issueRevision_kept]

theorem State.fixRoll_kept (s : State) (j : Fin 16) (step : Nat) : Kept s (State.fixRoll s j step) := by
  grind [State.fixRoll, Kept, !. State.modRoll_kept, !. State.issueFixed_kept]

theorem State.tryFix_kept (s : State) (j : Fin 16) (step : Nat) : Kept s (State.tryFix s j step) := by
  grind [State.tryFix, Kept, !. State.fixRoll_kept]

theorem execRollAnswerReceive_kept (j : Fin 16) (dev : Nat) (step : Nat) (ready : Bool) (s : State) : ∀ nx,
    execRollAnswerReceive j dev step ready s = .next nx → Kept s nx := by
  grind [execRollAnswerReceive, Kept, !. State.count32_kept, !. State.tryFix_kept, !. State.modRoll_kept]

theorem execRollDeadlineExpiry_kept (j : Fin 16) (s : State) : ∀ nx, execRollDeadlineExpiry j s = .next nx → Kept
    s nx := by
  grind [execRollDeadlineExpiry, Kept, !. State.fixRoll_kept]

theorem State.recount_kept (s : State) (c : Nat) (ms : List Nat) : Kept s (State.recount s c ms) := by
  grind [State.recount, Kept, !. State.setCtx_kept, !. State.toClosing_kept, !. State.settleCtx_kept]

theorem State.acceptMembership_kept (s : State) (j : Fin 16) (m : Membership) : Kept s (State.acceptMembership s j
    m) := by
  simp only [State.acceptMembership]
  refine Kept.trans ?_ (State.checkClosed_kept ..)
  refine Kept.trans ?_ (State.checkSent_kept ..)
  have k0 : ∀ g, Kept s (s.modRoll j g) := fun g => State.modRoll_kept ..
  split
  all_goals
    refine Kept.trans ?_ (foldl_kept _ (fun s c => ?_) _ _)
    · repeat' split
      all_goals first | exact k0 _ | exact Kept.trans (k0 _) (State.modRoll_kept ..)
    · repeat' split
      all_goals first
        | exact State.discardCtx_kept ..
        | exact State.recount_kept ..
        | exact Kept.trans (State.setCtx_kept ..) (State.recount_kept ..)

theorem State.recordDecision_kept (s : State) (j : Fin 16) (d : Decision) : Kept s (State.recordDecision s j d) :=
    by
  grind [State.recordDecision, Kept, !. State.modRoll_kept, !. State.sendRoll_kept]

theorem State.refuseDecision_kept (s : State) : Kept s (State.refuseDecision s) := by
  grind [State.refuseDecision, Kept, !. State.count32_kept]

theorem execMembershipReceive_kept (j : Fin 16) (m : Membership) (s : State) : ∀ nx, execMembershipReceive j m s =
    .next nx → Kept s nx := by
  grind [execMembershipReceive, Kept, !. State.refuseDecision_kept, !. State.recordDecision_kept, !.
      State.acceptMembership_kept]

theorem State.trySeal_kept (s : State) (j : Fin 16) : Kept s (State.trySeal s j) := by
  grind [State.trySeal, Kept, !. State.propose_kept, !. State.modRoll_kept, !. State.issueFixed_kept]

theorem execReportReceive_kept (j : Fin 16) (dev : Nat) (step : Nat) (rev : Nat) (sent : Bool) (s : State) : ∀ nx,
    execReportReceive j dev step rev sent s = .next nx → Kept s nx := by
  grind [execReportReceive, Kept, !. State.trySeal_kept, !. State.modRoll_kept]

theorem State.writeCarry_kept (s : State) (j : Fin 16) (n : Nat) : Kept s (State.writeCarry s j n) := by
  grind [State.writeCarry, Kept, !. State.sendAt_kept, !. State.contribution_kept, !. State.writeTable_kept]

theorem State.snapFailed_kept (s : State) (j : Fin 16) (reason : Nat) : Kept s (State.snapFailed s j reason) := by
  grind [State.snapFailed, Kept, !. State.logEvent_kept, !. State.count32_kept, !. State.odSet_kept]

theorem State.snapshotDue_kept (s : State) (j : Fin 16) (step : Nat) : Kept s (State.snapshotDue s j step) := by
  grind [State.snapshotDue, Kept, Sound, State.rising, srising_sput, srising_smod, srising_sclear, Mem.write_wf,
      Mem.zero_wf, !. State.snapFailed_kept]

theorem State.acceptSeal_kept (s : State) (j : Fin 16) : Kept s (State.acceptSeal s j) := by
  unfold State.acceptSeal
  extract_lets r s1 s2 closed s3 s4 s5 s6
  have k1 : Kept s s1 := by
    unfold s1
    split
    · exact foldl_kept _ (fun s n => State.writeCarry_kept ..) _ _
    · exact Kept.rfl s
  have k2 : Kept s1 s2 := Kept.ite (Kept.rfl _) (State.sealGroups_kept ..)
  have k3 : Kept s2 s3 := ⟨Eq.refl _, fun h => ⟨h.mem, h.stat, h.columns, h.width, h.log, h.kept, h.emcy, h.history,
    h.queue, h.first, h.last, h.flash, h.rising⟩⟩
  have k4 : Kept s3 s4 := State.modRoll_kept ..
  have k5 : Kept s4 s5 := State.snapshotDue_kept ..
  have k6 : Kept s5 s6 := foldl_kept _ (fun s f => State.checkEval_kept ..) _ _
  exact Kept.trans (Kept.trans (Kept.trans (Kept.trans (Kept.trans (Kept.trans k1 k2) k3) k4) k5) k6)
    (Kept.ite (State.sendAnswer_kept ..) (Kept.rfl _))

theorem execSealReceive_kept (j : Fin 16) (dev : Nat) (step : Nat) (s : State) : ∀ nx, execSealReceive j dev step
    s = .next nx → Kept s nx := by
  grind [execSealReceive, Kept, !. State.refuseDecision_kept, !. State.recordDecision_kept, !.
      State.acceptSeal_kept]

theorem execWithdrawLate_kept (j : Fin 16) (s : State) : ∀ nx, execWithdrawLate j s = .next nx → Kept s nx := by
  grind [execWithdrawLate, Kept, !. State.logEvent_kept, !. State.modRoll_kept, !. State.sendKeepers_kept]

theorem execWithdrawLateReceive_kept (j : Fin 16) (dev step : Nat) (retractable : Bool) (floats : List Nat) (s :
    State) : ∀ nx, execWithdrawLateReceive j dev step retractable floats s = .next nx → Kept s nx := by
  grind [execWithdrawLateReceive, Kept, !. State.count32_kept, !. State.issueRevision_kept]

theorem State.leaseReport_kept (s : State) (j : Fin 16) (step : Nat) (devs : List Nat) : Kept s (State.leaseReport s j
    step devs) := by
  grind [State.leaseReport, Kept, !. State.issueRevision_kept]

theorem State.lossReport_kept (s : State) (j : Fin 16) (step : Nat) (devs : List Nat) : Kept s (State.lossReport s j
    step devs) := by
  have k := fun l s => foldl_kept (fun (s : State) d => s.logEvent 0x0703 (j.val + d * 2 ^ 4)) (fun s d =>
      State.logEvent_kept ..) l s
  exact Kept.ite (Kept.rfl s) (Kept.trans (k ..) (State.leaseReport_kept ..))

theorem execKeeperHeartbeat_kept (j : Fin 16) (dev : Nat) (s : State) : ∀ nx, execKeeperHeartbeat j dev s = .next
    nx → Kept s nx := by
  grind [execKeeperHeartbeat, Kept, !. State.sendRoll_kept, !. State.modRoll_kept]

theorem State.holdKeeper_kept (s : State) (j : Fin 16) (dev : Nat) : Kept s (State.holdKeeper s j dev) := by
  grind [State.holdKeeper, Kept, !. State.modRoll_kept]

theorem execKeeperLeaseExpiry_kept (j : Fin 16) (s : State) : ∀ nx, execKeeperLeaseExpiry j s = .next nx → Kept s
    nx := by
  intro w h
  simp only [execKeeperLeaseExpiry] at h
  split at h
  · cases h
    exact Kept.rfl s
  · have k1 := fun l (s : State) => foldl_kept (fun (s : State) (p : Nat × Bool) => s.sendRoll j p.1 svcTakeover
      []) (fun s p => State.sendRoll_kept ..) l s
    have k2 := fun l (s : State) => foldl_kept (fun (s : State) q => s.tryFix j q) (fun s p => State.tryFix_kept
        ..) l s
    have k0 := Kept.trans (State.holdKeeper_kept s j s.device) (State.logEvent_kept (s.holdKeeper j s.device)
        0x0702 (j.val + s.keeperOf j % 2 ^ 12 * 2 ^ 4))
    split at h
    · cases h
      exact Kept.trans (Kept.trans k0 (k1 _ _)) (State.issueRevision_kept ..)
    · cases h
      exact Kept.trans (Kept.trans k0 (k1 _ _)) (k2 _ _)

theorem execTakeoverReceive_kept (j : Fin 16) (dev : Nat) (s : State) : ∀ nx, execTakeoverReceive j dev s = .next
    nx → Kept s nx := by
  grind [execTakeoverReceive, Kept, !. State.holdKeeper_kept]

theorem execStandbyLeaseExpiry_kept (j : Fin 16) (s : State) : ∀ nx, execStandbyLeaseExpiry j s = .next nx → Kept
    s nx := by
  intro w h
  simp only [execStandbyLeaseExpiry] at h
  split at h
  · cases h
    exact Kept.rfl s
  · cases h
    exact Kept.trans (State.modRoll_kept ..) (foldl_kept _ (fun s d => State.broadcast_kept ..) _ _)

/-! ### Moves.lean -/

theorem State.moveAt_kept (s : State) (j : Fin 16) (i : Nat) : Kept s (State.moveAt s j i).2 := by
  grind [State.moveAt, Kept, !. State.readTable_kept]

theorem State.modMove_kept (s : State) (j : Fin 16) (e : Nat) (f : MoveEngine → MoveEngine) : Kept s
    (State.modMove s j e f) := by
  grind [State.modMove, Kept, Sound, State.rising, srising_sput, srising_smod, srising_sclear, Mem.write_wf,
      Mem.zero_wf]

theorem State.moveFailed_kept (s : State) (j : Fin 16) (e : Nat) (i : Nat) (status : Nat) : Kept s
    (State.moveFailed s j e i status) := by
  grind [State.moveFailed, Kept, !. State.odSet_kept, !. State.modMove_kept]

theorem State.moveDone_kept (s : State) (j : Fin 16) : Kept s (State.moveDone s j) := by
  grind [State.moveDone, Kept, !. State.count32_kept]

theorem State.moveSource_kept (s : State) (m : MoveRec) : Kept s (State.moveSource s m).2.2 := by
  grind [State.moveSource, Kept, !. State.readChecked_kept]

theorem State.runMove_kept (s : State) (j : Fin 16) (e : Nat) (i : Nat) : Kept s (State.runMove s j e i) := by
  unfold State.runMove
  dsimp only
  repeat' split
  all_goals first
    | grind [Kept, !. State.modMove_kept, !. State.moveAt_kept, !. State.moveFailed_kept, !.
        State.moveSource_kept, !. State.writeChecked_kept, !. State.moveDone_kept, !. State.requestOrWait_kept]
    | (refine foldl_kept _ (fun s x => ?_) _ _ <;> grind [Kept, !. State.modMove_kept, !. State.moveAt_kept, !.
        State.moveFailed_kept, !. State.moveSource_kept, !. State.writeChecked_kept, !. State.moveDone_kept, !.
        State.requestOrWait_kept])
    | (refine Kept.trans ?_ (foldl_kept _ (fun s x => ?_) _ _) <;> grind [Kept, !. State.modMove_kept, !.
        State.moveAt_kept, !. State.moveFailed_kept, !. State.moveSource_kept, !. State.writeChecked_kept, !.
        State.moveDone_kept, !. State.requestOrWait_kept])

theorem State.pumpMoves_kept (s : State) (j : Fin 16) (e : Nat) (fuel : Nat) : Kept s (State.pumpMoves s j e fuel)
    := by
  induction fuel generalizing s with
  | zero => exact Kept.rfl s
  | succ n ih =>
    simp only [State.pumpMoves]
    split
    · exact Kept.rfl s
    · split
      · exact Kept.rfl s
      · exact Kept.trans (State.runMove_kept ..) (ih _)

theorem State.moveAnswered_kept (s : State) (j : Fin 16) (e : Nat) (i : Nat) (status : Nat) : Kept s
    (State.moveAnswered s j e i status) := by
  grind [State.moveAnswered, Kept, !. State.modMove_kept, !. State.moveFailed_kept, !. State.pumpMoves_kept, !.
      State.moveDone_kept]

theorem execMoveStart_kept (via : Path) (j : Fin 16) (s : State) : ∀ nx, execMoveStart via j s = .next nx → Kept s
    nx := by
  refine State.command_kept s via _ _ _ _ ?_
  split
  · exact Kept.rfl s
  · split
    · exact State.odSet_kept ..
    · refine Kept.trans ?_ (foldl_kept _ (fun s e => State.pumpMoves_kept ..) _ _)
      refine Kept.trans ?_ (foldl_kept _ (fun s e => State.modMove_kept ..) _ _)
      exact Kept.trans (Kept.trans (State.odSet_kept ..) (State.odSet_kept ..)) (State.odSet_kept ..)

theorem execMoveAbort_kept (via : Path) (j : Fin 16) (s : State) : ∀ nx, execMoveAbort via j s = .next nx → Kept s
    nx := by
  refine State.command_kept s via _ _ _ _ ?_
  split
  · exact Kept.rfl s
  · refine Kept.trans ?_ (foldl_kept _ (fun s e => State.modMove_kept ..) _ _)
    exact Kept.trans (State.abandon_kept ..) (State.odSet_kept ..)

theorem execMoveListDone_kept (j : Fin 16) (s : State) : ∀ nx, execMoveListDone j s = .next nx → Kept s nx := by
  grind [execMoveListDone, Kept, !. State.odSet_kept]

end Sys2Proof.Machine
end

