-- ==== Sys2Proof/Laws/KeptDevice.lean ====
section
/-! SUPPORT. KeptDevice: every operation of the model leaves the queue of waiting commands alone and keeps a sound state
sound; here snapshots, links, the management path, the host interface and boot. One lemma per operation. -/

namespace Sys2Proof.Machine

/-! ### Snapshot.lean -/

theorem State.modSnap_kept (s : State) (j : Fin 16) (f : Snap → Snap) : Kept s (State.modSnap s j f) := by
  grind [State.modSnap, Kept, Sound, State.rising, srising_sput, srising_smod, srising_sclear, Mem.write_wf,
      Mem.zero_wf]

theorem State.setSnapState_kept (s : State) (j : Fin 16) (x : Nat) : Kept s (State.setSnapState s j x) := by
  grind [State.setSnapState, Kept, !. State.odSet_kept]

theorem State.snapExtents_kept (s : State) (j : Fin 16) : Kept s (State.snapExtents s j).2 := by
  grind [State.snapExtents, Kept, !. State.readTable_kept]

theorem State.writePartner_kept (s : State) (j : Fin 16) (off : Nat) (data : List Byte) : Kept s
    (State.writePartner s j off data) := by
  unfold State.writePartner
  dsimp only
  repeat' split
  all_goals first
    | grind [Kept, !. State.modSnap_kept, !. State.requestOrWait_kept]
    | (refine foldl_kept _ (fun s x => ?_) _ _ <;> grind [Kept, !. State.modSnap_kept, !. State.requestOrWait_kept])
    | (refine Kept.trans ?_ (foldl_kept _ (fun s x => ?_) _ _) <;> grind [Kept, !. State.modSnap_kept, !.
        State.requestOrWait_kept])

theorem State.writeLocal_kept (s : State) (j : Fin 16) (off : Nat) (data : List Byte) : Kept s (State.writeLocal s
    j off data) := by
  grind [State.writeLocal, Kept, !. State.writeChecked_kept, !. State.modSnap_kept]

theorem State.writeAreas_kept (s : State) (j : Fin 16) (off : Nat) (data : List Byte) : Kept s (State.writeAreas s
    j off data) := by
  grind [State.writeAreas, Kept, !. State.writeLocal_kept, !. State.writePartner_kept]

theorem State.snapHeadRead_kept (s : State) (j : Fin 16) (g status : Nat) (data : List Byte) : Kept s
    (State.snapHeadRead s j g status data) := by
  grind [State.snapHeadRead, Kept, !. State.modSnap_kept]

theorem State.readHeads_kept (s : State) (j : Fin 16) : Kept s (State.readHeads s j) := by
  grind [State.readHeads, Kept, !. State.modSnap_kept, !. State.snapHeadRead_kept, !. State.requestOrWait_kept]

theorem State.endHold_kept (s : State) (j : Fin 16) : Kept s (State.endHold s j) := by
  grind [State.endHold, Kept, !. State.abandon_kept, !. State.checkClosed_kept, !. State.modSnap_kept, !.
      State.setSnapState_kept]

theorem State.extentData_kept (s : State) (j : Fin 16) (x : Extent) : Kept s (State.extentData s j x).2 := by
  grind [State.extentData, Kept, !. State.readChecked_kept]

theorem State.copyExtents_kept (s : State) (j : Fin 16) (want : Extent → Bool) : Kept s (State.copyExtents s j want)
    := by
  unfold State.copyExtents
  refine foldl_kept _ (fun s p => ?_) _ _
  have k := State.extentData_kept s j p.1
  split
  · exact Kept.rfl s
  · split
    · rename_i d u h
      rw [h] at k
      exact Kept.trans k (Kept.trans (State.writeAreas_kept ..) (State.modSnap_kept ..))
    · rename_i u h
      rw [h] at k
      exact Kept.trans k (State.modSnap_kept ..)

theorem State.startSnap_kept (s : State) (j : Fin 16) (step : Nat) : Kept s (State.startSnap s j step) := by
  have ke := State.snapExtents_kept s j
  unfold State.startSnap
  extract_lets i dev partner localArea
  clear_value partner localArea
  split
  · exact State.modSnap_kept ..
  · split
    · rename_i u h
      rw [h] at ke
      exact Kept.trans ke (Kept.trans (State.modSnap_kept ..) (State.snapFailed_kept ..))
    · rename_i xs u h
      rw [h] at ke
      dsimp only
      split
      · exact Kept.trans ke (Kept.trans (State.modSnap_kept ..) (State.snapFailed_kept ..))
      · exact Kept.trans ke (Kept.trans (Kept.trans (Kept.trans (State.modSnap_kept ..) (State.setSnapState_kept ..))
          (State.writeAreas_kept ..)) (State.copyExtents_kept ..))

theorem execSnapshotStart_kept (j : Fin 16) (s : State) : ∀ nx, execSnapshotStart j s = .next nx → Kept s nx := by
  grind [execSnapshotStart, Kept, !. State.modSnap_kept, !. State.snapFailed_kept, !. State.readHeads_kept, !.
      State.startSnap_kept]

theorem execSnapshotStatePartDone_kept (j : Fin 16) (s : State) : ∀ nx, execSnapshotStatePartDone j s = .next nx →
    Kept s nx := by
  intro nx h
  unfold execSnapshotStatePartDone at h
  split at h
  · cases h
    exact Kept.rfl s
  · cases h
    exact Kept.trans (Kept.trans (Kept.trans (Kept.trans (State.setSnapState_kept ..) (State.copyExtents_kept ..))
      (State.writeAreas_kept ..)) (State.writeAreas_kept ..)) (State.modSnap_kept ..)

theorem State.commitSnap_kept (s : State) (j : Fin 16) : Kept s (State.commitSnap s j) := by
  grind [State.commitSnap, Kept, !. State.setSnapState_kept, !. State.writePartner_kept, !. State.writeLocal_kept]

theorem State.snapAnswered_kept (s : State) (j : Fin 16) (status : Nat) : Kept s (State.snapAnswered s j status) := by
  grind [State.snapAnswered, Kept, !. State.modSnap_kept, !. State.commitSnap_kept]

theorem State.recordSnap_kept (s : State) (j : Fin 16) : Kept s (State.recordSnap s j) := by
  grind [State.recordSnap, Kept, !. State.modSnap_kept, !. State.odSet_kept, !. State.count32_kept, !.
      State.logEvent_kept]

theorem State.judgeSnap_kept (s : State) (j : Fin 16) : Kept s (State.judgeSnap s j) := by
  grind [State.judgeSnap, Kept, !. State.odSet_kept, !. State.snapFailed_kept]

theorem execSnapshotEnd_kept (j : Fin 16) (r : SnapshotResult) (s : State) : ∀ nx, execSnapshotEnd j r s = .next nx →
    Kept s nx := by
  grind [execSnapshotEnd, Kept, !. State.commitSnap_kept, !. State.recordSnap_kept, !. State.odSet_kept, !.
      State.judgeSnap_kept, !. State.endHold_kept]

theorem execSnapshotTake_kept (via : Path) (j : Fin 16) (s : State) : ∀ nx, execSnapshotTake via j s = .next nx →
    Kept s nx := by
  grind [execSnapshotTake, Kept, !. State.command_kept, !. State.modSnap_kept]

theorem execSnapshotAbort_kept (via : Path) (j : Fin 16) (s : State) : ∀ nx, execSnapshotAbort via j s = .next nx
    → Kept s nx := by
  grind [execSnapshotAbort, Kept, !. State.command_kept, !. State.endHold_kept, !. State.snapFailed_kept]

theorem execClearPartnerLost_kept (via : Path) (j : Fin 16) (s : State) : ∀ nx, execClearPartnerLost via j s =
    .next nx → Kept s nx := by
  grind [execClearPartnerLost, Kept, !. State.command_kept, !. State.odSet_kept]

theorem execHostingLeaseExpiry_kept (slot : Fin 8) (gen : Fin 2) (s : State) : ∀ nx, execHostingLeaseExpiry slot
    gen s = .next nx → Kept s nx := by
  grind [execHostingLeaseExpiry, Kept, !. State.refreshHosting_kept, !. State.logEvent_kept, !.
      State.writeTable_kept]

/-! ### Restore.lean -/

theorem State.setRestState_kept (s : State) (j : Fin 16) (x : Nat) : Kept s (State.setRestState s j x) := by
  grind [State.setRestState, Kept, !. State.odSet_kept]

theorem State.modRest_kept (s : State) (j : Fin 16) (f : Rest → Rest) : Kept s (State.modRest s j f) := by
  grind [State.modRest, Kept, Sound, State.rising, srising_sput, srising_smod, srising_sclear, Mem.write_wf,
      Mem.zero_wf]

theorem State.endReads_kept (s : State) (j : Fin 16) : Kept s (State.endReads s j) := by
  grind [State.endReads, Kept, !. State.abandon_kept, !. State.modRest_kept]

theorem State.restFailed_kept (s : State) (j : Fin 16) (reason segment : Nat) : Kept s (State.restFailed s j reason
    segment) := by
  grind [State.restFailed, Kept, !. State.endReads_kept, !. State.setRestState_kept, !. State.odSet_kept, !.
      State.logEvent_kept]

theorem State.areaRead_kept (s : State) (j : Fin 16) (off n : Nat) : Kept s (State.areaRead s j off n).2 := by
  grind [State.areaRead, Kept, !. State.readTable_kept]

theorem State.genHeaderAt_kept (s : State) (j : Fin 16) (g : Nat) : Kept s (State.genHeaderAt s j g).2 := by
  grind [State.genHeaderAt, Kept, !. State.areaRead_kept]

theorem State.checkSegments_kept (s : State) (j : Fin 16) (g : Nat) (dt : List Byte) (xs : List Extent) : Kept s
    (State.checkSegments s j g dt xs).2 := by
  unfold State.checkSegments
  refine foldl_rel (fun a : Option (Nat × Nat) × State => Kept s a.2) _ (fun a x h => ?_) _ _ (Kept.rfl s)
  grind [Kept, !. State.areaRead_kept]

theorem State.checkGen_kept (s : State) (j : Fin 16) (g : Nat) (h : GenHeader) : Kept s (State.checkGen s j g h).2 :=
    by
  grind [State.checkGen, Kept, !. State.areaRead_kept, !. State.checkSegments_kept]

theorem State.candidates_kept (s : State) (j : Fin 16) : Kept s (State.candidates s j).2.2 :=
  Kept.trans (State.genHeaderAt_kept ..) (State.genHeaderAt_kept ..)

theorem State.tryGens_kept (j : Fin 16) : ∀ (l : List (Nat × GenHeader)) (s : State) (bad : List (Nat × Nat)),
    Kept s (s.tryGens j l bad).2.2
  | [], s, _ => Kept.rfl s
  | (g, h) :: rest, s, bad => by
    have k := State.checkGen_kept s j g h
    simp only [State.tryGens]
    split
    · rename_i heq
      rw [heq] at k
      exact k
    · rename_i heq
      rw [heq] at k
      exact Kept.trans k (State.tryGens_kept j rest _ _)

theorem State.pieceRead_kept (s : State) (j : Fin 16) (i status : Nat) (data : List Byte) : Kept s (State.pieceRead s
    j i status data) := by
  grind [State.pieceRead, Kept, !. State.modRest_kept]

theorem State.askPartner_kept (s : State) (j : Fin 16) : Kept s (State.askPartner s j) := by
  unfold State.askPartner
  extract_lets ps dev u
  have ku : Kept s u := State.modRest_kept ..
  refine Kept.trans ku ?_
  split
  · exact foldl_kept _ (fun s i => State.pieceRead_kept ..) _ _
  · exact foldl_kept _ (fun s i => State.requestOrWait_kept ..) _ _

theorem State.restoreRead_kept (s : State) (j : Fin 16) (i status : Nat) (data : List Byte) : Kept s
    (State.restoreRead s j i status data) := by
  grind [State.restoreRead, Kept, !. State.pieceRead_kept, !. State.askPartner_kept]

theorem execRestoreVerifyDone_kept (j : Fin 16) (s : State) : ∀ nx, execRestoreVerifyDone j s = .next nx → Kept s nx
    := by
  intro nx h
  unfold execRestoreVerifyDone at h
  split at h
  · cases h
    exact Kept.rfl s
  · split at h
    · cases h
      exact Kept.ite (State.askPartner_kept ..) (Kept.rfl s)
    · extract_lets c at h
      have kc : Kept s c.2.2 := State.candidates_kept ..
      have kt := State.tryGens_kept j c.1 c.2.2 []
      split at h
      · rename_i e
        rw [e] at kt
        cases h
        refine Kept.trans (Kept.trans kc kt) ?_
        have kr := fun (s : State) g x r => Kept.trans (Kept.trans (Kept.trans (State.modRest_kept s j g)
          (State.setRestState_kept _ j x)) (State.odSet_kept _ (restIndex j) 8 r)) (State.askPartner_kept _ j)
        split
        · exact Kept.trans (kr ..) (State.logEvent_kept ..)
        · exact kr ..
      · rename_i e
        rw [e] at kt
        cases h
        exact Kept.trans (Kept.trans kc kt) (State.restFailed_kept ..)

theorem State.undefineExtent_kept (s : State) (x : Extent) : Kept s (State.undefineExtent s x) := by
  unfold State.undefineExtent
  dsimp only
  split
  all_goals first
    | grind [Kept, !. State.draw_kept, !. State.writeBlock_kept]
    | (refine foldl_kept _ (fun s x => ?_) _ _ <;> grind [Kept, !. State.draw_kept, !. State.writeBlock_kept])
    | (refine Kept.trans ?_ (foldl_kept _ (fun s x => ?_) _ _) <;> grind [Kept, !. State.draw_kept, !.
        State.writeBlock_kept])

theorem State.writeExtent_kept (s : State) (j : Fin 16) (g : Nat) (x : Extent) : Kept s (State.writeExtent s j g x) :=
    by
  simp only [State.writeExtent]
  split
  · exact State.areaRead_kept ..
  · split
    · refine Kept.trans (State.areaRead_kept ..) (foldl_kept _ (fun s b => ?_) _ _)
      refine Kept.trans (State.putWatch_kept s (watchTid b) b) ?_
      grind [Kept, Sound, State.rising, srising_sput]
    · split
      · exact Kept.trans (State.areaRead_kept ..) (State.writeChecked_kept ..)
      · exact State.areaRead_kept ..

theorem State.applyRecord_kept (s : State) (j : Fin 16) (b : List Byte) : Kept s (State.applyRecord s j b) := by
  simp only [State.applyRecord]
  refine Kept.trans ?_ (State.modRoll_kept ..)
  have k := foldl_kept (fun (s : State) f =>
      if bit (sliceNat b 12 1) f then
        (s.odSet 0x2401 (f + 1) (sliceNat b 16 8)).odSet 0x2402 (f + 1) ((sliceNat b 0 8 + 1) % 2 ^ 64)
      else s) (fun s f => by grind [Kept, !. State.odSet_kept]) (List.range 8) s
  grind [Kept, !. State.odSet_kept]

theorem State.writeRestore_kept (s : State) (j : Fin 16) (g : Nat) (xs : List Extent) : Kept
    s (State.writeRestore s j g xs) := by
  simp only [State.writeRestore]
  have k := fun xs s => foldl_kept (fun (s : State) x => s.writeExtent j g x) (fun s x =>
      State.writeExtent_kept ..) xs s
  have k2 : Kept s (List.foldl (fun s x => s.writeExtent j g x)
    (List.foldl (fun s x => s.writeExtent j g x) s (xs.filter fun x => decide (2 ≤ x.kind)))
      (xs.filter fun x => x.kind == 1)) := Kept.trans (k _ _) (k _ _)
  split
  · exact k2
  · refine Kept.trans k2 ?_
    split
    · exact Kept.trans (State.areaRead_kept ..) (State.applyRecord_kept ..)
    · exact State.areaRead_kept ..

theorem execRestoreDone_kept (j : Fin 16) (s : State) : ∀ nx, execRestoreDone j s = .next nx → Kept s nx := by
  intro w h
  simp only [execRestoreDone] at h
  have kf := fun (s : State) r n => State.restFailed_kept s j r n
  split at h
  · cases h
    exact Kept.rfl s
  · split at h
    · cases h
      exact Kept.ite (State.askPartner_kept ..) (Kept.rfl s)
    · have k1 := State.genHeaderAt_kept s j (s.rest j).gen
      split at h
      · rename_i u heq
        rw [heq] at k1
        cases h
        exact Kept.trans k1 (kf ..)
      · rename_i hd u heq
        rw [heq] at k1
        have k2 := fun (s : State) a n => State.areaRead_kept s j a n
        split at h
        · have k3 := fun (s : State) g dt xs => State.checkSegments_kept s j g dt xs
          split at h
          · cases h
            refine Kept.trans ?_ (kf ..)
            refine Kept.trans ?_ (foldl_kept _ (fun s x => State.undefineExtent_kept ..) _ _)
            exact Kept.trans (Kept.trans (Kept.trans k1 (k2 ..)) (k2 ..)) (k3 ..)
          · cases h
            refine Kept.trans ?_ (Kept.trans (State.endReads_kept ..) (State.setRestState_kept ..))
            refine Kept.trans ?_ (State.writeRestore_kept ..)
            exact Kept.trans (Kept.trans (Kept.trans k1 (k2 ..)) (k2 ..)) (k3 ..)
        · cases h
          exact Kept.trans (Kept.trans (Kept.trans k1 (k2 ..)) (k2 ..)) (kf ..)

theorem execRestore_kept (via : Path) (j : Fin 16) (s : State) : ∀ nx, execRestore via j s = .next nx → Kept s nx :=
    by
  grind [execRestore, Kept, !. State.command_kept, !. State.setRestState_kept, !. State.odSet_kept, !.
      State.modRest_kept, !. State.askPartner_kept]

theorem execRestoreAbort_kept (via : Path) (j : Fin 16) (s : State) : ∀ nx, execRestoreAbort via j s = .next nx →
    Kept s nx := by
  grind [execRestoreAbort, Kept, !. State.command_kept, !. State.restFailed_kept]

theorem execTallyReset_kept (via : Path) (j : Fin 16) (s : State) : ∀ nx, execTallyReset via j s = .next nx → Kept
    s nx := by
  refine State.command_kept s via _ _ _ _ ?_
  exact foldl_kept _ (fun s c => State.discardCtx_kept ..) _ _

theorem execWeightResend_kept (via : Path) (j : Fin 16) (s : State) : ∀ nx, execWeightResend via j s = .next nx →
    Kept s nx := by
  refine State.command_kept s via _ _ _ _ ?_
  exact foldl_kept _ (fun s p => State.sendRoll_kept ..) _ _

theorem execWeightResendRequestReceive_kept (j : Fin 16) (dev : Nat) (s : State) : ∀ nx,
    execWeightResendRequestReceive j dev s = .next nx → Kept s nx := by
  grind [execWeightResendRequestReceive, Kept, !. State.modRoll_kept, !. State.resendTo_kept]

/-! ### Links.lean -/

theorem State.linkWriteAnswered_kept (s : State) (t : Nat) (row : Nat) (f : Fin 8) (peer : Nat) (bad : Bool) :
    Kept s (State.linkWriteAnswered s t row f peer bad) := by
  grind [State.linkWriteAnswered, Kept, !. State.modFrame_kept, !. State.pumpDma_kept, !. State.rowDone_kept]

theorem State.completeRequest_kept (s : State) (who : Requester) (status tally e : Nat) (data : List Byte) : Kept s
    (State.completeRequest s who status tally e data) := by
  unfold State.completeRequest
  split
  all_goals grind [Kept, !. State.linkWriteAnswered_kept, !. State.tallyLost_kept, !. State.tallyStatus_kept, !.
      State.returnAnswered_kept, !. State.moveAnswered_kept, !. State.snapAnswered_kept, !. State.snapHeadRead_kept,
      !. State.restoreRead_kept]

theorem State.lostTxn_kept (s : State) (h : BitVec 128) : Kept s (State.lostTxn s h) := by
  grind [State.lostTxn, Kept, !. State.unroutable_kept, !. State.count32_kept]

theorem State.linkLoss_kept (s : State) (k : Fin 24) : Kept s (State.linkLoss s k) := by
  simp only [State.linkLoss]
  refine Kept.trans ?_ (foldl_kept _ (fun s w => State.completeRequest_kept ..) _ _)
  exact Kept.trans (State.modLink_kept ..) (foldl_kept _ (fun s w => State.lostTxn_kept ..) _ _)

theorem State.leaveUp_kept (s : State) (k : Fin 24) (next : LinkState) (cause : Nat) : Kept s (State.leaveUp s k
    next cause) := by
  grind [State.leaveUp, Kept, !. State.modLink_kept, !. State.logEvent_kept]

theorem State.dropLink_kept (s : State) (k : Fin 24) (next : LinkState) (cause : Nat) : Kept s (State.dropLink s k
    next cause) := by
  grind [State.dropLink, Kept, !. State.linkLoss_kept, !. State.leaveUp_kept]

theorem State.sendFlit_kept (s : State) (k : Fin 24) (body : List Byte) : Kept s (State.sendFlit s k body) := by
  grind [State.sendFlit, Kept, !. State.modLink_kept, !. State.emit_kept]

theorem State.controlFlit_kept (s : State) (k : Fin 24) (code : Nat) : Kept s (State.controlFlit s k code) := by
  grind [State.controlFlit, Kept, !. State.sendFlit_kept]

theorem State.sendControl_kept (s : State) (k : Fin 24) (code : Nat) : Kept s (State.sendControl s k code) := by
  grind [State.sendControl, Kept, !. State.controlFlit_kept, !. State.modLink_kept]

theorem execControlFlitResend_kept (k : Fin 24) (s : State) : ∀ nx, execControlFlitResend k s = .next nx → Kept s
    nx := by
  grind [execControlFlitResend, Kept, !. State.controlFlit_kept]

theorem State.startRetrain_kept (s : State) (k : Fin 24) (cause : Nat) (own : Bool) : Kept s (State.startRetrain s
    k cause own) := by
  grind [State.startRetrain, Kept, !. State.leaveUp_kept, !. State.count32_kept, !. State.modLink_kept, !.
      State.sendControl_kept]

theorem State.startTraining_kept (s : State) (k : Fin 24) : Kept s (State.startTraining s k) := by
  grind [State.startTraining, Kept, !. State.modLink_kept, !. State.sendControl_kept]

theorem State.linkCommand_kept (s : State) (via : Path) (k : Fin 24) (v : Nat) (ok : Bool) (body : State → State)
    (h : Kept s (body s)) : ∀ u, s.linkCommand via k v ok body = .next u → Kept s u := by
  refine State.command_kept s via _ _ _ _ ?_
  split
  · exact h
  · exact Kept.rfl s

theorem execLinkTrain_kept (via : Path) (k : Fin 24) (s : State) : ∀ nx, execLinkTrain via k s = .next nx → Kept s
    nx := by
  grind [execLinkTrain, Kept, !. State.linkCommand_kept, !. State.startTraining_kept]

theorem execLinkDisable_kept (via : Path) (k : Fin 24) (s : State) : ∀ nx, execLinkDisable via k s = .next nx →
    Kept s nx := by
  grind [execLinkDisable, Kept, !. State.linkCommand_kept, !. State.dropLink_kept]

theorem execLinkRetrain_kept (via : Path) (k : Fin 24) (s : State) : ∀ nx, execLinkRetrain via k s = .next nx →
    Kept s nx := by
  grind [execLinkRetrain, Kept, !. State.linkCommand_kept, !. State.startRetrain_kept]

theorem execClearRetirements_kept (via : Path) (k : Fin 24) (s : State) : ∀ nx, execClearRetirements via k s =
    .next nx → Kept s nx := by
  grind [execClearRetirements, Kept, !. State.command_kept, !. State.modLink_kept]

theorem State.trainingFailed_kept (s : State) (k : Fin 24) (cause : Nat) : Kept s (State.trainingFailed s k cause)
    := by
  grind [State.trainingFailed, Kept, !. State.modLink_kept]

theorem State.notePeer_kept (s : State) (k : Fin 24) (c : CapsData) : Kept s (State.notePeer s k c) := by
  grind [State.notePeer, Kept, !. State.modLink_kept]

theorem execTrainingComplete_kept (k : Fin 24) (r : TrainResult) (s : State) : ∀ nx, execTrainingComplete k r s =
    .next nx → Kept s nx := by
  grind [execTrainingComplete, Kept, !. State.trainingFailed_kept, !. State.modLink_kept, !. State.notePeer_kept]

theorem execTrainingTimeout_kept (k : Fin 24) (s : State) : ∀ nx, execTrainingTimeout k s = .next nx → Kept s nx
    := by
  grind [execTrainingTimeout, Kept, !. State.trainingFailed_kept]

theorem execAutoRetrain_kept (k : Fin 24) (s : State) : ∀ nx, execAutoRetrain k s = .next nx → Kept s nx := by
  grind [execAutoRetrain, Kept, !. State.startTraining_kept]

theorem execCaps_kept (k : Fin 24) (c : CapsData) (s : State) : ∀ nx, execCaps k c s = .next nx → Kept s nx := by
  grind [execCaps, Kept, !. State.trainingFailed_kept, !. State.sendControl_kept, !. State.notePeer_kept]

theorem execCreditInit_kept (k : Fin 24) (s : State) : ∀ nx, execCreditInit k s = .next nx → Kept s nx := by
  grind [execCreditInit, Kept, !. State.modLink_kept]

theorem State.resumeLink_kept (s : State) (k : Fin 24) : Kept s (State.resumeLink s k) := by
  grind [State.resumeLink, Kept, !. State.modLink_kept, !. State.sendControl_kept]

theorem execRetrainingComplete_kept (k : Fin 24) (s : State) : ∀ nx, execRetrainingComplete k s = .next nx → Kept
    s nx := by
  grind [execRetrainingComplete, Kept, !. State.resumeLink_kept]

theorem execRetrainingTimeout_kept (k : Fin 24) (s : State) : ∀ nx, execRetrainingTimeout k s = .next nx → Kept s
    nx := by
  grind [execRetrainingTimeout, Kept, !. State.dropLink_kept]

theorem execPeerSilent_kept (k : Fin 24) (s : State) : ∀ nx, execPeerSilent k s = .next nx → Kept s nx := by
  grind [execPeerSilent, Kept, !. State.dropLink_kept]

theorem execCodewordLockLost_kept (k : Fin 24) (codewords : Nat) (s : State) : ∀ nx, execCodewordLockLost k codewords
    s = .next nx → Kept s nx := by
  grind [execCodewordLockLost, Kept, !. State.odAdd_kept, !. State.startRetrain_kept]

theorem execRetrain_kept (k : Fin 24) (s : State) : ∀ nx, execRetrain k s = .next nx → Kept s nx := by
  grind [execRetrain, Kept, !. State.startRetrain_kept]

theorem execResume_kept (k : Fin 24) (ackSeq : BitVec 12) (s : State) : ∀ nx, execResume k ackSeq s = .next nx → Kept
    s nx := by
  grind [execResume, Kept, !. State.modLink_kept, !. State.controlFlit_kept]

theorem State.startReplay_kept (s : State) (k : Fin 24) : Kept s (State.startReplay s k) := by
  grind [State.startReplay, Kept, !. State.count32_kept, !. State.modLink_kept, !. State.startRetrain_kept]

theorem execReplayTimeout_kept (k : Fin 24) (s : State) : ∀ nx, execReplayTimeout k s = .next nx → Kept s nx := by
  grind [execReplayTimeout, Kept, !. State.startReplay_kept]

theorem State.startTest_kept (s : State) (k : Fin 24) : Kept s (State.startTest s k) := by
  grind [State.startTest, Kept, !. State.count32_kept, !. State.leaveUp_kept, !. State.sendControl_kept, !.
      State.modLink_kept]

theorem execLaneTest_kept (via : Path) (k : Fin 24) (s : State) : ∀ nx, execLaneTest via k s = .next nx → Kept s
    nx := by
  grind [execLaneTest, Kept, !. State.linkCommand_kept, !. State.startTest_kept]

theorem State.noteBurst_kept (s : State) (k : Fin 24) (failures : Nat) (symbols : List Nat) : Kept s (State.noteBurst
    s k failures symbols) := by
  grind [State.noteBurst, Kept, !. State.modLink_kept, !. State.startTest_kept]

theorem execBurstThreshold_kept (k : Fin 24) (codewords : Nat) (symbols : List Nat) (s : State) : ∀ nx,
    execBurstThreshold k codewords symbols s = .next nx → Kept s nx := by
  grind [execBurstThreshold, Kept, !. State.odAdd_kept, !. State.noteBurst_kept]

theorem execTestReq_kept (k : Fin 24) (s : State) : ∀ nx, execTestReq k s = .next nx → Kept s nx := by
  grind [execTestReq, Kept, !. State.leaveUp_kept, !. State.count32_kept, !. State.modLink_kept, !.
      State.sendControl_kept]

theorem execTestAck_kept (k : Fin 24) (s : State) : ∀ nx, execTestAck k s = .next nx → Kept s nx := by
  grind [execTestAck, Kept, !. State.modLink_kept]

theorem execTestReqTimeout_kept (k : Fin 24) (s : State) : ∀ nx, execTestReqTimeout k s = .next nx → Kept s nx := by
  grind [execTestReqTimeout, Kept, !. State.startRetrain_kept]

theorem execPrbsTestComplete_kept (k : Fin 24) (lanes : List LaneMeasure) (s : State) : ∀ nx, execPrbsTestComplete
    k lanes s = .next nx → Kept s nx := by
  intro w h
  simp only [execPrbsTestComplete] at h
  split at h
  · cases h
    exact Kept.rfl s
  · cases h
    exact Kept.trans (State.modLink_kept ..) (State.sendControl_kept ..)

theorem State.judgeLane_kept (s : State) (k : Fin 24) (peer : List LaneMeasure) (lane : Fin 4) : Kept s
    (State.judgeLane s k peer lane) := by
  grind [State.judgeLane, Kept, !. State.modLink_kept, !. State.logEvent_kept]

theorem execTestResult_kept (k : Fin 24) (peer : List LaneMeasure) (s : State) : ∀ nx, execTestResult k peer s =
    .next nx → Kept s nx := by
  intro w h
  simp only [execTestResult] at h
  split at h
  · cases h
    exact Kept.rfl s
  · have k := fun l (s : State) => foldl_kept (fun (s : State) i => s.judgeLane k peer i) (fun s i =>
      State.judgeLane_kept ..) l s
    split at h
    · cases h
      exact Kept.trans (Kept.trans (k _ _) (State.logEvent_kept ..)) (State.resumeLink_kept ..)
    · split at h
      · cases h
        exact Kept.trans (k _ _) (State.startRetrain_kept ..)
      · cases h
        exact Kept.trans (Kept.trans (k _ _) (State.dropLink_kept ..)) (State.logEvent_kept ..)

/-! ### Can.lean -/

theorem State.sendUsdo_kept (s : State) (client key code : Nat) (data : List Byte) : Kept s (State.sendUsdo s client
    key code data) := by
  grind [State.sendUsdo, Kept, !. State.emit_kept]

theorem State.sendHeartbeat_kept (s : State) (code : Nat) : Kept s (State.sendHeartbeat s code) := by
  grind [State.sendHeartbeat, Kept, !. State.emit_kept]

theorem State.setNmt_kept (s : State) (n : Nmt) : Kept s (State.setNmt s n) := by
  grind [State.setNmt, Kept, Sound, State.rising, srising_sput, srising_smod, srising_sclear, Mem.write_wf,
      Mem.zero_wf]

theorem State.nmtCommand_kept (s : State) (node : BitVec 7) (n : Nmt) : ∀ u, s.nmtCommand node n = .next u → Kept
    s u := by
  intro u hu
  cases hu
  split
  · exact State.setNmt_kept ..
  · exact Kept.rfl s

theorem execStartRemoteNode_kept (node : BitVec 7) (s : State) : ∀ nx, execStartRemoteNode node s = .next nx →
    Kept s nx := by
  grind [execStartRemoteNode, Kept, !. State.nmtCommand_kept]

theorem execStopRemoteNode_kept (node : BitVec 7) (s : State) : ∀ nx, execStopRemoteNode node s = .next nx → Kept
    s nx := by
  grind [execStopRemoteNode, Kept, !. State.nmtCommand_kept]

theorem execEnterPreOperational_kept (node : BitVec 7) (s : State) : ∀ nx, execEnterPreOperational node s = .next
    nx → Kept s nx := by
  grind [execEnterPreOperational, Kept, !. State.nmtCommand_kept]

theorem State.loadSaved_kept (s : State) (lo : Nat) (hi : Nat) : Kept s (State.loadSaved s lo hi) := by
  unfold State.loadSaved
  refine foldl_kept _ (fun s e => ?_) _ _
  split
  · exact foldl_kept _ (fun s p => by grind [Kept, Sound, State.rising, srising_sput, srising_smod,
      srising_sclear]) _ _
  · grind [Kept, Sound, State.rising, srising_sput, srising_smod, srising_sclear]

theorem State.resetCommunication_kept (s : State) (strap : BitVec 7) : Kept s (State.resetCommunication s strap)
    := by
  grind [State.resetCommunication, Kept, Sound, State.rising, srising_sput, srising_smod, srising_sclear,
      Mem.write_wf, Mem.zero_wf, !. State.loadSaved_kept, !. State.sendHeartbeat_kept]

theorem execResetCommunication_kept (node : BitVec 7) (strap : BitVec 7) (s : State) : ∀ nx,
    execResetCommunication node strap s = .next nx → Kept s nx := by
  grind [execResetCommunication, Kept, !. State.resetCommunication_kept]

theorem execHeartbeatProduce_kept (s : State) : ∀ nx, execHeartbeatProduce s = .next nx → Kept s nx := by
  grind [execHeartbeatProduce, Kept, !. State.sendHeartbeat_kept]

theorem execHeartbeatReceive_kept (node : BitVec 7) (s : State) : ∀ nx, execHeartbeatReceive node s = .next nx →
    Kept s nx := by
  grind [execHeartbeatReceive, Kept, Sound, State.rising, srising_sput, srising_smod, srising_sclear,
      Mem.write_wf, Mem.zero_wf, !. State.clearCondition_kept]

theorem execHeartbeatConsumerTimeout_kept (c : Fin 4) (s : State) : ∀ nx, execHeartbeatConsumerTimeout c s = .next
    nx → Kept s nx := by
  grind [execHeartbeatConsumerTimeout, Kept, Sound, State.rising, srising_sput, srising_smod, srising_sclear,
      Mem.write_wf, Mem.zero_wf, !. State.logEvent_kept]

theorem execEmcySend_kept (s : State) : ∀ nx, execEmcySend s = .next nx → Kept s nx := by
  grind (splits := 20) (ematch := 12) [execEmcySend, Kept, Sound, State.rising, srising_sput, srising_smod,
      srising_sclear, Mem.write_wf, Mem.zero_wf, !. State.emit_kept]

theorem execCanBusError_kept (tec : Nat) (recv : Nat) (s : State) : ∀ nx, execCanBusError tec recv s = .next nx →
    Kept s nx := by
  grind [execCanBusError, Kept, Sound, State.rising, srising_sput, srising_smod, srising_sclear, Mem.write_wf,
      Mem.zero_wf, !. State.logEvent_kept, !. State.clearCondition_kept]

theorem execBusOffRecovery_kept (s : State) : ∀ nx, execBusOffRecovery s = .next nx → Kept s nx := by
  grind [execBusOffRecovery, Kept, Sound, State.rising, srising_sput, srising_smod, srising_sclear, Mem.write_wf,
      Mem.zero_wf, !. State.logEvent_kept, !. State.count32_kept, !. State.clearCondition_kept]

theorem execCanReceiveOverrun_kept (s : State) : ∀ nx, execCanReceiveOverrun s = .next nx → Kept s nx := by
  grind [execCanReceiveOverrun, Kept, !. State.logEvent_kept]

theorem State.fixCanClock_kept (s : State) : Kept s (State.fixCanClock s) := by
  grind [State.fixCanClock, Kept, Sound, State.rising, srising_sput, srising_smod, srising_sclear, Mem.write_wf,
      Mem.zero_wf]

theorem execPcieRefclkChange_kept (good : Bool) (s : State) : ∀ nx, execPcieRefclkChange good s = .next nx → Kept
    s nx := by
  grind [execPcieRefclkChange, Kept, Sound, State.rising, srising_sput, srising_smod, srising_sclear,
      Mem.write_wf, Mem.zero_wf, !. State.fixCanClock_kept]

theorem execErrorHistoryClear_kept (via : Path) (s : State) : ∀ nx, execErrorHistoryClear via s = .next nx → Kept
    s nx := by
  grind [execErrorHistoryClear, Kept, Sound, State.rising, srising_sput, srising_smod, srising_sclear,
      Mem.write_wf, Mem.zero_wf, !. State.command_kept, !. State.queueEmcy_kept]

/-! ### Mailbox.lean -/

theorem hostAccess_kept (s body : State) (h : Kept s body) : ∀ u, hostAccess s body = .next u → Kept s u := by
  intro u hu
  cases hu
  exact Kept.ite h (Kept.rfl s)

theorem State.setMail_kept (s : State) (i : Fin 8) (m : MailPair) : Kept s (State.setMail s i m) := by
  grind [State.setMail, Kept, Sound, State.rising, srising_sput, srising_smod, srising_sclear, Mem.write_wf,
      Mem.zero_wf]

theorem State.countOverflow_kept (s : State) (m : Mailbox) : Kept s (State.countOverflow s m) := by
  grind [State.countOverflow, Kept, !. State.count32_kept]

theorem execH2sData_kept (i : Fin 8) (w : W32) (s : State) : ∀ nx, execH2sData i w s = .next nx → Kept s nx := by
  refine hostAccess_kept s _ ?_
  grind [Kept, !. State.setMail_kept, !. State.countOverflow_kept, Sound, State.rising, srising_sput,
      srising_smod, srising_sclear]

theorem execS2hData_kept (i : Fin 8) (s : State) : ∀ nx, execS2hData i s = .next nx → Kept s nx := by
  refine hostAccess_kept s _ ?_
  grind [Kept, !. State.emit_kept, !. State.setMail_kept, Sound, State.rising, srising_sput, srising_smod,
      srising_sclear]

theorem execSupervisorMailboxWrite_kept (i : Fin 8) (w : W32) (s : State) : ∀ nx, execSupervisorMailboxWrite i w s
    = .next nx → Kept s nx := by
  grind [execSupervisorMailboxWrite, Kept, !. State.setMail_kept, !. State.countOverflow_kept, !. State.raise_kept]

theorem execSupervisorMailboxRead_kept (i : Fin 8) (s : State) : ∀ nx, execSupervisorMailboxRead i s = .next nx →
    Kept s nx := by
  grind [execSupervisorMailboxRead, Kept, !. State.emit_kept, !. State.setMail_kept]

theorem execMbClear_kept (i : Fin 8) (host : Bool) (w : W32) (s : State) : ∀ nx, execMbClear i host w s = .next nx →
    Kept s nx := by
  intro nx h
  unfold execMbClear at h
  dsimp only at h
  split at h
  · cases h
    exact State.setMail_kept ..
  · exact hostAccess_kept s _ (State.setMail_kept ..) nx h

theorem execMailboxTimeout_kept (i : Fin 8) (h2s : Bool) (s : State) : ∀ nx, execMailboxTimeout i h2s s = .next nx
    → Kept s nx := by
  grind [execMailboxTimeout, Kept, !. State.raise_kept, !. State.count32_kept, !. State.setMail_kept]

theorem execDbH2s_kept (w : W64) (s : State) : ∀ nx, execDbH2s w s = .next nx → Kept s nx := by
  refine hostAccess_kept s _ ?_
  grind [Kept, Sound, State.rising, srising_sput, srising_smod, srising_sclear]

theorem execDbS2h_kept (w : W64) (s : State) : ∀ nx, execDbS2h w s = .next nx → Kept s nx := by
  refine hostAccess_kept s _ ?_
  grind [Kept, Sound, State.rising, srising_sput, srising_smod, srising_sclear]

theorem State.ringHost_kept (s : State) (w : W64) : Kept s (State.ringHost s w) := by
  grind [State.ringHost, Kept, Sound, State.rising, srising_sput, srising_smod, srising_sclear, Mem.write_wf,
      Mem.zero_wf, !. State.raise_kept]

theorem execSupervisorDoorbellSet_kept (w : W64) (s : State) : ∀ nx, execSupervisorDoorbellSet w s = .next nx →
    Kept s nx := by
  grind [execSupervisorDoorbellSet, Kept, !. State.ringHost_kept]

theorem execSupervisorDoorbellClear_kept (w : W64) (s : State) : ∀ nx, execSupervisorDoorbellClear w s = .next nx
    → Kept s nx := by
  grind [execSupervisorDoorbellClear, Kept, Sound, State.rising, srising_sput, srising_smod, srising_sclear,
      Mem.write_wf, Mem.zero_wf]

/-! ### Answer.lean -/

theorem State.windowDone_kept (s : State) (c : Nat) (code : Nat) : Kept s (State.windowDone s c code) := by
  grind [State.windowDone, Kept, Sound, State.rising, srising_sput, srising_smod, srising_sclear, Mem.write_wf,
      Mem.zero_wf, !. State.count64_kept, !. State.ringHost_kept]

theorem State.windowValue_kept (s : State) (c : Nat) (data : List Byte) : Kept s (State.windowValue s c data).2 := by
  simp only [State.windowValue]
  split
  · exact Kept.rfl s
  · split
    · have k := State.writeStaging_kept s (stagingBase + windowBuf c) data
      split
      · refine Kept.trans k ?_
        grind [Kept, Sound, State.rising, srising_sput, srising_smod, srising_sclear]
      · exact k
    · grind [Kept, Sound, State.rising, srising_sput, srising_smod, srising_sclear]

theorem State.sendMresp_kept (s : State) (src : Nat) (header : Nat) (code : Nat) (data : List Byte) : Kept s
    (State.sendMresp s src header code data) := by
  grind [State.sendMresp, Kept, !. State.respond_kept]

theorem State.answerWrite_kept (s : State) (via : Path) (client key code : Nat) : Kept s (State.answerWrite s via
    client key code) := by
  unfold State.answerWrite
  split
  · exact State.windowDone_kept ..
  · exact State.sendUsdo_kept ..
  · exact State.sendMresp_kept ..

/-! ### Saved.lean -/

theorem State.disturbGroup_kept (s : State) (g : Nat) : Kept s (State.disturbGroup s g) := by
  have k : ∀ (m : Mem) (lo hi : Nat), m.wf = true → Mem.wf (sclear m lo hi) = true := fun m lo hi h => swf_filter
      h _
  grind [State.disturbGroup, Kept, Sound, State.rising, srising_sput, srising_smod, srising_sclear, !.
      State.draw_kept]

theorem State.renumber_kept (s : State) (old : Nat) (new : Nat) : Kept s (State.renumber s old new) := by
  grind [State.renumber, Kept, Sound, State.rising, srising_sput, srising_smod, srising_sclear, Mem.write_wf,
      Mem.zero_wf]

theorem State.setTable_kept (s : State) (i : Nat) (data : List Byte) : Kept s (State.setTable s i data) := by
  grind [State.setTable, Kept, Sound, State.rising, srising_sput, srising_smod, srising_sclear, Mem.write_wf,
      Mem.zero_wf]

theorem State.forgetPartner_kept (s : State) (j : Nat) : Kept s (State.forgetPartner s j) := by
  grind [State.forgetPartner, Kept, Sound, State.rising, srising_sput, srising_smod, srising_sclear, Mem.write_wf,
      Mem.zero_wf, !. State.abandon_kept]

theorem State.applyWrite_kept (s : State) (e : Entry) (i sub : Nat) (data : List Byte) : Kept s (State.applyWrite s e
    i sub data) := by
  simp only [State.applyWrite]
  split
  · exact Kept.trans (State.setTable_kept ..) (foldl_kept _ (fun s g => State.disturbGroup_kept ..) _ _)
  · split
    · exact Kept.trans (State.setTable_kept ..) (foldl_kept _ (fun s g => State.refreshHosting_kept ..) _ _)
    · grind [Flash.ok, Sound, State.rising, Kept, !. State.setTable_kept, !. State.odSet_kept, !. State.renumber_kept,
      !.
        State.modFrame_kept, !. State.forgetPartner_kept]

theorem State.beginStore_kept (s : State) (via : Path) (g : Fin 3) (restore : Bool) : Kept s (State.beginStore s
    via g restore) := by
  grind [State.beginStore, Kept, Sound, State.rising, srising_sput, srising_smod, srising_sclear, Mem.write_wf,
      Mem.zero_wf, !. State.serveWrite_kept]

theorem execStoreParameters_kept (via : Path) (group : Fin 3) (s : State) : ∀ nx, execStoreParameters via group s
    = .next nx → Kept s nx := by
  grind [execStoreParameters, Kept, !. State.beginStore_kept]

theorem execRestoreDefaults_kept (via : Path) (group : Fin 3) (s : State) : ∀ nx, execRestoreDefaults via group s
    = .next nx → Kept s nx := by
  grind [execRestoreDefaults, Kept, !. State.beginStore_kept]

theorem State.endStore_kept (s : State) (x : Storing) (ok : Bool) : Kept s (State.endStore s x ok) := by
  unfold State.endStore
  extract_lets c f1 s1 s2 code s3
  have k1 : Kept s s1 := by
    grind [Kept, Sound, State.rising, Flash.ok]
  have k2 : Kept s1 s2 := Kept.ite (Kept.rfl _) (State.logEvent_kept ..)
  have k3 : Kept s2 s3 := State.served_kept ..
  split
  · exact Kept.trans (Kept.trans k1 k2) k3
  · exact Kept.trans (Kept.trans (Kept.trans k1 k2) k3) (State.answerWrite_kept ..)

theorem execStoreComplete_kept (ok : Bool) (s : State) : ∀ nx, execStoreComplete ok s = .next nx → Kept s nx := by
  grind [execStoreComplete, Kept, !. State.endStore_kept]

theorem execRestoreDefaultsComplete_kept (ok : Bool) (s : State) : ∀ nx, execRestoreDefaultsComplete ok s = .next
    nx → Kept s nx := by
  grind [execRestoreDefaultsComplete, Kept, !. State.endStore_kept]

/-! ### Clocks.lean -/

theorem State.failOverLink_kept (s : State) (k : Fin 24) : Kept s (State.failOverLink s k) := by
  grind [State.failOverLink, Kept, !. State.dropLink_kept]

theorem State.setNmi_kept (s : State) : Kept s (State.setNmi s) := by
  grind [State.setNmi, Kept, Sound, State.rising, srising_sput, srising_smod, srising_sclear, Mem.write_wf,
      Mem.zero_wf, !. State.raise_kept]

theorem State.failOver_kept (s : State) : Kept s (State.failOver s) := by
  simp only [State.failOver]
  refine Kept.trans (Kept.trans (Kept.trans (Kept.trans (Kept.trans ?_ (foldl_kept _ (fun s k =>
      State.failOverLink_kept ..) _ _)) (State.count32_kept ..)) (State.setNmi_kept ..)) (State.fixCanClock_kept ..))
      (State.logEvent_kept ..)
  grind [Kept, Sound, State.rising, srising_sput, srising_smod, srising_sclear]

theorem State.returnWindow_kept (s : State) (n : Nat) (edges : Nat) : Kept s (State.returnWindow s n edges) := by
  grind [State.returnWindow, Kept, Sound, State.rising, srising_sput, srising_smod, srising_sclear, Mem.write_wf,
      Mem.zero_wf, !. State.count32_kept, !. State.clearCondition_kept, !. State.fixCanClock_kept]

theorem execClockMonitorWindow_kept (edges : Nat) (s : State) : ∀ nx, execClockMonitorWindow edges s = .next nx →
    Kept s nx := by
  grind [execClockMonitorWindow, Kept, Sound, State.rising, srising_sput, srising_smod, srising_sclear,
      Mem.write_wf, Mem.zero_wf, !. State.odSet_kept, !. State.returnWindow_kept, !. State.failOver_kept]

theorem execReturnToSource_kept (via : Path) (s : State) : ∀ nx, execReturnToSource via s = .next nx → Kept s nx
    := by
  grind [execReturnToSource, Kept, Sound, State.rising, srising_sput, srising_smod, srising_sclear, Mem.write_wf,
      Mem.zero_wf, !. State.command_kept]

theorem State.modPower_kept (s : State) (f : PowerState → PowerState) : Kept s (State.modPower s f) := by
  grind [State.modPower, Kept, Sound, State.rising, srising_sput, srising_smod, srising_sclear, Mem.write_wf,
      Mem.zero_wf]

theorem execPowerCapAdjust_kept (watts : Nat) (s : State) : ∀ nx, execPowerCapAdjust watts s = .next nx → Kept s
    nx := by
  grind [execPowerCapAdjust, Kept, !. State.modPower_kept, !. State.odSet_kept, !. State.odAdd_kept]

theorem execFastPathLimit_kept (watts : Nat) (s : State) : ∀ nx, execFastPathLimit watts s = .next nx → Kept s nx
    := by
  grind [execFastPathLimit, Kept, !. State.count32_kept, !. State.modPower_kept]

theorem State.thermal_kept (s : State) (sensor : Fin 16) (temp : Int) : Kept s (State.thermal s sensor temp) := by
  grind [State.thermal, Kept, !. State.modPower_kept, !. State.logEvent_kept, !. State.clearCondition_kept]

theorem execThermalAdjust_kept (sensor : Fin 16) (temp : Int) (s : State) : ∀ nx, execThermalAdjust sensor temp s
    = .next nx → Kept s nx := by
  grind [execThermalAdjust, Kept, !. State.thermal_kept, !. State.odAdd_kept]

theorem State.setDroop_kept (s : State) (lower : Bool) (x : Nat) : Kept s (State.setDroop s lower x) := by
  grind [State.setDroop, Kept, !. State.modPower_kept]

theorem State.checkSag_kept (s : State) : Kept s (State.checkSag s) := by
  grind [State.checkSag, Kept, !. State.modPower_kept, !. State.clearCondition_kept]

theorem execDroopStretch_kept (sensor : Fin 32) (sag : Nat) (s : State) : ∀ nx, execDroopStretch sensor sag s =
    .next nx → Kept s nx := by
  grind [execDroopStretch, Kept, !. State.modPower_kept, !. State.count32_kept, !. State.setDroop_kept, !.
      State.logEvent_kept, !. State.checkSag_kept]

theorem execDroopHoldExpiry_kept (lower : Bool) (s : State) : ∀ nx, execDroopHoldExpiry lower s = .next nx → Kept
    s nx := by
  grind [execDroopHoldExpiry, Kept, !. State.setDroop_kept, !. State.checkSag_kept, !. State.modPower_kept]

theorem execInputBackInLimits_kept (mv : Nat) (s : State) : ∀ nx, execInputBackInLimits mv s = .next nx → Kept s
    nx := by
  grind [execInputBackInLimits, Kept, !. State.clearCondition_kept, !. State.modPower_kept]

/-! ### Scrub.lean -/

theorem execStackRefresh_kept (_stack : Fin 4) (s : State) : ∀ nx, execStackRefresh _stack s = .next nx → Kept s
    nx := by
  grind [execStackRefresh, Kept]

theorem execStackPeriodicCheck_kept (stack : Fin 4) (temp : Int) (onDie : List (Nat × Nat)) (s : State) : ∀ nx,
    execStackPeriodicCheck stack temp onDie s = .next nx → Kept s nx := by
  intro w h
  simp only [execStackPeriodicCheck] at h
  cases h
  refine Kept.trans (Kept.trans (State.odSet_kept ..) (State.odSet_kept ..)) (foldl_kept _ (fun s p => ?_) _ _)
  exact Kept.ite (State.modPc_kept ..) (Kept.rfl s)

theorem State.beginRetire_kept (s : State) (pc : Nat) (reason : Nat) : Kept s (State.beginRetire s pc reason) := by
  grind [State.beginRetire, Kept, !. State.modPc_kept]

theorem State.retirePc_kept (s : State) (pc : Nat) (reason : Nat) : Kept s (State.retirePc s pc reason) := by
  unfold State.retirePc
  refine Kept.trans ?_ (foldl_kept _ (fun s x => ?_) _ _) <;> grind [Kept, Sound, State.rising, srising_sput,
      srising_smod, srising_sclear, Mem.write_wf, !. State.modPc_kept, !. State.logEvent_kept, !. State.odSet_kept, !.
      State.frameFault_kept]

theorem execRetirePseudoChannel_kept (via : Path) (value : W16) (s : State) : ∀ nx, execRetirePseudoChannel via
    value s = .next nx → Kept s nx := by
  grind [execRetirePseudoChannel, Kept, !. State.command_kept, !. State.beginRetire_kept]

theorem execPseudoChannelRetirementDrained_kept (pc : Fin 256) (s : State) : ∀ nx,
    execPseudoChannelRetirementDrained pc s = .next nx → Kept s nx := by
  grind [execPseudoChannelRetirementDrained, Kept, !. State.retirePc_kept]

theorem State.modScrub_kept (s : State) (u : Fin 5) (f : Scrub → Scrub) : Kept s (State.modScrub s u f) := by
  grind [State.modScrub, Kept, Sound, State.rising, srising_sput, srising_smod, srising_sclear, Mem.write_wf,
      Mem.zero_wf]

theorem State.startScrub_kept (s : State) (u : Fin 5) : Kept s (State.startScrub s u) := by
  grind [State.startScrub, Kept, !. State.modScrub_kept, !. State.odSet_kept]

theorem execScrubStart_kept (via : Path) (u : Fin 5) (s : State) : ∀ nx, execScrubStart via u s = .next nx → Kept
    s nx := by
  refine State.command_kept s via _ _ _ _ ?_
  grind [Kept, !. State.odSet_kept, !. State.startScrub_kept, Sound, State.rising, srising_sput, srising_smod,
      srising_sclear]

theorem State.scrubLook_kept (s : State) (a : Nat) : Kept s (s.scrubLook a).s := by
  unfold State.scrubLook
  split
  · exact Kept.trans (State.draw_kept ..) (State.readRow_kept ..)
  · exact State.readBlock_kept ..

theorem State.scrubWrite_kept (s : State) (a : Nat) (data : List Byte) (poison : Bool) : Kept s (State.scrubWrite
    s a data poison) := by
  grind [State.scrubWrite, Kept, !. State.writeRow_kept, !. State.writeBlock_kept]

theorem State.scrubSkip_kept (s : State) (u : Fin 5) (n : Nat) : Kept s (State.scrubSkip s u n) := by
  grind [State.scrubSkip, Kept, !. State.odAdd_kept]

theorem State.scrubFail_kept (s : State) (u : Fin 5) (a : Nat) (sub : Nat) : Kept s (State.scrubFail s u a sub) :=
    by
  grind [State.scrubFail, Kept, !. State.odAdd_kept, !. State.odSet_kept]

theorem State.scrubRepeat_kept (s : State) (u : Fin 5) (a : Nat) : Kept s (State.scrubRepeat s u a) := by
  grind [State.scrubRepeat, Kept, !. State.modScrub_kept, !. State.odAdd_kept, !. State.logEvent_kept, !.
      State.pendRow_kept, !. State.pendPc_kept, !. State.modPc_kept]

theorem State.scrubAccess_kept (s : State) (u : Fin 5) (a : Nat) : Kept s (State.scrubAccess s u a) := by
  grind [State.scrubAccess, !. State.scrubLook_kept, Kept, !. State.scrubFail_kept, !. State.scrubWrite_kept, !.
      State.scrubSkip_kept, !. State.modScrub_kept]

theorem State.scrubBack_kept (s : State) (u : Fin 5) (w : WriteBack) : Kept s (State.scrubBack s u w) := by
  grind [State.scrubBack, Kept, !. State.modScrub_kept, !. State.scrubWrite_kept]

theorem State.scrubRecheck_kept (s : State) (u : Fin 5) (a : Nat) : Kept s (State.scrubRecheck s u a) := by
  grind [State.scrubRecheck, !. State.scrubLook_kept, Kept, !. State.modScrub_kept, !. State.scrubRepeat_kept]

theorem execScrubAbort_kept (via : Path) (u : Fin 5) (s : State) : ∀ nx, execScrubAbort via u s = .next nx → Kept
    s nx := by
  refine State.command_kept s via _ _ _ _ ?_
  grind [Kept, !. State.odSet_kept, !. State.modScrub_kept, Sound, State.rising, srising_sput, srising_smod,
      srising_sclear, !. State.command_kept, !. State.scrubBack_kept]

theorem execScrubRead_kept (u : Fin 5) (s : State) : ∀ nx, execScrubRead u s = .next nx → Kept s nx := by
  grind [execScrubRead, Kept, !. State.scrubBack_kept, !. State.scrubRecheck_kept, !. State.scrubSkip_kept, !.
      State.odSet_kept, !. State.scrubAccess_kept]

theorem execScrubPassDone_kept (u : Fin 5) (s : State) : ∀ nx, execScrubPassDone u s = .next nx → Kept s nx := by
  grind [execScrubPassDone, Kept, !. State.odSet_kept, !. State.modScrub_kept]

/-! ### Host.lean -/

theorem State.ackResult_kept (s : State) (seq : Nat) : Kept s (State.ackResult s seq) := by
  have k : ∀ (m : Mem) (a : Nat) (b : Byte), m.wf = true → (m.setByte a b).wf = true := fun m a b h =>
      Mem.setByte_wf h a b
  grind [State.ackResult, Sound, State.rising, srising_sput, srising_smod, srising_sclear, Kept, !.
      State.count32_kept]

theorem execAckResult_kept (seq : W32) (s : State) : ∀ nx, execAckResult seq s = .next nx → Kept s nx := by
  refine hostAccess_kept s _ ?_
  grind [Kept, !. State.ackResult_kept, Sound, State.rising, srising_sput, srising_smod, srising_sclear]

theorem State.takePlace_kept (s : State) (a : Access) (h : s.queueFull = false) : Kept s (State.takePlace s a) := by
  refine ⟨rfl, fun k => ?_⟩
  have g : (s.takePlace a).queue.length ≤ 32 := by
    have := List.takeWhile_append_dropWhile (p := fun b : Access => decide (pathRank b.path ≤ pathRank a.path))
      (l := s.queue.drop (s.queue.length - s.queueFresh))
    have := congrArg List.length this
    rw [List.length_append, List.length_drop] at this
    simp [State.queueFull, State.takePlace] at *
    omega
  exact { k with queue := g, rising := k.rising }

theorem State.enqueueWindow_kept (s : State) (a : Access) : Kept s (State.enqueueWindow s a) := by
  unfold State.enqueueWindow
  split
  · exact State.count32_kept ..
  · split
    · grind [Kept, Sound, State.rising]
    · have h := State.takePlace_kept s a (by simp_all)
      grind [Kept, Sound, State.rising]

theorem State.windowCommand_kept (s : State) (ctl : Nat) (write : Bool) : Kept s (State.windowCommand s ctl write) :=
  State.enqueueWindow_kept ..

theorem execDwRead_kept (ctl : W32) (s : State) : ∀ nx, execDwRead ctl s = .next nx → Kept s nx := by
  refine hostAccess_kept s _ ?_
  grind [Kept, !. State.windowCommand_kept, Sound, State.rising, srising_sput, srising_smod, srising_sclear]

theorem execDwWrite_kept (ctl : W32) (s : State) : ∀ nx, execDwWrite ctl s = .next nx → Kept s nx := by
  refine hostAccess_kept s _ ?_
  grind [Kept, !. State.windowCommand_kept, Sound, State.rising, srising_sput, srising_smod, srising_sclear]

theorem State.writeDwCtl_kept (s : State) (v : Nat) : Kept s (State.writeDwCtl s v) := by
  grind [State.writeDwCtl, Kept, !. State.windowCommand_kept, !. State.count32_kept]

theorem State.setRing_kept (s : State) (r : Fin 16) (x : Ring) : Kept s (State.setRing s r x) := by
  grind [State.setRing, Kept, Sound, State.rising, srising_sput, srising_smod, srising_sclear, Mem.write_wf,
      Mem.zero_wf]

theorem State.modRing_kept (s : State) (r : Fin 16) (f : Ring → Ring) : Kept s (State.modRing s r f) := by
  grind [State.modRing, Kept, !. State.setRing_kept]

theorem execRingEnable_kept (r : Fin 16) (ctl : W32) (s : State) : ∀ nx, execRingEnable r ctl s = .next nx → Kept
    s nx := by
  refine hostAccess_kept s _ ?_
  grind [Kept, !. State.modRing_kept, Sound, State.rising, srising_sput, srising_smod, srising_sclear]

theorem execRingDisable_kept (r : Fin 16) (ctl : W32) (s : State) : ∀ nx, execRingDisable r ctl s = .next nx →
    Kept s nx := by
  refine hostAccess_kept s _ ?_
  grind [Kept, !. State.modRing_kept, Sound, State.rising, srising_sput, srising_smod, srising_sclear]

theorem execRingResume_kept (r : Fin 16) (ctl : W32) (s : State) : ∀ nx, execRingResume r ctl s = .next nx → Kept
    s nx := by
  refine hostAccess_kept s _ ?_
  grind [Kept, !. State.modRing_kept, Sound, State.rising, srising_sput, srising_smod, srising_sclear]

theorem execProd_kept (r : Fin 16) (v : W32) (s : State) : ∀ nx, execProd r v s = .next nx → Kept s nx := by
  refine hostAccess_kept s _ ?_
  grind [Kept, !. State.modRing_kept, Sound, State.rising, srising_sput, srising_smod, srising_sclear]

theorem State.ringIn_kept (s : State) (x : Ring) (a : Nat) (a' : List (List Byte)) : Kept s (State.ringIn s x a
    a').2 := by
  induction a' generalizing s a with
  | nil => exact Kept.rfl s
  | cons b bs ih =>
    simp only [State.ringIn]
    split
    · exact Kept.rfl s
    · exact Kept.trans (State.writeDevice_kept ..) (ih ..)

theorem State.ringOut_kept (s : State) (x : Ring) (a : Nat) (blocks : Nat) : Kept s (State.ringOut s x a
    blocks).2.2 := by
  induction blocks generalizing s a with
  | zero => exact Kept.rfl s
  | succ n ih =>
    simp only [State.ringOut]
    split
    · exact Kept.rfl s
    · split
      · exact State.readDevice_kept ..
      · exact Kept.trans (State.readDevice_kept ..) (ih ..)

theorem State.ringTransfer_kept (s : State) (x : Ring) (d : RingDesc) (data : List Byte) (hostFailed : Bool) :
    Kept s (State.ringTransfer s x d data hostFailed).2 := by
  grind [State.ringTransfer, Kept, !. State.ringOut_kept, !. State.emit_kept, !. State.ringIn_kept]

theorem State.ringDone_kept (s : State) (x : Ring) (index : Nat) (code : Nat) : Kept s (State.ringDone s x index
    code) := by
  grind [State.ringDone, Kept, !. State.emit_kept]

theorem State.ringHalt_kept (s : State) (r : Fin 16) (index : Nat) (code : Nat) : Kept s (State.ringHalt s r index
    code) := by
  grind [State.ringHalt, Kept, !. State.raise_kept, !. State.setRing_kept, !. State.ringDone_kept]

theorem State.completionTimeout_kept (s : State) : Kept s (State.completionTimeout s) := by
  grind [State.completionTimeout, Kept, Sound, State.rising, srising_sput, srising_smod, srising_sclear, Mem.write_wf,
      Mem.zero_wf, !. State.count32_kept]

theorem execRingDescriptorProcess_kept (r : Fin 16) (desc data : List Byte) (failed : Option HostFailure) (s : State)
    : ∀ nx, execRingDescriptorProcess r desc data failed s = .next nx → Kept s nx := by
  grind [execRingDescriptorProcess, Kept, !. State.ringHalt_kept, !. State.ringTransfer_kept, !.
      State.completionTimeout_kept, !. State.modRing_kept]

theorem execRingDescriptorComplete_kept (r : Fin 16) (s : State) : ∀ nx, execRingDescriptorComplete r s = .next nx
    → Kept s nx := by
  grind [execRingDescriptorComplete, Kept, !. State.ringDone_kept, !. State.setRing_kept, !. State.odAdd_kept, !.
      State.raise_kept]

theorem State.dropAccess_kept (s : State) : Kept s (State.dropAccess s) := by
  grind [State.dropAccess, Kept, !. State.count32_kept]

theorem afterwards_kept (s : State) (r : Result) (h : ∀ u, r = .next u → Kept s u) : Kept s (afterwards s r) := by
  unfold afterwards
  split
  · exact h _ rfl
  · exact Kept.rfl s

theorem State.writeRingWord_kept (s : State) (r : Fin 16) (o : Nat) (v : Nat) : Kept s (State.writeRingWord s r o
    v) := by
  grind [State.writeRingWord, Kept, !. State.setRing_kept, !. State.dropAccess_kept]

theorem State.writeMailWord_kept (s : State) (i : Fin 8) (o v : Nat) : Kept s (State.writeMailWord s i o v) := by
  grind [State.writeMailWord, Kept, !. afterwards_kept, !. execH2sData_kept, !. execMbClear_kept, !.
      State.dropAccess_kept]

theorem State.writeWord_kept (s : State) (o : Nat) (v : Nat) : Kept s (State.writeWord s o v) := by
  grind (splits := 20) (ematch := 12) [State.writeWord, Kept, Sound, State.rising, srising_sput, srising_smod,
      srising_sclear, Mem.write_wf, Mem.zero_wf, !. State.writeDwCtl_kept, !. State.writeMailWord_kept, !.
      afterwards_kept, !. execDbH2s_kept, !. execDbS2h_kept, !. State.ackResult_kept, !. State.writeRingWord_kept, !.
      State.dropAccess_kept]

theorem State.writeHost_kept (s : State) (o : Nat) (size : Nat) (v : Nat) : Kept s (State.writeHost s o size v) :=
    by
  grind [State.writeHost, Kept, !. State.dropAccess_kept, !. State.writeWord_kept]

theorem State.readWord_kept (s : State) (o : Nat) : Kept s (State.readWord s o).2 := by
  grind [State.readWord, Kept, !. State.dropAccess_kept, !. afterwards_kept, !. execS2hData_kept]

theorem State.readHost_kept (s : State) (o size : Nat) : Kept s (State.readHost s o size).2 := by
  grind [State.readHost, Kept, !. State.dropAccess_kept, !. State.readWord_kept]

theorem execHostRegisterWrite_kept (off : Nat) (size : Nat) (v : W64) (s : State) : ∀ nx, execHostRegisterWrite
    off size v s = .next nx → Kept s nx := by
  refine hostAccess_kept s _ ?_
  grind [Kept, !. State.writeHost_kept, Sound, State.rising, srising_sput, srising_smod, srising_sclear]

theorem execStagingWrite_kept (off : Nat) (data : List Byte) (s : State) : ∀ nx, execStagingWrite off data s = .next
    nx → Kept s nx := by
  intro w h
  simp only [execStagingWrite] at h
  split at h
  · cases h
    exact Kept.rfl s
  · exact hostAccess_kept s _ (Kept.ite (State.dropAccess_kept ..) (State.writeStaging_kept ..)) w h

theorem State.flushVectors_kept (s : State) : Kept s (State.flushVectors s) := by
  unfold State.flushVectors
  refine foldl_kept _ (fun s x => ?_) _ _
  grind [Kept, Sound, State.rising, srising_sput, srising_smod, srising_sclear, Mem.write_wf, !. State.raise_kept]

theorem execMsixTableWrite_kept (off : Nat) (v : W32) (s : State) : ∀ nx, execMsixTableWrite off v s = .next nx → Kept
    s nx := by
  have k : ∀ (s : State) (x : HostIf), x.nextSeq = s.host.nextSeq → Kept s (State.flushVectors { s with host := x }) :=
    fun s x e => Kept.trans (by grind [Kept, Sound, State.rising]) (State.flushVectors_kept ..)
  intro nx h
  unfold execMsixTableWrite at h
  split at h
  · cases h
    exact Kept.rfl s
  · split at h
    · injection h with e
      subst e
      exact k s { s.host with functionMask := bit v.toNat 14, msixEnable := bit v.toNat 15 } rfl
    · split at h
      · cases h
        exact Kept.rfl s
      · injection h with e
        subst e
        exact k s { s.host with msix := sput _ s.host.msix _ _ } rfl

theorem State.abandonDescriptor_kept (s : State) (b : List Byte) : Kept s (State.abandonDescriptor s b) := by
  grind [State.abandonDescriptor, Kept, !. State.draw_kept, !. State.writeDevice_kept]

theorem State.abandonRing_kept (s : State) (r : Fin 16) : Kept s (State.abandonRing s r) := by
  unfold State.abandonRing
  refine Kept.trans ?_ (State.modRing_kept ..)
  exact foldl_kept _ (fun s b => State.abandonDescriptor_kept ..) _ _

theorem State.hostReset_kept (s : State) : Kept s (State.hostReset s) := by
  simp only [State.hostReset]
  refine Kept.trans (foldl_kept State.abandonRing (fun s r => State.abandonRing_kept ..) (List.finRange 16) s) ?_
  generalize List.foldl State.abandonRing s (List.finRange 16) = a
  have k : ∀ g : Nat × MailPair → Option (Nat × MailPair), (∀ p q, g p = some q → q.1 = p.1) → a.rising = true →
      srising (a.mail.filterMap g) = true := fun g hg h => srising_filterMap (by grind [State.rising]) g hg
  have k1 := k (fun p => if ({ p.2 with h2s := p.2.h2s.emptied, s2h := p.2.s2h.emptied } : MailPair) = {} then none
    else some (p.1, { p.2 with h2s := p.2.h2s.emptied, s2h := p.2.s2h.emptied })) (fun p q h => by grind)
  grind [Kept, Sound, State.rising, List.length_map]

theorem execFunctionLevelReset_kept (s : State) : ∀ nx, execFunctionLevelReset s = .next nx → Kept s nx := by
  grind [execFunctionLevelReset, Kept, !. State.odSet_kept, !. State.count32_kept, !. State.hostReset_kept]

theorem State.hostLinkDown_kept (s : State) : Kept s (State.hostLinkDown s) := by
  grind [State.hostLinkDown, Kept, Sound, State.rising, srising_sput, srising_smod, srising_sclear, Mem.write_wf,
      Mem.zero_wf, !. State.odSet_kept, !. State.hostReset_kept]

theorem execHotReset_kept (s : State) : ∀ nx, execHotReset s = .next nx → Kept s nx := by
  grind [execHotReset, Kept, !. State.count32_kept, !. State.hostLinkDown_kept]

theorem State.setPerst_kept (s : State) (high : Bool) : Kept s (State.setPerst s high) := by
  have k : ∀ u : State, Kept u { u with host := { u.host with perstHigh := high } } := fun u => by
    grind [Kept, Sound, State.rising]
  exact Kept.trans (Kept.ite (Kept.trans (State.hostLinkDown_kept ..) (State.count32_kept ..)) (Kept.rfl s)) (k _)

theorem execPerstN_kept (high : Bool) (s : State) : ∀ nx, execPerstN high s = .next nx → Kept s nx := by
  grind [execPerstN, Kept, !. State.setPerst_kept]

theorem execPciePowerStateChange_kept (d3hot : Bool) (l2 : Bool) (s : State) : ∀ nx, execPciePowerStateChange
    d3hot l2 s = .next nx → Kept s nx := by
  grind [execPciePowerStateChange, Kept, Sound, State.rising, srising_sput, srising_smod, srising_sclear,
      Mem.write_wf, Mem.zero_wf, !. State.flushVectors_kept]

theorem State.corrected_kept (s : State) (n : Nat) : Kept s (State.corrected s n) := by
  grind [State.corrected, Kept, Sound, State.rising, srising_sput, srising_smod, srising_sclear, Mem.write_wf,
      Mem.zero_wf, !. State.odAdd_kept]

theorem execPcieLinkUp_kept (speed : Fin 6) (width maxPayload corrected : Nat) (s : State) : ∀ nx, execPcieLinkUp
    speed width maxPayload corrected s = .next nx → Kept s nx := by
  grind [execPcieLinkUp, Kept, Sound, State.rising, srising_sput, srising_smod, srising_sclear, Mem.write_wf,
      Mem.zero_wf, !. State.odSet_kept, !. State.corrected_kept, !. State.flushVectors_kept]

/-! ### Firmware.lean -/

theorem State.linksOff_kept (s : State) : Kept s (State.linksOff s) := by
  unfold State.linksOff
  refine foldl_kept _ (fun s x => ?_) _ _
  grind [Kept, !. State.setLink_kept]

theorem State.enterRecovery_kept (s : State) : Kept s (State.enterRecovery s) := by
  grind [State.enterRecovery, Kept, Sound, State.rising, srising_sput, srising_smod, srising_sclear, Mem.write_wf,
      Mem.zero_wf, !. State.linksOff_kept]

theorem State.endUpdate_kept (s : State) (state : Nat) (failure : Nat) : Kept s (State.endUpdate s state failure)
    := by
  grind [State.endUpdate, Kept, !. State.odSet_kept]

theorem State.beginUpdate_kept (s : State) : Kept s (State.beginUpdate s) := by
  grind [State.beginUpdate, Sound, State.rising, srising_sput, srising_smod, srising_sclear, Flash.ok,
      Flash.setSlot, Kept, !. State.endUpdate_kept, !. State.readStaging_kept]

theorem execFirmwareProgram_kept (via : Path) (s : State) : ∀ nx, execFirmwareProgram via s = .next nx → Kept s nx
    := by
  grind [execFirmwareProgram, Kept, !. State.command_kept, !. State.beginUpdate_kept]

theorem execFirmwareProgramComplete_kept (flash : FlashOutcome) (s : State) : ∀ nx, execFirmwareProgramComplete
    flash s = .next nx → Kept s nx := by
  have e : ∀ (m : Nat) (b : List Byte), (slotOf m b).state = 1 → m ≤ (slotOf m b).security := by
    intro m b
    simp only [slotOf, imageState]
    grind
  intro w h
  simp only [execFirmwareProgramComplete] at h
  split at h
  · cases h
    exact Kept.rfl s
  · rename_i x b hb
    have e1 := e s.flash.security b
    split at h
    · cases h
      refine Kept.trans ?_ (State.endUpdate_kept ..)
      grind [Kept, Sound, State.rising, srising_sput, srising_smod, srising_sclear, Flash.ok, Flash.setSlot]
    · cases h
      refine Kept.trans ?_ (State.endUpdate_kept ..)
      grind [Kept, Sound, State.rising, srising_sput, srising_smod, srising_sclear, Flash.ok, Flash.setSlot]
    · cases h
      refine Kept.trans ?_ (State.endUpdate_kept ..)
      grind [Kept, Sound, State.rising, srising_sput, srising_smod, srising_sclear, Flash.ok, Flash.setSlot]

theorem execFirmwareRestart_kept (via : Path) (s : State) : ∀ nx, execFirmwareRestart via s = .next nx → Kept s nx
    := by
  grind [execFirmwareRestart, Kept, Sound, State.rising, srising_sput, srising_smod, srising_sclear, Mem.write_wf,
      Mem.zero_wf, !. State.command_kept]

theorem execSupervisorRestartComplete_kept (s : State) : ∀ nx, execSupervisorRestartComplete s = .next nx → Kept s
    nx := by
  grind [execSupervisorRestartComplete, Kept, Sound, State.rising, srising_sput, srising_smod, srising_sclear,
      Mem.write_wf, Mem.zero_wf, !. State.enterRecovery_kept, !. State.logEvent_kept]

theorem execRaiseSecurityVersion_kept (via : Path) (s : State) : ∀ nx, execRaiseSecurityVersion via s = .next nx →
    Kept s nx := by
  refine State.command_kept s via _ _ _ _ ?_
  grind [Kept, Sound, State.rising, srising_sput, srising_smod, srising_sclear, Flash.ok, ImageSlot.under]

/-! ### SelfTest.lean -/

theorem State.markPending_kept (s : State) (col : Nat) (tile : Nat) : Kept s (State.markPending s col tile) := by
  simp only [State.markPending]
  split
  · exact Kept.rfl s
  · refine Kept.trans ?_ (foldl_kept _ (fun s f => ?_) _ _)
    · grind [Kept, Sound, State.rising, srising_sput, srising_smod, srising_sclear, List.length_set]
    · split
      · exact State.frameFault_kept ..
      · exact Kept.rfl s

theorem execMarkColumnPending_kept (via : Path) (col : Byte) (s : State) : ∀ nx, execMarkColumnPending via col s =
    .next nx → Kept s nx := by
  grind [execMarkColumnPending, Kept, !. State.command_kept, !. State.odSet_kept, !. State.markPending_kept]

theorem State.markBad_kept (s : State) (t : Nat) : Kept s (State.markBad s t) := by
  grind [State.markBad, Kept, !. State.markPending_kept, !. State.logEvent_kept]

theorem State.failRow_kept (s : State) (t : Nat) (row : Nat) (held : List Byte) (bad : Bool) : Kept s
    (State.failRow s t row held bad) := by
  grind [State.failRow, Kept, !. State.markBad_kept, !. State.logEvent_kept, !. State.writeRow_kept, !.
      State.modTile_kept]

theorem execRowTest_kept (t : Nat) (row : Nat) (fails : Bool) (s : State) : ∀ nx, execRowTest t row fails s =
    .next nx → Kept s nx := by
  refine onTile_kept s t _ ?_
  grind [Kept, !. State.draw_kept, !. State.readRow_kept, !. State.failRow_kept, !. State.count32_kept, !.
      State.logEvent_kept, !. State.writeRow_kept, Sound, State.rising, srising_sput, srising_smod, srising_sclear]

theorem State.restoreBlocks_kept (s : State) (a : Nat) : Kept s (State.restoreBlocks s a) := by
  unfold State.restoreBlocks
  refine foldl_kept _ (fun s x => ?_) _ _
  grind [Kept, !. State.readBlock_kept, !. State.writeBlock_kept]

theorem execPseudoChannelTest_kept (pc : Fin 256) (fails : Bool) (s : State) : ∀ nx, execPseudoChannelTest pc
    fails s = .next nx → Kept s nx := by
  grind (splits := 20) (ematch := 12) [execPseudoChannelTest, Kept, Sound, State.rising, srising_sput,
      srising_smod, srising_sclear, Mem.write_wf, Mem.zero_wf, !. State.restoreBlocks_kept, !. State.beginRetire_kept,
      !. State.count32_kept, !. State.logEvent_kept]

theorem execRunPseudoChannelTests_kept (via : Path) (s : State) : ∀ nx, execRunPseudoChannelTests via s = .next nx
    → Kept s nx := by
  grind [execRunPseudoChannelTests, Kept, Sound, State.rising, srising_sput, srising_smod, srising_sclear,
      Mem.write_wf, Mem.zero_wf, !. State.command_kept]

theorem execFaultLogFlashCopy_kept (s : State) : ∀ nx, execFaultLogFlashCopy s = .next nx → Kept s nx := by
  grind [execFaultLogFlashCopy, Kept, Sound, State.rising, srising_sput, srising_smod, srising_sclear, Flash.ok]

/-! ### Retire.lean -/

theorem remap_swf {α : Type} [DecidableEq α] (d : α) (g : Nat → Option Nat) (m : SMap α) : swf d (remap d g m) =
    true := by
  have key : ∀ (l a : SMap α), swf d a = true →
      swf d (l.foldl (fun a p => match g p.1 with | some k => sput d a k p.2 | none => a) a) = true := by
    intro l
    induction l with
    | nil => exact fun a h => h
    | cons p l ih =>
      intro a h
      refine ih _ ?_
      show swf d (match g p.1 with | some k => sput d a k p.2 | none => a) = true
      cases g p.1 with
      | none => exact h
      | some k => exact swf_sput h ..
  exact key m [] (by simp [swf])

theorem State.moveTiles_kept (s : State) (new : Grid) (h : new.columns.length = s.grid.columns.length) (hw :
    new.width ≤ 48) :
    Kept s (s.moveTiles new) := by
  have k1 : ∀ g, Mem.wf (remap 0 g s.mem) = true := fun g => remap_swf ..
  have k2 : ∀ g, Mem.wf (remap 0 g s.stat) = true := fun g => remap_swf ..
  have k3 : ∀ {α : Type} [DecidableEq α] (d : α) (g : Nat → Option Nat) (m : SMap α), srising (remap d g m) = true
      :=
    fun d g m => swf_rising (remap_swf d g m)
  grind [State.moveTiles, Kept, Sound, State.rising, srising_sput, srising_smod, srising_sclear]

theorem newWidth_le (cs : List ColStatus) (w : Nat) : newWidth cs w ≤ 48 := by
  unfold newWidth
  have h : ∀ v ∈ ([46, 44].filter fun v => decide (v < w) && (List.range 2).all fun h =>
    decide (v / 2 ≤ (enabledIn cs h).length)), v ≤ 48 := by
    intro v hv
    have := (List.mem_filter.mp hv).1
    simp at this
    omega
  generalize ([46, 44].filter fun v => decide (v < w) && (List.range 2).all fun h =>
    decide (v / 2 ≤ (enabledIn cs h).length)) = l at h
  cases l with
  | nil => simp
  | cons v l => simpa using h v (by simp)

theorem Grid.retire_columns (g : Grid) : g.retire.columns.length = g.columns.length := by
  simp [Grid.retire, narrowTo]

theorem Grid.retire_width (g : Grid) : g.retire.width ≤ 48 := newWidth_le ..

theorem State.applyRetirements_kept (s : State) : Kept s (State.applyRetirements s) := by
  simp only [State.applyRetirements]
  split
  · exact Kept.rfl s
  · refine Kept.trans ?_ (foldl_kept _ (fun s c => State.logEvent_kept ..) _ _)
    exact Kept.trans (State.moveTiles_kept _ _ (Grid.retire_columns _) (Grid.retire_width _)) (State.odAdd_kept ..)

theorem execApplyRetirements_kept (via : Path) (s : State) : ∀ nx, execApplyRetirements via s = .next nx → Kept s
    nx := by
  grind [execApplyRetirements, Kept, !. State.command_kept, !. State.applyRetirements_kept]

/-! ### Boot.lean -/

theorem State.cleared_kept (s : State) (powerUp : Bool) : Kept s (State.cleared s powerUp) := by
  have k1 : ∀ (m : Mem) (f : Nat × Byte → Bool), m.wf = true → Mem.wf (m.filter f) = true := fun m f h =>
      swf_filter h _
  have k2 : s.tornFlash.ok = s.flash.ok ∧ s.tornFlash.log = s.flash.log := by grind [State.tornFlash, Flash.ok]
  have k3 : Mem.wf ([] : Mem) = true := rfl
  have k4 : ∀ {α : Type} [DecidableEq α] (d : α) (f : α → α) (m : SMap α), srising m = true → srising (mapSparse d
      f m) = true :=
    fun d f m h => srising_filterMap h _ fun p q e => by grind
  have k5 : srising (s.keptOd powerUp) = true := by
    have h : ∀ ks, srising (keepScalars s.od ks) = true := fun ks =>
      foldl_rel (fun m : SMap (Option Nat) => srising m = true) _ (fun m k h => srising_sput h ..) ks [] rfl
    simp only [State.keptOd]
    split
    · exact srising_sput (srising_sput (h _) ..) ..
    · exact h _
  have k6 : ∀ {α : Type}, srising ([] : SMap α) = true := rfl
  grind [State.cleared, State.reset, Kept, Sound, State.rising]

theorem State.powerLoss_kept (s : State) (trip : Option Nat) : Kept s (State.powerLoss s trip) := by
  have k := State.cleared_kept s true
  have k3 : Mem.wf ([] : Mem) = true := rfl
  grind [State.powerLoss, Kept, Sound, State.rising, srising_sput, srising_smod, srising_sclear]

theorem execBrownOut_kept (s : State) : ∀ nx, execBrownOut s = .next nx → Kept s nx := by
  grind [execBrownOut, Kept, !. State.powerLoss_kept]

theorem execInputOutOfLimits_kept (mv : Nat) (s : State) : ∀ nx, execInputOutOfLimits mv s = .next nx → Kept s nx
    := by
  have k (f : PowerState → PowerState) := Kept.trans (State.modPower_kept s f) (State.powerLoss_kept _ none)
  intro nx h
  simp only [execInputOutOfLimits] at h
  split at h
  · grind [Kept]
  · split at h
    · injection h with h
      exact h ▸ k _
    · grind [Kept, !. State.logEvent_kept, !. State.modPower_kept]

theorem execHardwareTrip_kept (_sensor : Fin 16) (temp : Int) (s : State) : ∀ nx, execHardwareTrip _sensor temp s
    = .next nx → Kept s nx := by
  grind [execHardwareTrip, Kept, !. State.powerLoss_kept]

theorem State.bootStraps_kept (s : State) (b : BootInputs) : Kept s (State.bootStraps s b) := by
  have k (c : ClockState) : Kept s { s with clock := c } := by grind [Kept, Sound, State.rising]
  exact Kept.trans (k _) (State.odSet_kept ..)

theorem State.bootClock_kept (s : State) (b : BootInputs) : Kept s (State.bootClock s b) := by
  grind [State.bootClock, Kept, Sound, State.rising, srising_sput, srising_smod, srising_sclear, Mem.write_wf,
      Mem.zero_wf, !. State.fixCanClock_kept, !. State.failOver_kept]

theorem State.bootStacks_kept (s : State) (b : BootInputs) : Kept s (State.bootStacks s b) := by
  simp only [State.bootStacks]
  refine Kept.trans (Kept.trans (foldl_kept _ (fun s k => ?_) _ _) (foldl_kept _ (fun s k => ?_) _ _)) (foldl_kept
      _ (fun s k => ?_) _ _)
  · exact Kept.trans (foldl_kept _ (fun s k => State.modPc_kept ..) _ _) (State.logEvent_kept ..)
  · split
    · exact State.retirePc_kept ..
    · exact Kept.rfl s
  · split
    · exact State.modPc_kept ..
    · exact Kept.rfl s

theorem State.failTile_kept (s : State) (t kind : Nat) : Kept s (State.failTile s t kind) := by
  grind [State.failTile, Kept, !. State.logEvent_kept, !. State.markBad_kept]

theorem State.bootRow_kept (s : State) (t row : Nat) : Kept s (State.bootRow s t row) := by
  grind [State.bootRow, Kept, !. State.failTile_kept, !. State.failRow_kept]

theorem State.bootTest_kept (s : State) (b : BootInputs) : Kept s (State.bootTest s b) := by
  unfold State.bootTest
  extract_lets r s1 failed known found s2 s3 s4 s5
  have kr : Kept s r.2 := foldl_rel (fun x : List Nat × State => Kept s x.2) _
    (fun x p h => Kept.trans h (State.bootRow_kept ..)) b.rowFailures ([], s) (Kept.rfl s)
  have k1 : Kept r.2 s1 := foldl_kept _ (fun s p => State.failTile_kept ..) _ _
  have k2 : Kept s1 s2 := Kept.ite (Kept.rfl _) (State.logEvent_kept ..)
  exact Kept.trans (Kept.trans (Kept.trans kr k1) k2) (Kept.trans (Kept.trans (Kept.trans (Kept.trans
    (State.odSet_kept ..) (State.odSet_kept ..)) (State.odSet_kept ..)) (State.odSet_kept ..))
    (State.applyRetirements_kept ..))

theorem State.bootTimes_kept (s : State) (b : BootInputs) (powerUp : Bool) : Kept s (State.bootTimes s b powerUp)
    := by
  unfold State.bootTimes
  refine foldl_kept _ (fun s x => ?_) _ _
  grind [Kept, !. State.odSet_kept]

theorem State.bootServe_kept (s : State) (b : BootInputs) : Kept s (State.bootServe s b) := by
  grind [State.bootServe, Kept, Sound, State.rising, srising_sput, srising_smod, srising_sclear, Mem.write_wf,
      Mem.zero_wf, !. State.sendHeartbeat_kept]

theorem State.bootHost_kept (s before : State) (b : BootInputs) (powerUp : Bool) : Kept s (State.bootHost s before b
    powerUp) := by
  grind [State.bootHost, Kept, Sound, State.rising, srising_sput, srising_smod, srising_sclear, Mem.write_wf,
      Mem.zero_wf, !. State.setPerst_kept, !. State.flushVectors_kept]

theorem State.bootCause_kept (s : State) (cause : Nat) (powerUp : Bool) : Kept s (State.bootCause s cause powerUp) := by
  grind [State.bootCause, Kept, !. State.odSet_kept, !. State.count32_kept]

theorem State.bootRun_kept (s : State) (b : BootInputs) (image : Bool) (fell : Bool) (powerUp : Bool) :
    Kept s (State.bootRun s b image fell powerUp) := by
  grind [State.bootRun, Kept, Sound, State.rising, srising_sput, srising_smod, srising_sclear, Mem.write_wf,
      Mem.zero_wf, !. State.loadSaved_kept, !. State.bootTimes_kept, !. State.odSet_kept, !. State.count32_kept, !.
      State.logEvent_kept, !. State.bootTest_kept, !. State.bootStacks_kept, !. State.bootClock_kept]

theorem State.logTrip_kept (s : State) : Kept s (State.logTrip s) := by
  grind [State.logTrip, Kept, !. State.modPower_kept, !. State.logEvent_kept]

theorem State.deviceReset_kept (s : State) (b : BootInputs) (cause : Nat) (powerUp : Bool) : Kept s (State.deviceReset
    s b cause powerUp) := by
  simp only [State.deviceReset]
  have k := State.cleared_kept s powerUp
  generalize s.cleared powerUp = t at *
  have k2 : Kept s { t with
      host := if powerUp then {} else t.host
      jtag := if powerUp then {} else t.jtag
      power := { t.power with input := b.inputMillivolts }
      flash := if powerUp then { t.flash with powerUps := satAdd 32 t.flash.powerUps 1 } else t.flash } := by
    cases powerUp <;> grind [Kept, Sound, State.rising, Flash.ok]
  have k3 := Kept.trans (Kept.trans k2 (State.bootStraps_kept _ b)) (State.bootCause_kept _ cause powerUp)
  split
  · exact Kept.trans k3 (Kept.trans (State.enterRecovery_kept ..) (State.bootHost_kept ..))
  · exact Kept.trans k3 (Kept.trans (Kept.trans (Kept.trans (State.bootRun_kept ..) (State.bootServe_kept ..))
      (State.logTrip_kept ..)) (State.bootHost_kept ..))

theorem State.coldStart_kept (s : State) (b : BootInputs) : Kept s (State.coldStart s b) := by
  grind [State.coldStart, Kept, !. State.deviceReset_kept, !. State.powerLoss_kept]

theorem execPowerUp_kept (b : BootInputs) (s : State) : ∀ nx, execPowerUp b s = .next nx → Kept s nx := by
  grind [execPowerUp, Kept, !. State.coldStart_kept]

theorem execModReset_kept (b : BootInputs) (s : State) : ∀ nx, execModReset b s = .next nx → Kept s nx := by
  grind [execModReset, Kept, !. State.deviceReset_kept, !. State.coldStart_kept]

theorem execResetNode_kept (node : BitVec 7) (b : BootInputs) (s : State) : ∀ nx, execResetNode node b s = .next nx →
    Kept s nx := by
  grind [execResetNode, Kept, !. State.resetCommunication_kept, !. State.deviceReset_kept]

theorem execRecoveryImageLoad_kept (b : BootInputs) (s : State) : ∀ nx, execRecoveryImageLoad b s = .next nx →
    Kept s nx := by
  intro w h
  have k1 := fun (s : State) a n => State.readStaging_kept s a n
  have e : ∀ (m : Nat) (b : List Byte), (slotOf m b).state = 1 → m ≤ (slotOf m b).security := by
    intro m b
    simp only [slotOf, imageState]
    grind
  simp only [execRecoveryImageLoad] at h
  split at h
  · cases h
    exact Kept.rfl s
  · split at h
    · cases h
      exact Kept.trans (Kept.trans (k1 ..) (k1 ..)) (State.ringHost_kept ..)
    · cases h
      refine Kept.trans ?_ (State.deviceReset_kept ..)
      refine Kept.trans (Kept.trans (k1 s stagingBase 256) (k1 _ stagingBase (256 + min (sliceNat (s.readStaging
          stagingBase 256).1.data 12 4) 12582912))) ?_
      have e1 := fun b => e ((s.readStaging stagingBase 256).2.readStaging stagingBase
        (256 + min (sliceNat (s.readStaging stagingBase 256).1.data 12 4) 12582912)).2.flash.security b
      generalize ((s.readStaging stagingBase 256).2.readStaging stagingBase
        (256 + min (sliceNat (s.readStaging stagingBase 256).1.data 12 4) 12582912)) = r at *
      grind [Kept, Sound, State.rising, srising_sput, srising_smod, srising_sclear, Flash.ok, Flash.setSlot, !.
      State.readStaging_kept, !. State.ringHost_kept, !. State.deviceReset_kept]

end Sys2Proof.Machine
end

