-- ==== Sys2Proof/Laws/KeptCommands.lean ====
section
/-! SUPPORT. KeptCommands: every operation of the model leaves the queue of waiting commands alone and keeps a sound
state sound; here the instructions of the tile core, the exchange, the frames and the service of the dictionary. One
lemma per operation. -/

namespace Sys2Proof.Machine

/-! ### CoreAlu.lean -/

theorem aluR_kept (s : State) (t : Nat) (i : Instr) (rd ra rb : Reg) (op : W64 → W64 → W64) :
    ∀ u, aluR s t i rd ra rb op = .next u → Kept s u :=
  runCore_kept s t i _ fun _ _ _ => State.retire_kept ..

theorem aluI_kept (s : State) (t : Nat) (i : Instr) (rd ra : Reg) (op : W64 → W64) :
    ∀ u, aluI s t i rd ra op = .next u → Kept s u :=
  runCore_kept s t i _ fun _ _ _ => State.retire_kept ..

theorem aluFlags_kept (s : State) (t : Nat) (i : Instr) (flags : State → Flags) :
    ∀ u, aluFlags s t i flags = .next u → Kept s u :=
  runCore_kept s t i _ fun _ _ _ => State.modCore_kept ..

theorem execAdd_kept (t : Nat) (rd ra rb : Reg) (s : State) : ∀ nx, execAdd t rd ra rb s = .next nx → Kept s nx := by
  grind [execAdd, Kept, !. aluR_kept]

theorem execSub_kept (t : Nat) (rd ra rb : Reg) (s : State) : ∀ nx, execSub t rd ra rb s = .next nx → Kept s nx := by
  grind [execSub, Kept, !. aluR_kept]

theorem execAndR_kept (t : Nat) (rd ra rb : Reg) (s : State) : ∀ nx, execAndR t rd ra rb s = .next nx → Kept s nx :=
    by
  grind [execAndR, Kept, !. aluR_kept]

theorem execOrR_kept (t : Nat) (rd ra rb : Reg) (s : State) : ∀ nx, execOrR t rd ra rb s = .next nx → Kept s nx := by
  grind [execOrR, Kept, !. aluR_kept]

theorem execXorR_kept (t : Nat) (rd ra rb : Reg) (s : State) : ∀ nx, execXorR t rd ra rb s = .next nx → Kept s nx :=
    by
  grind [execXorR, Kept, !. aluR_kept]

theorem execShl_kept (t : Nat) (rd ra rb : Reg) (s : State) : ∀ nx, execShl t rd ra rb s = .next nx → Kept s nx := by
  grind [execShl, Kept, !. aluR_kept]

theorem execShr_kept (t : Nat) (rd ra rb : Reg) (s : State) : ∀ nx, execShr t rd ra rb s = .next nx → Kept s nx := by
  grind [execShr, Kept, !. aluR_kept]

theorem execSar_kept (t : Nat) (rd ra rb : Reg) (s : State) : ∀ nx, execSar t rd ra rb s = .next nx → Kept s nx := by
  grind [execSar, Kept, !. aluR_kept]

theorem execMul_kept (t : Nat) (rd ra rb : Reg) (s : State) : ∀ nx, execMul t rd ra rb s = .next nx → Kept s nx := by
  grind [execMul, Kept, !. aluR_kept]

theorem execMulhu_kept (t : Nat) (rd ra rb : Reg) (s : State) : ∀ nx, execMulhu t rd ra rb s = .next nx → Kept s nx :=
    by
  grind [execMulhu, Kept, !. aluR_kept]

theorem execMulhs_kept (t : Nat) (rd ra rb : Reg) (s : State) : ∀ nx, execMulhs t rd ra rb s = .next nx → Kept s nx :=
    by
  grind [execMulhs, Kept, !. aluR_kept]

theorem execMinS_kept (t : Nat) (rd ra rb : Reg) (s : State) : ∀ nx, execMinS t rd ra rb s = .next nx → Kept s nx :=
    by
  grind [execMinS, Kept, !. aluR_kept]

theorem execMinU_kept (t : Nat) (rd ra rb : Reg) (s : State) : ∀ nx, execMinU t rd ra rb s = .next nx → Kept s nx :=
    by
  grind [execMinU, Kept, !. aluR_kept]

theorem execMaxS_kept (t : Nat) (rd ra rb : Reg) (s : State) : ∀ nx, execMaxS t rd ra rb s = .next nx → Kept s nx :=
    by
  grind [execMaxS, Kept, !. aluR_kept]

theorem execMaxU_kept (t : Nat) (rd ra rb : Reg) (s : State) : ∀ nx, execMaxU t rd ra rb s = .next nx → Kept s nx :=
    by
  grind [execMaxU, Kept, !. aluR_kept]

theorem execAddi_kept (t : Nat) (rd ra : Reg) (imm : W16) (s : State) : ∀ nx, execAddi t rd ra imm s = .next nx → Kept
    s nx := by
  grind [execAddi, Kept, !. aluI_kept]

theorem execAndi_kept (t : Nat) (rd ra : Reg) (imm : W16) (s : State) : ∀ nx, execAndi t rd ra imm s = .next nx → Kept
    s nx := by
  grind [execAndi, Kept, !. aluI_kept]

theorem execOri_kept (t : Nat) (rd ra : Reg) (imm : W16) (s : State) : ∀ nx, execOri t rd ra imm s = .next nx → Kept s
    nx := by
  grind [execOri, Kept, !. aluI_kept]

theorem execXori_kept (t : Nat) (rd ra : Reg) (imm : W16) (s : State) : ∀ nx, execXori t rd ra imm s = .next nx → Kept
    s nx := by
  grind [execXori, Kept, !. aluI_kept]

theorem execShi_kept (t : Nat) (rd ra : Reg) (op : ShiftOp) (amount : BitVec 6) (s : State) : ∀ nx, execShi t rd ra op
    amount s = .next nx → Kept s nx := by
  grind [execShi, Kept, !. aluI_kept]

theorem execCmp_kept (t : Nat) (ra rb : Reg) (s : State) : ∀ nx, execCmp t ra rb s = .next nx → Kept s nx := by
  grind [execCmp, Kept, !. aluFlags_kept]

theorem execCmpi_kept (t : Nat) (ra : Reg) (imm : W16) (s : State) : ∀ nx, execCmpi t ra imm s = .next nx → Kept s nx
    := by
  grind [execCmpi, Kept, !. aluFlags_kept]

theorem execTst_kept (t : Nat) (ra rb : Reg) (s : State) : ∀ nx, execTst t ra rb s = .next nx → Kept s nx := by
  grind [execTst, Kept, !. aluFlags_kept]

theorem execMovi_kept (t : Nat) (rd : Reg) (imm : W16) (s : State) : ∀ nx, execMovi t rd imm s = .next nx → Kept s nx
    := by
  grind [execMovi, Kept, !. aluI_kept]

theorem execMovk_kept (t : Nat) (rd : Reg) (hw : Fin 4) (imm : W16) (s : State) : ∀ nx, execMovk t rd hw imm s =
    .next nx → Kept s nx := by
  grind [execMovk, Kept, !. runCore_kept, !. State.retire_kept]

/-! ### CoreFlow.lean -/

theorem execLdb_kept (t : Nat) (rd : Reg) (ra : Reg) (imm : W16) (s : State) : ∀ nx, execLdb t rd ra imm s = .next
    nx → Kept s nx := by
  grind [execLdb, Kept, !. runCore_kept, !. State.load_kept]

theorem execLdbu_kept (t : Nat) (rd : Reg) (ra : Reg) (imm : W16) (s : State) : ∀ nx, execLdbu t rd ra imm s =
    .next nx → Kept s nx := by
  grind [execLdbu, Kept, !. runCore_kept, !. State.load_kept]

theorem execLdh_kept (t : Nat) (rd : Reg) (ra : Reg) (imm : W16) (s : State) : ∀ nx, execLdh t rd ra imm s = .next
    nx → Kept s nx := by
  grind [execLdh, Kept, !. runCore_kept, !. State.load_kept]

theorem execLdhu_kept (t : Nat) (rd : Reg) (ra : Reg) (imm : W16) (s : State) : ∀ nx, execLdhu t rd ra imm s =
    .next nx → Kept s nx := by
  grind [execLdhu, Kept, !. runCore_kept, !. State.load_kept]

theorem execLdw_kept (t : Nat) (rd : Reg) (ra : Reg) (imm : W16) (s : State) : ∀ nx, execLdw t rd ra imm s = .next
    nx → Kept s nx := by
  grind [execLdw, Kept, !. runCore_kept, !. State.load_kept]

theorem execLdwu_kept (t : Nat) (rd : Reg) (ra : Reg) (imm : W16) (s : State) : ∀ nx, execLdwu t rd ra imm s =
    .next nx → Kept s nx := by
  grind [execLdwu, Kept, !. runCore_kept, !. State.load_kept]

theorem execLdd_kept (t : Nat) (rd : Reg) (ra : Reg) (imm : W16) (s : State) : ∀ nx, execLdd t rd ra imm s = .next
    nx → Kept s nx := by
  grind [execLdd, Kept, !. runCore_kept, !. State.load_kept]

theorem execStb_kept (t : Nat) (rs : Reg) (ra : Reg) (imm : W16) (s : State) : ∀ nx, execStb t rs ra imm s = .next
    nx → Kept s nx := by
  grind [execStb, Kept, !. runCore_kept, !. State.store_kept]

theorem execSth_kept (t : Nat) (rs : Reg) (ra : Reg) (imm : W16) (s : State) : ∀ nx, execSth t rs ra imm s = .next
    nx → Kept s nx := by
  grind [execSth, Kept, !. runCore_kept, !. State.store_kept]

theorem execStw_kept (t : Nat) (rs : Reg) (ra : Reg) (imm : W16) (s : State) : ∀ nx, execStw t rs ra imm s = .next
    nx → Kept s nx := by
  grind [execStw, Kept, !. runCore_kept, !. State.store_kept]

theorem execStd_kept (t : Nat) (rs : Reg) (ra : Reg) (imm : W16) (s : State) : ∀ nx, execStd t rs ra imm s = .next
    nx → Kept s nx := by
  grind [execStd, Kept, !. runCore_kept, !. State.store_kept]

theorem execBCond_kept (t : Nat) (c : Fin 15) (off : BitVec 22) (s : State) : ∀ nx, execBCond t c off s = .next nx
    → Kept s nx := by
  grind [execBCond, Kept, !. runCore_kept, !. State.jumpTo_kept, !. State.retireNone_kept]

theorem execJump_kept (t : Nat) (off : BitVec 26) (s : State) : ∀ nx, execJump t off s = .next nx → Kept s nx := by
  grind [execJump, Kept, !. runCore_kept, !. State.jumpTo_kept]

theorem execJal_kept (t : Nat) (off : BitVec 26) (s : State) : ∀ nx, execJal t off s = .next nx → Kept s nx := by
  grind [execJal, Kept, !. runCore_kept, !. State.jumpTo_kept, !. State.modCore_kept]

theorem execJalr_kept (t : Nat) (rd : Reg) (ra : Reg) (s : State) : ∀ nx, execJalr t rd ra s = .next nx → Kept s
    nx := by
  grind [execJalr, Kept, !. runCore_kept, !. State.jumpTo_kept, !. State.modCore_kept]

/-! ### EngineIssue.lean -/

theorem issueCore_kept (s : State) (t : Nat) (i : Instr) (eng : Nat) (ra : Reg) (imm : W16) :
    ∀ u, issueCore s t i eng ra imm = .next u → Kept s u :=
  runCore_kept s t i _ fun _ _ _ => State.issue_kept ..

theorem issueNamed_kept (s : State) (t eng op : Nat) (ra : Reg) (imm : W16) :
    ∀ u, issueNamed s t eng op ra imm = .next u → Kept s u :=
  runFetched_kept s t _ _ fun _ _ _ => State.issue_kept ..

theorem execIssueFwd_kept (t : Nat) (ra : Reg) (imm : W16) (s : State) : ∀ nx, execIssueFwd t ra imm s = .next nx →
    Kept s nx := by
  grind [execIssueFwd, Kept, !. issueCore_kept]

theorem execIssueBwd_kept (t : Nat) (ra : Reg) (imm : W16) (s : State) : ∀ nx, execIssueBwd t ra imm s = .next nx →
    Kept s nx := by
  grind [execIssueBwd, Kept, !. issueCore_kept]

theorem execIssueXch_kept (t : Nat) (ra : Reg) (imm : W16) (s : State) : ∀ nx, execIssueXch t ra imm s = .next nx →
    Kept s nx := by
  grind [execIssueXch, Kept, !. issueCore_kept]

theorem execRowMap_kept (t : Nat) (ra : Reg) (imm : W16) (s : State) : ∀ nx, execRowMap t ra imm s = .next nx →
    Kept s nx := by
  grind [execRowMap, Kept, !. issueNamed_kept]

theorem execRowBinary_kept (t : Nat) (ra : Reg) (imm : W16) (s : State) : ∀ nx, execRowBinary t ra imm s = .next
    nx → Kept s nx := by
  grind [execRowBinary, Kept, !. issueNamed_kept]

theorem execRowConvert_kept (t : Nat) (ra : Reg) (imm : W16) (s : State) : ∀ nx, execRowConvert t ra imm s = .next
    nx → Kept s nx := by
  grind [execRowConvert, Kept, !. issueNamed_kept]

theorem execRowReduce_kept (t : Nat) (ra : Reg) (imm : W16) (s : State) : ∀ nx, execRowReduce t ra imm s = .next
    nx → Kept s nx := by
  grind [execRowReduce, Kept, !. issueNamed_kept]

theorem execNormFwd_kept (t : Nat) (ra : Reg) (imm : W16) (s : State) : ∀ nx, execNormFwd t ra imm s = .next nx →
    Kept s nx := by
  grind [execNormFwd, Kept, !. issueNamed_kept]

theorem execNormBwd_kept (t : Nat) (ra : Reg) (imm : W16) (s : State) : ∀ nx, execNormBwd t ra imm s = .next nx →
    Kept s nx := by
  grind [execNormBwd, Kept, !. issueNamed_kept]

theorem execSoftmaxFwd_kept (t : Nat) (ra : Reg) (imm : W16) (s : State) : ∀ nx, execSoftmaxFwd t ra imm s = .next
    nx → Kept s nx := by
  grind [execSoftmaxFwd, Kept, !. issueNamed_kept]

theorem execSoftmaxBwd_kept (t : Nat) (ra : Reg) (imm : W16) (s : State) : ∀ nx, execSoftmaxBwd t ra imm s = .next
    nx → Kept s nx := by
  grind [execSoftmaxBwd, Kept, !. issueNamed_kept]

theorem execAttnProb_kept (t : Nat) (ra : Reg) (imm : W16) (s : State) : ∀ nx, execAttnProb t ra imm s = .next nx
    → Kept s nx := by
  grind [execAttnProb, Kept, !. issueNamed_kept]

theorem execAttnDs_kept (t : Nat) (ra : Reg) (imm : W16) (s : State) : ∀ nx, execAttnDs t ra imm s = .next nx →
    Kept s nx := by
  grind [execAttnDs, Kept, !. issueNamed_kept]

theorem execActBwd_kept (t : Nat) (ra : Reg) (imm : W16) (s : State) : ∀ nx, execActBwd t ra imm s = .next nx →
    Kept s nx := by
  grind [execActBwd, Kept, !. issueNamed_kept]

theorem execDropout_kept (t : Nat) (ra : Reg) (imm : W16) (s : State) : ∀ nx, execDropout t ra imm s = .next nx →
    Kept s nx := by
  grind [execDropout, Kept, !. issueNamed_kept]

theorem execDmaMove_kept (t : Nat) (ra : Reg) (imm : W16) (s : State) : ∀ nx, execDmaMove t ra imm s = .next nx →
    Kept s nx := by
  grind [execDmaMove, Kept, !. issueNamed_kept]

theorem execDmaTranspose_kept (t : Nat) (ra : Reg) (imm : W16) (s : State) : ∀ nx, execDmaTranspose t ra imm s =
    .next nx → Kept s nx := by
  grind [execDmaTranspose, Kept, !. issueNamed_kept]

theorem execDmaStagedRead_kept (t : Nat) (ra : Reg) (imm : W16) (s : State) : ∀ nx, execDmaStagedRead t ra imm s =
    .next nx → Kept s nx := by
  grind [execDmaStagedRead, Kept, !. issueNamed_kept]

theorem execDmaStagedWrite_kept (t : Nat) (ra : Reg) (imm : W16) (s : State) : ∀ nx, execDmaStagedWrite t ra imm s
    = .next nx → Kept s nx := by
  grind [execDmaStagedWrite, Kept, !. issueNamed_kept]

theorem execDmaLinkWrite_kept (t : Nat) (ra : Reg) (imm : W16) (s : State) : ∀ nx, execDmaLinkWrite t ra imm s =
    .next nx → Kept s nx := by
  grind [execDmaLinkWrite, Kept, !. issueNamed_kept]

theorem execDmaZero_kept (t : Nat) (ra : Reg) (imm : W16) (s : State) : ∀ nx, execDmaZero t ra imm s = .next nx →
    Kept s nx := by
  grind [execDmaZero, Kept, !. issueNamed_kept]

/-! ### Exchange.lean -/

theorem State.modXch_kept (s : State) (t : Nat) (g : Exchange → Exchange) : Kept s (State.modXch s t g) := by
  grind [State.modXch, Kept, !. State.modTile_kept]

theorem State.xchRead_kept (s : State) (t : Nat) (f : Fin 8) (reg : Nat) (row : Nat) : Kept s (State.xchRead s t f
    reg row) := by
  grind [State.xchRead, Kept, !. State.engineRow_kept, !. State.modXch_kept, !. State.xchRefused_kept]

theorem State.xchWrite_kept (s : State) (t : Nat) (f : Fin 8) (reg : Nat) (row : Nat) : Kept s (State.xchWrite s t
    f reg row) := by
  grind [State.xchWrite, Kept, !. State.engineWrite_kept, !. State.xchRefused_kept]

theorem State.xchAccess_kept (s : State) (t : Nat) (f : Fin 8) (e : Nat) (fetched : Option Nat) : Kept s
    (State.xchAccess s t f e fetched) := by
  grind [State.xchAccess, Kept, !. State.xchRead_kept, !. State.xchWrite_kept, !. State.collide_kept]

theorem State.countLosses_kept (s : State) (t : Nat) (e : Nat) : Kept s (State.countLosses s t e) := by
  exact State.modXch_kept ..

theorem XchTurn.drive_kept (a : XchTurn) (f : Fin 8) (t p : Nat) (w : List Byte) : Kept a.s (a.drive f t p w).s :=
    by
  grind [XchTurn.drive, Kept, !. State.modTile_kept]

theorem State.gather_kept (s : State) (t : Nat) (e : Nat) (i : Nat) : Kept s (State.gather s t e i) := by
  unfold State.gather
  refine foldl_kept _ (fun s x => ?_) _ _
  grind [Kept, !. State.modXch_kept]

theorem XchTurn.pop_kept (a : XchTurn) (t e : Nat) : Kept a.s (a.pop t e).s := by
  grind [XchTurn.pop, Kept, !. State.modTile_kept]

theorem State.xchFetch_kept (s : State) (t : Nat) (f : Fin 8) (l : LaidTable) (index : Option Nat) : Kept s
    (State.xchFetch s t f l index) := by
  cases index with
  | none => exact Kept.rfl s
  | some i => exact Kept.trans (State.fetchTableRow_kept s t f l i) (State.modXch_kept ..)

theorem State.signalTable_kept (s : State) (t : Nat) : Kept s (State.signalTable s t) := by
  grind [State.signalTable, Kept, !. State.signal_kept, !. State.modXch_kept]

theorem State.tableEnds_kept (s : State) (t : Nat) (f : Fin 8) (l : LaidTable) : Kept s (State.tableEnds s t f l) :=
    by
  grind [State.tableEnds, Kept, !. State.signalTable_kept, !. State.modXch_kept, !. State.modTile_kept, !.
      State.firstArrives_kept]

theorem State.xchNext_kept (s : State) (t : Nat) (f : Fin 8) (l : LaidTable) (e : Nat) : Kept s (State.xchNext s t
    f l e) := by
  grind [State.xchNext, Kept, !. State.modXch_kept, !. State.tableEnds_kept]

theorem XchTurn.entry_kept (a : XchTurn) (f : Fin 8) (t : Nat) (l : LaidTable) : Kept a.s (a.entry f t l).s := by
  unfold XchTurn.entry
  extract_lets x e i outs due s1 s2 s3 a1 a2 s4
  have k1 : Kept a.s s1 := State.xchFetch_kept ..
  have k2 : Kept s1 s2 := Kept.ite (State.xchAccess_kept ..) (Kept.rfl _)
  have k3 : Kept s2 s3 := Kept.trans (State.countLosses_kept ..) (State.gather_kept ..)
  have k4 : Kept s3 a1.s := foldl_rel (fun b : XchTurn => Kept s3 b.s) _
    (fun b q h => Kept.trans h (XchTurn.drive_kept ..)) outs _ (Kept.rfl s3)
  have k5 : Kept a1.s a2.s := XchTurn.pop_kept ..
  have k6 : Kept a2.s s4 := State.modXch_kept ..
  exact Kept.trans (Kept.trans (Kept.trans (Kept.trans (Kept.trans (Kept.trans k1 k2) k3) k4) k5) k6)
    (State.xchNext_kept ..)

theorem XchTurn.tile_kept (f : Fin 8) (a : XchTurn) (t : Nat) : Kept a.s (XchTurn.tile f a t).s := by
  simp only [XchTurn.tile]
  split
  · exact Kept.trans (State.modXch_kept ..) (XchTurn.entry_kept ..)
  · exact Kept.trans (State.modXch_kept ..) (State.countLosses_kept ..)

theorem State.xchFaults_kept (s : State) (f : Fin 8) (fs : List (Nat × XchFault)) : Kept s (State.xchFaults s f
    fs) := by
  unfold State.xchFaults
  refine foldl_kept _ (fun s x => ?_) _ _
  grind [Kept, !. State.frameFault_kept, !. State.edgeFault_kept]

theorem State.exchangeCycle_kept (s : State) (f : Fin 8) : Kept s (State.exchangeCycle s f) := by
  simp only [State.exchangeCycle]
  refine Kept.trans (Kept.trans ?_ (State.modTiles_kept ..)) (State.xchFaults_kept ..)
  exact foldl_rel (fun a : XchTurn => Kept s a.s) _ (fun a t h => Kept.trans h (XchTurn.tile_kept f a t)) _ _
      (Kept.rfl s)

theorem execLaidTableEntry_kept (f : Fin 8) (s : State) : ∀ nx, execLaidTableEntry f s = .next nx → Kept s nx := by
  grind [execLaidTableEntry, Kept, !. State.wakeFrame_kept, !. State.exchangeCycle_kept]

/-! ### Sync.lean -/

theorem State.postWatch_kept (s : State) (f : Fin 8) (step : Nat) (t : Nat) : Kept s (State.postWatch s f step t)
    := by
  simp only [State.postWatch]
  split
  · exact Kept.rfl s
  · have k : ∀ (s : State) (p : List WatchPost), Kept s { s with posting := p } := fun s p => by grind [Kept,
      Sound, State.rising, srising_sput, srising_smod, srising_sclear]
    refine Kept.trans ?_ (State.modTile_kept ..)
    refine Kept.trans ?_ (foldl_kept _ (fun s c => State.modSlot_kept ..) _ _)
    refine Kept.trans ?_ (foldl_kept _ (fun s c => State.modSlot_kept ..) _ _)
    exact k ..

theorem State.scanClose_kept (s : State) (f : Fin 8) : Kept s (State.scanClose s f) := by
  grind [State.scanClose, Kept, !. State.modTiles_kept, !. State.odSet_kept, !. State.count32_kept, !.
      State.modFrame_kept]

theorem State.stepAdvance_kept (s : State) (f : Fin 8) : Kept s (State.stepAdvance s f) := by
  simp only [State.stepAdvance]
  exact Kept.trans (Kept.trans (foldl_kept _ (fun s t => State.postWatch_kept ..) _ _) (State.modFrame_kept ..))
    (State.checkEval_kept ..)

theorem State.requestSwitch_kept (s : State) (f : Fin 8) (c : Nat) : Kept s (State.requestSwitch s f c) := by
  grind [State.requestSwitch, Kept, !. State.modFrame_kept, !. State.modTiles_kept]

theorem State.countTurn_kept (s : State) (f : Fin 8) : Kept s (State.countTurn s f) := by
  grind [State.countTurn, Kept, !. State.odAdd_kept]

theorem State.endGuestTurn_kept (s : State) (f : Fin 8) : Kept s (State.endGuestTurn s f) := by
  grind [State.endGuestTurn, Kept, !. State.countTurn_kept, !. State.count32_kept, !. State.odSet_kept, !.
      State.modFrame_kept]

theorem State.switchPoint_kept (s0 : State) (f : Fin 8) : Kept s0 (State.switchPoint s0 f) := by
  grind [State.switchPoint, Kept, !. State.checkEval_kept, !. State.requestSwitch_kept, !.
      State.endGuestTurn_kept, !. State.count32_kept, !. State.modFrame_kept]

theorem State.endSuperstep_kept (s : State) (f : Fin 8) : Kept s (State.endSuperstep s f) := by
  grind [State.endSuperstep, Kept, !. State.modFrame_kept]

theorem State.drainExchange_kept (s : State) (f : Fin 8) : Kept s (State.drainExchange s f) := by
  unfold State.drainExchange
  refine repeat_kept _ (fun s => ?_) 4 s
  split
  · exact State.exchangeCycle_kept ..
  · exact Kept.rfl s

theorem State.release_kept (s : State) (f : Fin 8) : Kept s (State.release s f) := by
  grind [State.release, Kept, !. State.scanClose_kept, !. State.stepAdvance_kept, !. State.modTiles_kept, !.
      State.modFrame_kept, !. State.endSuperstep_kept, !. State.switchPoint_kept]

theorem State.trySync_kept (s0 : State) (f : Fin 8) : Kept s0 (State.trySync s0 f) := by
  grind [State.trySync, Kept, !. State.frameFault_kept, !. State.drainExchange_kept, !. State.release_kept]

theorem execSyncRelease_kept (f : Fin 8) (s : State) : ∀ nx, execSyncRelease f s = .next nx → Kept s nx := by
  grind [execSyncRelease, Kept, !. State.trySync_kept]

theorem execSyncWatchdogExpiry_kept (f : Fin 8) (s : State) : ∀ nx, execSyncWatchdogExpiry f s = .next nx → Kept s
    nx := by
  grind [execSyncWatchdogExpiry, Kept, !. State.frameFault_kept]

theorem State.acceptToken_kept (s : State) (f : Fin 8) (job : Nat) (src : Nat) (sfr : Nat) (phase : Nat) : Kept s
    (State.acceptToken s f job src sfr phase) := by
  grind [State.acceptToken, Kept, !. State.count32_kept, !. State.modFrame_kept]

theorem execSyncTokenSend_kept (f : Fin 8) (peer : Fin 32) (s : State) : ∀ nx, execSyncTokenSend f peer s = .next
    nx → Kept s nx := by
  intro w h
  simp only [execSyncTokenSend] at h
  split at h
  · cases h
    exact Kept.rfl s
  · split at h
    · cases h
      exact Kept.rfl s
    · split at h
      · cases h
        exact Kept.rfl s
      · split at h
        · cases h
          exact Kept.trans (State.modFrame_kept ..) (State.acceptToken_kept ..)
        · split at h
          · cases h
            exact State.modFrame_kept ..
          · cases h
            exact Kept.trans (State.modFrame_kept ..) (State.sendTxn_kept ..)

theorem execSyncTokenReceive_kept (k : Fin 24) (x : Txn) (s : State) : ∀ nx, execSyncTokenReceive k x s = .next nx
    → Kept s nx := by
  grind [execSyncTokenReceive, Kept, !. State.acceptToken_kept, !. State.takeTxn_kept]

theorem execExternalSyncRelease_kept (f : Fin 8) (s : State) : ∀ nx, execExternalSyncRelease f s = .next nx → Kept
    s nx := by
  grind [execExternalSyncRelease, Kept, !. State.trySync_kept]

theorem execExternalTimeout_kept (f : Fin 8) (s : State) : ∀ nx, execExternalTimeout f s = .next nx → Kept s nx :=
    by
  grind [execExternalTimeout, Kept, !. State.frameFault_kept]

theorem execXchTableEnd_kept (t : Nat) (s : State) : ∀ nx, execXchTableEnd t s = .next nx → Kept s nx := by
  grind [execXchTableEnd, Kept, !. onRunning_kept, !. State.wake_kept, !. State.signalTable_kept]

theorem execContextSwitch_kept (t : Nat) (s : State) : ∀ nx, execContextSwitch t s = .next nx → Kept s nx := by
  grind [execContextSwitch, Kept, !. onRunning_kept, !. State.modTile_kept]

/-! ### Frames.lean -/

theorem State.readSet_kept (s : State) (a : Nat) : Kept s (State.readSet s a).2 := by
  grind [State.readSet, Kept, !. State.readTable_kept]

theorem State.loadChecks_kept (s : State) (f : Fin 8) (l : Latched) (ref : Nat) : Kept s (State.loadChecks s f l
    ref).2.2 := by
  grind [State.loadChecks, Kept, !. State.readSet_kept]

theorem State.refuseFrame_kept (s : State) (f : Fin 8) (code : Nat) : Kept s (State.refuseFrame s f code).2 := by
  grind [State.refuseFrame, Kept, !. State.odSet_kept]

theorem State.frameCommand_kept (s : State) (via : Path) (f : Fin 8) (v : Nat) (ok : Frame → Bool) (body : State →
    State)
    (h : ∀ s, Kept s (body s)) : ∀ u, s.frameCommand via f v ok body = .next u → Kept s u := by
  refine State.command_kept s via _ _ _ _ ?_
  split
  · exact State.refuseFrame_kept ..
  · split
    · exact State.refuseFrame_kept ..
    · exact Kept.trans (State.odSet_kept ..) (h _)

theorem execLoad_kept (via : Path) (f : Fin 8) (s : State) : ∀ nx, execLoad via f s = .next nx → Kept s nx := by
  grind [execLoad, Kept, !. State.frameCommand_kept, !. State.loadChecks_kept, !. State.odSet_kept, !.
      State.modFrame_kept]

theorem State.fillTile_kept (s : State) (t : Nat) : Kept s (State.fillTile s t) := by
  grind [State.fillTile, Kept, Sound, State.rising, srising_sput, srising_smod, srising_sclear, Mem.write_wf,
      Mem.zero_wf]

theorem State.placeLines_kept (s : State) (t : Nat) (i : TileImage) (b : List Byte) (n : Nat) : Kept s
    (State.placeLines s t i b n) := by
  unfold State.placeLines
  refine foldl_kept _ (fun s x => ?_) _ _
  grind [Kept, Sound, State.rising, srising_sput, srising_smod, srising_sclear, Mem.write_wf]

theorem State.placeSections_kept (s : State) (t : Nat) (i : TileImage) : Kept s (State.placeSections s t i) := by
  simp only [State.placeSections]
  have k : ∀ (s : State) (a : Nat) (b : List Byte), Kept s { s with mem := s.mem.write a b } := fun s a b => by
      grind [Kept, Sound, State.rising, srising_sput, srising_smod, srising_sclear, Mem.write_wf]
  refine Kept.trans (foldl_kept _ (fun s p => k ..) _ _) (foldl_kept _ (fun s p => ?_) _ _)
  exact foldl_kept _ (fun s q => k ..) _ _

theorem State.placeScales_kept (s : State) (f : Fin 8) (t : Nat) : Kept s (State.placeScales s f t) := by
  unfold State.placeScales
  refine foldl_kept _ (fun s x => ?_) _ _
  grind [Kept, !. State.writeScale_kept]

theorem State.placeTile_kept (s : State) (f : Fin 8) (l : Latched) (t : Nat) (i : TileImage) (n : Nat) : Kept s
    (State.placeTile s f l t i n) := by
  grind [State.placeTile, Kept, !. State.modTile_kept, !. State.fillTile_kept, !. State.closeQueues_kept, !.
      State.placeScales_kept, !. State.placeLines_kept, !. State.placeSections_kept]

theorem State.placeFrame_kept (s : State) (f : Fin 8) (l : Latched) (again : Bool) : Kept s
    (State.placeFrame s f l again) := by
  unfold State.placeFrame
  split
  · exact Kept.rfl s
  · exact foldl_kept _ (fun s p => State.placeTile_kept ..) _ _

theorem State.latchScales_kept (s : State) (l : Latched) : Kept s (State.latchScales s l) := by
  have k : ∀ (s : State) (i : Nat) (v : Option Nat), Kept s { s with watch := sput none s.watch i v } :=
    fun s i v => by grind [Kept, Sound, State.rising, srising_sput]
  exact foldl_kept _ (fun s p => Kept.trans (State.setWatch_kept ..) (k ..)) _ _

theorem State.dropLandings_kept (s : State) (f : Fin 8) : Kept s (State.dropLandings s f) := by
  grind [State.dropLandings, Kept, Sound, State.rising, srising_sput, srising_smod, srising_sclear, Mem.write_wf,
      Mem.zero_wf]

theorem State.clearCause_kept (s : State) (f : Fin 8) : Kept s (State.clearCause s f) := by
  grind [State.clearCause, Kept, !. State.odSet_kept]

theorem State.checkPending_kept (s : State) (f : Fin 8) (l : Latched) : Kept s (State.checkPending s f l) := by
  grind [State.checkPending, Kept, !. State.frameFault_kept]

theorem execLoadComplete_kept (f : Fin 8) (s : State) : ∀ nx, execLoadComplete f s = .next nx → Kept s nx := by
  grind [execLoadComplete, Kept, !. State.load_kept, !. State.dropLandings_kept, !. State.setFrame_kept, !.
      State.latchScales_kept, !. State.placeFrame_kept, !. State.clearCause_kept, !. State.odSet_kept, !.
      State.checkPending_kept]

theorem execStart_kept (via : Path) (f : Fin 8) (s : State) : ∀ nx, execStart via f s = .next nx → Kept s nx := by
  grind [execStart, Kept, !. State.frameCommand_kept, !. State.modTiles_kept, !. State.stopIfEnded_kept, !.
      State.modFrame_kept]

theorem execStop_kept (via : Path) (f : Fin 8) (s : State) : ∀ nx, execStop via f s = .next nx → Kept s nx := by
  grind [execStop, Kept, !. State.frameCommand_kept, !. State.modFrame_kept]

theorem execStopTimeout_kept (f : Fin 8) (s : State) : ∀ nx, execStopTimeout f s = .next nx → Kept s nx := by
  grind [execStopTimeout, Kept, !. State.frameFault_kept]

theorem State.closeTileQueues_kept (s : State) (f : Fin 8) : Kept s (State.closeTileQueues s f) :=
  foldl_kept _ (fun s t => State.closeQueues_kept s t) _ s

theorem State.quietFrame_kept (s : State) (f : Fin 8) : Kept s (State.quietFrame s f) := by
  unfold State.quietFrame
  extract_lets s1
  have k1 : Kept s s1 := foldl_kept _ (fun s t => State.modTile_kept ..) _ _
  exact Kept.trans (Kept.trans (Kept.trans k1 (State.dropPosts_kept ..)) (State.abandonLinks_kept ..))
    (State.modFrame_kept ..)

theorem execReset_kept (via : Path) (f : Fin 8) (s : State) : ∀ nx, execReset via f s = .next nx → Kept s nx := by
  grind [execReset, Kept, !. State.frameCommand_kept, !. State.closeTileQueues_kept, !. State.quietFrame_kept, !.
      State.modFrame_kept]

theorem State.reloadSet_kept (s : State) (f : Fin 8) (l : Latched) : Kept s (State.reloadSet s f l).2 := by
  grind [State.reloadSet, Kept, !. State.readSet_kept]

theorem State.restartFrame_kept (s : State) (f : Fin 8) (l : Latched) : Kept s (State.restartFrame s f l) := by
  grind [State.restartFrame, Kept, !. State.countTurn_kept, !. State.reloadSet_kept, !. State.dropLandings_kept, !.
      State.setFrame_kept, !. State.placeFrame_kept]

theorem execResetComplete_kept (f : Fin 8) (s : State) : ∀ nx, execResetComplete f s = .next nx → Kept s nx := by
  grind [execResetComplete, Kept, !. State.checkPending_kept, !. State.clearCause_kept, !. State.restartFrame_kept]

theorem execSelftest_kept (via : Path) (f : Fin 8) (s : State) : ∀ nx, execSelftest via f s = .next nx → Kept s nx
    := by
  grind [execSelftest, Kept, !. State.frameCommand_kept, !. State.modFrame_kept, !.
      State.closeSupervisorQueue_kept, !. State.quietFrame_kept]

theorem State.failRows_kept (s : State) (a : List (Nat × Nat)) : Kept s (State.failRows s a).2 := by
  induction a generalizing s with
  | nil => exact Kept.rfl s
  | cons p rest ih =>
    obtain ⟨t, row⟩ := p
    unfold State.failRows
    split
    · extract_lets d r
      have k1 : Kept s d.2 := State.draw_kept s
      have k2 : Kept d.2 r.2 := State.readRow_kept ..
      exact Kept.trans (Kept.trans (Kept.trans k1 k2) (State.failRow_kept ..)) (ih _)
    · exact ih s

theorem execSelftestComplete_kept (f : Fin 8) (r : SelfTestResult) (s : State) : ∀ nx, execSelftestComplete f r s
    = .next nx → Kept s nx := by
  intro w h
  simp only [execSelftestComplete] at h
  split at h
  · split at h
    · cases h
      exact Kept.trans (Kept.trans (State.failRows_kept ..) (State.restartFrame_kept ..)) (State.checkPending_kept
          ..)
    · cases h
      refine Kept.trans (Kept.trans (State.failRows_kept ..) (State.frameFault_kept ..)) (foldl_kept _ (fun s p =>
          ?_) _ _)
      exact Kept.trans (State.logEvent_kept ..) (State.markBad_kept ..)
  · cases h
    exact Kept.rfl s

theorem execUnload_kept (via : Path) (f : Fin 8) (s : State) : ∀ nx, execUnload via f s = .next nx → Kept s nx := by
  grind [execUnload, Kept, !. State.frameCommand_kept, !. State.closeTileQueues_kept, !. State.quietFrame_kept, !.
      State.closeSupervisorQueue_kept, !. State.countTurn_kept, !. State.modTiles_kept, !. State.modFrame_kept]

/-! ### Jtag.lean -/

theorem execBypass_kept (tdi : Bool) (s : State) : ∀ nx, execBypass tdi s = .next nx → Kept s nx := by
  grind [execBypass, Kept, Sound, State.rising, srising_sput, srising_smod, srising_sclear, Mem.write_wf,
      Mem.zero_wf, !. State.emit_kept]

theorem execIdcode_kept (s : State) : ∀ nx, execIdcode s = .next nx → Kept s nx := by
  grind [execIdcode, Kept, Sound, State.rising, srising_sput, srising_smod, srising_sclear, Mem.write_wf,
      Mem.zero_wf, !. State.emit_kept]

theorem execSamplePreload_kept (preload : Option W64) (s : State) : ∀ nx, execSamplePreload preload s = .next nx →
    Kept s nx := by
  intro w h
  have k : ∀ (s : State) (x : Jtag), Kept s { s with jtag := x } := fun s x => by grind [Kept, Sound,
      State.rising, srising_sput, srising_smod, srising_sclear]
  simp only [execSamplePreload] at h
  split at h
  · cases h
    exact Kept.trans (k ..) (State.emit_kept ..)
  · cases h
    exact k ..

theorem execExtest_kept (s : State) : ∀ nx, execExtest s = .next nx → Kept s nx := by
  grind [execExtest, Kept, Sound, State.rising, srising_sput, srising_smod, srising_sclear, Mem.write_wf,
      Mem.zero_wf, !. State.emit_kept]

/-! ### Monitors.lean -/

theorem State.setPoint_kept (s : State) (i : Nat) (p : MonPoint) : Kept s (State.setPoint s i p) := by
  grind [State.setPoint, Kept, Sound, State.rising, srising_sput, srising_smod, srising_sclear, Mem.write_wf,
      Mem.zero_wf]

theorem execMonitorSample_kept (point : Fin 64) (value : Int) (s : State) : ∀ nx, execMonitorSample point value s
    = .next nx → Kept s nx := by
  grind [execMonitorSample, Kept, !. State.setPoint_kept]

theorem State.monitorCommand_kept (s : State) (via : Path) (v : Nat) (f : MonPoint → MonPoint) : ∀ nx,
    State.monitorCommand s via v f = .next nx → Kept s nx := by
  refine State.command_kept s via _ _ _ _ ?_
  exact Kept.trans (foldl_kept _ (fun s i => State.setPoint_kept ..) _ _) (State.odSet_kept ..)

theorem execMonitorArm_kept (via : Path) (s : State) : ∀ nx, execMonitorArm via s = .next nx → Kept s nx := by
  grind [execMonitorArm, Kept, !. State.monitorCommand_kept]

theorem execMonitorFreeze_kept (via : Path) (s : State) : ∀ nx, execMonitorFreeze via s = .next nx → Kept s nx := by
  grind [execMonitorFreeze, Kept, !. State.monitorCommand_kept]

theorem execMonitorClear_kept (via : Path) (s : State) : ∀ nx, execMonitorClear via s = .next nx → Kept s nx := by
  grind [execMonitorClear, Kept, !. State.monitorCommand_kept]

theorem execMonitorClearAndArm_kept (via : Path) (s : State) : ∀ nx, execMonitorClearAndArm via s = .next nx →
    Kept s nx := by
  grind [execMonitorClearAndArm, Kept, !. State.monitorCommand_kept]

/-! ### DictRead.lean -/

theorem State.watchRegionBad_kept (s : State) : Kept s (State.watchRegionBad s).2 := by
  unfold State.watchRegionBad
  refine foldl_rel (fun a : Bool × State => Kept s a.2) _ (fun a x h => ?_) _ _ (Kept.rfl s)
  exact Kept.trans h (State.readBlock_kept ..)

theorem State.entryValue_kept (s : State) (e : Entry) (i : Nat) (sub : Nat) : Kept s (State.entryValue s e i
    sub).2.2 := by
  grind [State.entryValue, Kept, !. State.watchRegionBad_kept]

theorem State.readEntry_kept (s : State) (via : Path) (i : Nat) (sub : Nat) : Kept s (State.readEntry s via i
    sub).2.2 := by
  grind [State.readEntry, Kept, !. State.count32_kept, !. State.entryValue_kept]

/-! ### Transfers.lean -/

theorem execFlitReceive_kept (k : Fin 24) (flit : List Byte) (s : State) : ∀ nx, execFlitReceive k flit s = .next nx →
    Kept s nx := by
  grind [execFlitReceive, Kept, !. State.count32_kept, !. State.modLink_kept, !. State.noteBurst_kept, !.
      State.count64_kept]

theorem execSidebandReceive_kept (k : Fin 24) (w : W32) (s : State) : ∀ nx, execSidebandReceive k w s = .next nx →
    Kept s nx := by
  grind [execSidebandReceive, Kept, !. State.modLink_kept, !. State.startReplay_kept]

theorem State.sendData_kept (s : State) (k : Fin 24) (slots : List (Nat × Bool × List Byte)) : Kept s
    (State.sendData s k slots) := by
  grind [State.sendData, Kept, !. State.modLink_kept, !. State.sendFlit_kept, !. State.count64_kept]

theorem State.sendNull_kept (s : State) (k : Fin 24) : Kept s (State.sendNull s k) := by
  grind [State.sendNull, Kept, !. State.sendFlit_kept]

theorem execFlitTransmit_kept (k : Fin 24) (s : State) : ∀ nx, execFlitTransmit k s = .next nx → Kept s nx := by
  grind [execFlitTransmit, Kept, !. State.sendNull_kept, !. State.sendFlit_kept, !. State.count64_kept, !.
      State.modLink_kept, !. State.sendData_kept, !. State.setLink_kept]

theorem State.serveWriteTxn_kept (s : State) (x : Txn) : Kept s (State.serveWriteTxn s x).2 := by
  grind [State.serveWriteTxn, Kept, !. State.writeHosted_kept, !. State.writeChecked_kept]

theorem execWrite_kept (k : Fin 24) (x : Txn) (s : State) : ∀ nx, execWrite k x s = .next nx → Kept s nx := by
  grind [execWrite, Kept, !. State.serveWriteTxn_kept, !. State.takeTxn_kept, !. State.ackTxn_kept]

theorem State.serveReadTxn_kept (s : State) (h : BitVec 128) : Kept s (State.serveReadTxn s h).2.2 := by
  grind [State.serveReadTxn, Kept, !. State.readHosted_kept, !. State.readChecked_kept]

theorem execRead_kept (k : Fin 24) (x : Txn) (s : State) : ∀ nx, execRead k x s = .next nx → Kept s nx := by
  grind [execRead, Kept, !. State.serveReadTxn_kept, !. State.takeTxn_kept, !. State.respond_kept]

theorem State.serveResponse_kept (s : State) (k : Fin 24) (x : Txn) : Kept s (State.serveResponse s k x) := by
  grind [State.serveResponse, Kept, !. State.takeTxn_kept, !. State.completeRequest_kept, !. State.freeTag_kept]

theorem execRdata_kept (k : Fin 24) (x : Txn) (s : State) : ∀ nx, execRdata k x s = .next nx → Kept s nx := by
  grind [execRdata, Kept, !. State.serveResponse_kept]

theorem execAck_kept (k : Fin 24) (x : Txn) (s : State) : ∀ nx, execAck k x s = .next nx → Kept s nx := by
  grind [execAck, Kept, !. State.serveResponse_kept]

theorem execMresp_kept (k : Fin 24) (x : Txn) (s : State) : ∀ nx, execMresp k x s = .next nx → Kept s nx := by
  grind [execMresp, Kept, !. State.serveResponse_kept]

theorem execMsg_kept (k : Fin 24) (x : Txn) (s : State) : ∀ nx, execMsg k x s = .next nx → Kept s nx := by
  grind [execMsg, Kept, !. State.takeTxn_kept, !. State.lossReport_kept, !. State.leaseReport_kept, !.
      State.decisionAcked_kept]

theorem execReservedKind_kept (k : Fin 24) (x : Txn) (s : State) : ∀ nx, execReservedKind k x s = .next nx → Kept s nx
    := by
  grind [execReservedKind, Kept, !. State.takeTxnOn_kept, !. State.count32_kept]

theorem State.relay_kept (s : State) (k : Fin 24) (x : Txn) : Kept s (State.relay s k x) := by
  grind [State.relay, Kept, !. State.count32_kept, !. State.refuseTxn_kept, !. State.unroutable_kept, !.
      State.sendTxn_kept, !. State.count64_kept, !. State.crossDie_kept]

theorem execTransactionRelay_kept (k : Fin 24) (x : Txn) (s : State) : ∀ nx, execTransactionRelay k x s = .next nx
    → Kept s nx := by
  grind [execTransactionRelay, Kept, !. State.relay_kept, !. State.takeTxn_kept]

/-! ### Service.lean -/

theorem frameRow_kept (via : Path) (f : Fin 8) (v : Nat) : ∀ g, frameRow via f v = some g → ∀ s u, g s = .next u →
    Kept s u := by
  intro g h s u
  unfold frameRow at h
  split at h
  · cases h
    exact execLoad_kept via f s u
  · cases h
    exact execStart_kept via f s u
  · cases h
    exact execStop_kept via f s u
  · cases h
    exact execReset_kept via f s u
  · cases h
    exact execSelftest_kept via f s u
  · cases h
    exact execUnload_kept via f s u
  · cases h

theorem linkRow_kept (via : Path) (k : Fin 24) (v : Nat) : ∀ g, linkRow via k v = some g → ∀ s u, g s = .next u →
    Kept s u := by
  intro g h s u
  unfold linkRow at h
  split at h
  · cases h
    exact execLinkTrain_kept via k s u
  · cases h
    exact execLinkDisable_kept via k s u
  · cases h
    exact execLinkRetrain_kept via k s u
  · cases h
    exact execLaneTest_kept via k s u
  · cases h

theorem snapshotRow_kept (via : Path) (j : Fin 16) (v : Nat) : ∀ g, snapshotRow via j v = some g → ∀ s u, g s =
    .next u → Kept s u := by
  intro g h s u
  unfold snapshotRow at h
  split at h
  · cases h
    exact execSnapshotTake_kept via j s u
  · cases h
    exact execSnapshotAbort_kept via j s u
  · cases h
    exact execClearPartnerLost_kept via j s u
  · cases h

theorem restoreRow_kept (via : Path) (j : Fin 16) (v : Nat) : ∀ g, restoreRow via j v = some g → ∀ s u, g s =
    .next u → Kept s u := by
  intro g h s u
  unfold restoreRow at h
  split at h
  · cases h
    exact execRestore_kept via j s u
  · cases h
    exact execRestoreAbort_kept via j s u
  · cases h
    exact execTallyReset_kept via j s u
  · cases h
    exact execWeightResend_kept via j s u
  · cases h

theorem monitorRow_kept (via : Path) (v : Nat) : ∀ g, monitorRow via v = some g → ∀ s u, g s = .next u → Kept s u
    := by
  intro g h s u
  unfold monitorRow at h
  split at h
  · cases h
    exact execMonitorArm_kept via s u
  · cases h
    exact execMonitorFreeze_kept via s u
  · cases h
    exact execMonitorClear_kept via s u
  · cases h
    exact execMonitorClearAndArm_kept via s u
  · cases h

theorem firmwareRow_kept (via : Path) (v : Nat) : ∀ g, firmwareRow via v = some g → ∀ s u, g s = .next u → Kept s
    u := by
  intro g h s u
  unfold firmwareRow at h
  split at h
  · cases h
    exact execFirmwareProgram_kept via s u
  · cases h
    exact execFirmwareRestart_kept via s u
  · cases h
    exact execRaiseSecurityVersion_kept via s u
  · cases h

theorem deviceRow_kept (via : Path) (i sub v : Nat) : ∀ g, deviceRow via i sub v = some g → ∀ s u, g s = .next u →
    Kept s u := by
  intro g h s u
  unfold deviceRow at h
  split at h
  · cases h
    exact execErrorHistoryClear_kept _ s u
  · cases h
    exact execStoreParameters_kept _ _ s u
  · cases h
    exact execRestoreDefaults_kept _ _ s u
  · cases h
    exact execApplyRetirements_kept _ s u
  · cases h
    exact execMarkColumnPending_kept _ _ s u
  · cases h
    exact execRetirePseudoChannel_kept _ _ s u
  · cases h
    exact execRunPseudoChannelTests_kept _ s u
  · cases h
    exact execReturnToSource_kept _ s u
  · exact monitorRow_kept _ _ g h s u
  · exact firmwareRow_kept _ _ g h s u
  · cases h

theorem ownRow_kept (via : Path) (i sub v : Nat) : ∀ g, ownRow via i sub v = some g → ∀ s u, g s = .next u → Kept
    s u := by
  intro g h s u
  simp only [ownRow] at h
  split at h
  · exact frameRow_kept _ _ _ g h s u
  · split at h
    · split at h
      · cases h
        exact execScrubStart_kept _ _ s u
      · cases h
        exact execScrubAbort_kept _ _ s u
    · split at h
      · cases h
        exact execRegenerateBucket_kept _ _ _ s u
      · split at h
        · exact linkRow_kept _ _ _ g h s u
        · split at h
          · cases h
            exact execClearRetirements_kept _ _ s u
          · split at h
            · split at h
              · cases h
                exact execMoveStart_kept _ _ s u
              · cases h
                exact execMoveAbort_kept _ _ s u
            · split at h
              · exact snapshotRow_kept _ _ _ g h s u
              · split at h
                · exact restoreRow_kept _ _ _ g h s u
                · exact deviceRow_kept _ _ _ _ g h s u

theorem State.noteWrite_kept (s : State) (i : Nat) (sub : Nat) : Kept s (State.noteWrite s i sub) := by
  grind [State.noteWrite, Kept, Sound, State.rising, srising_sput, srising_smod, srising_sclear, Mem.write_wf,
      Mem.zero_wf, !. State.checkClosed_kept]

theorem State.writeEntry_kept (s : State) (via : Path) (i : Nat) (sub : Nat) (data : List Byte) : Kept s
    (State.writeEntry s via i sub data) := by
  simp only [State.writeEntry]
  have k1 : Kept s (s.serveWrite via i sub data fun s => (0, match findEntry i sub with
      | .ok e => (s.applyWrite e i sub data).noteWrite i sub
      | .error _ => s)) := by
    refine State.serveWrite_kept _ _ _ _ _ _ ?_
    dsimp only
    split
    · exact Kept.trans (State.applyWrite_kept ..) (State.noteWrite_kept ..)
    · exact Kept.rfl s
  split
  · exact k1
  · split
    · rename_i g h
      exact afterwards_kept _ _ fun u => ownRow_kept _ _ _ _ g h s u
    · exact k1

theorem execDictionaryWrite_kept (via : Path) (index : W16) (sub : Byte) (data : List Byte) (s : State) : ∀ nx,
    execDictionaryWrite via index sub data s = .next nx → Kept s nx := by
  grind [execDictionaryWrite, Kept, !. State.writeEntry_kept]

theorem State.writeQueued_kept (s : State) (a : Access) (data : List Byte) : Kept s (State.writeQueued s a data)
    := by
  grind [State.writeQueued, Kept, Sound, State.rising, srising_sput, srising_smod, srising_sclear, Mem.write_wf,
      Mem.zero_wf, !. State.writeEntry_kept, !. State.answerWrite_kept]

theorem State.dropSession_kept (s : State) (who : SessionId) : Kept s (State.dropSession s who) := by
  grind [State.dropSession, Kept, Sound, State.rising, srising_sput, srising_smod, srising_sclear, Mem.write_wf,
      Mem.zero_wf]

theorem State.protocolAbort_kept (s : State) (via : Path) (i : Nat) (sub : Nat) (code : Nat) : Kept s
    (State.protocolAbort s via i sub code) := by
  grind [State.protocolAbort, Kept, !. State.emit_kept, !. State.countAbort_kept]

theorem State.abortSession_kept (s : State) (x : Session) (code : Nat) : Kept s (State.abortSession s x code) := by
  grind [State.abortSession, Kept, !. State.dropSession_kept, !. State.protocolAbort_kept, !. State.sendUsdo_kept]

theorem State.endOlder_kept (s : State) (who : SessionId) : Kept s (State.endOlder s who) := by
  grind [State.endOlder, Kept, !. State.abortSession_kept]

theorem execSessionTimeout_kept (who : SessionId) (s : State) : ∀ nx, execSessionTimeout who s = .next nx → Kept s nx
    := by
  grind [execSessionTimeout, Kept, !. State.abortSession_kept]

theorem State.answerPart_kept (s : State) (via : Path) (client : Nat) (i : Nat) (sub : Nat) (code : Nat) (data :
    List Byte) : Kept s (State.answerPart s via client i sub code data) := by
  unfold State.answerPart
  extract_lets s1
  have k : Kept s s1 := Kept.ite (State.emit_kept ..) (State.protocolAbort_kept ..)
  cases via with
  | pcie => exact k
  | can => exact Kept.trans k (State.sendUsdo_kept ..)
  | uzon src => exact Kept.trans k (State.sendMresp_kept ..)

theorem State.refuseFull_kept (s : State) (a : Access) : Kept s (State.refuseFull s a) := by
  grind [State.refuseFull, Kept, !. State.answerPart_kept]

theorem State.enqueueAccess_kept (s : State) (a : Access) : Kept s (State.enqueueAccess s a) := by
  unfold State.enqueueAccess
  split
  · exact State.enqueueWindow_kept ..
  · split
    · exact State.refuseFull_kept ..
    · exact State.takePlace_kept s a (by simp_all)

theorem State.enqueueNew_kept (s : State) (a : Access) : Kept s (State.enqueueNew s a) := by
  grind [State.enqueueNew, Kept, !. State.refuseFull_kept, !. State.enqueueAccess_kept, !. State.endOlder_kept]

theorem execRequestQueueArrival_kept (a : Access) (s : State) : ∀ nx, execRequestQueueArrival a s = .next nx →
    Kept s nx := by
  grind [execRequestQueueArrival, Kept, !. State.enqueueAccess_kept]

theorem State.openWrite_kept (s : State) (a : Access) (who : SessionId) : Kept s (State.openWrite s a who) := by
  grind [State.openWrite, Kept, Sound, State.rising, srising_sput, srising_smod, srising_sclear, Mem.write_wf,
      Mem.zero_wf, !. State.endOlder_kept, !. State.refuseFull_kept, !. State.answerPart_kept]

theorem State.recapture_kept (s : State) (x : Session) (n : Nat) : Kept s (State.recapture s x n).2.2 := by
  grind [State.recapture, Kept, !. State.entryValue_kept]

theorem State.segment_kept (s : State) (g : Segment) (client : Nat) : Kept s (State.segment s g client) := by
  grind (splits := 20) (ematch := 12) [State.segment, Kept, Sound, State.rising, srising_sput, srising_smod,
      srising_sclear, Mem.write_wf, Mem.zero_wf, !. State.answerPart_kept, !. State.dropSession_kept, !.
      State.refuseFull_kept, !. State.enqueueAccess_kept, !. State.recapture_kept]

theorem execSegmentedTransferSegment_kept (seg : Segment) (s : State) : ∀ nx, execSegmentedTransferSegment seg s =
    .next nx → Kept s nx := by
  grind [execSegmentedTransferSegment, Kept, !. State.segment_kept]

theorem execUsdoRequestReceive_kept (req : UsdoRequest) (s : State) : ∀ nx, execUsdoRequestReceive req s = .next nx →
    Kept s nx := by
  grind [execUsdoRequestReceive, Kept, !. State.command_kept, !. State.enqueueNew_kept, !. State.answerPart_kept]

theorem execMreq_kept (k : Fin 24) (x : Txn) (s : State) : ∀ nx, execMreq k x s = .next nx → Kept s nx := by
  grind [execMreq, Kept, !. State.takeTxn_kept, !. State.openWrite_kept, !. State.enqueueNew_kept, !.
      State.segment_kept]

theorem State.readQueued_kept (s : State) (a : Access) (who : SessionId) : Kept s (State.readQueued s a who) := by
  grind [State.readQueued, Kept, Sound, State.rising, srising_sput, srising_smod, srising_sclear, Mem.write_wf,
      Mem.zero_wf, !. State.served_kept, !. State.sendUsdo_kept, !. State.sendMresp_kept, !. State.readEntry_kept, !.
      State.endOlder_kept, !. State.answerPart_kept]

theorem State.windowInput_kept (s : State) (a : Access) : Kept s (State.windowInput s a).2.2 := by
  grind [State.windowInput, Kept, !. State.readStaging_kept]

theorem State.serveWindow_kept (s : State) (a : Access) : Kept s (State.serveWindow s a) := by
  grind [State.serveWindow, Kept, !. State.windowDone_kept, !. State.served_kept, !. State.windowInput_kept, !.
      State.writeQueued_kept, !. State.readEntry_kept, !. State.windowValue_kept]

theorem State.serveAccess_kept (s : State) (a : Access) : Kept s (State.serveAccess s a) := by
  grind [State.serveAccess, Kept, !. State.serveWindow_kept, !. State.openWrite_kept, !. State.writeQueued_kept, !.
      State.readQueued_kept]

theorem State.serveNext_kept (s : State) : Kept s (State.serveNext s) := by
  grind (splits := 20) (ematch := 12) [State.serveNext, Kept, Sound, State.rising, srising_sput, srising_smod,
      srising_sclear, Mem.write_wf, Mem.zero_wf, !. State.serveAccess_kept]

theorem execDwComplete_kept (s : State) : ∀ nx, execDwComplete s = .next nx → Kept s nx := by
  grind [execDwComplete, Kept, Sound, State.rising, srising_sput, srising_smod, srising_sclear, Mem.write_wf,
      Mem.zero_wf, !. State.serveWindow_kept]

/-! ### Tick.lean -/

theorem State.tickClocks_kept (s : State) : Kept s (State.tickClocks s) := by
  grind [State.tickClocks, Kept, Sound, State.rising, srising_sput, srising_smod, srising_sclear, Mem.write_wf,
      Mem.zero_wf]

theorem tick_kept (s : State) : ∀ nx, tick s = .next nx → Kept s nx := by
  grind [tick, Kept, !. State.tickClocks_kept, !. State.serveNext_kept]

end Sys2Proof.Machine
end

