-- ==== Sys2Proof/WellFormed.lean ====
section
/-! DEFINITION. WellFormed: the commands whose operands name something the L48 can have: a tile of the widest
grid (R4), a local row (R83), a device number (R362), and flits, tuples, packets and transactions of the
sizes the spec gives them (R219, R226, R365, R373). -/

namespace Sys2Proof

/-- A tile ID of the widest grid (R4, R14). -/
def tileOk (t : Nat) : Bool := decide (t < 2304)
/-- A local row address (R83). -/
def rowOk (r : Nat) : Bool := decide (r < 896)
/-- A device number of 12 bits (R376). -/
def deviceOk (d : Nat) : Bool := decide (d < 4096)
/-- A link flit of 128 bytes (R366). -/
def flitOk (f : List Byte) : Bool := decide (f.length = 128)
/-- A tuple of 1–4 words (R226). -/
def wordsOk (w : List W64) : Bool := decide (1 ≤ w.length) && decide (w.length ≤ 4)
/-- A packet of at most 64 data flits, or the 65 of a row write, as many as its header says (R219, R232; log entry
96). -/
def packetOk (p : Packet) : Bool :=
  decide (p.data.length ≤ if p.header.toNat / 2 ^ 18 % 16 = 2 then 65 else 64) &&
    decide (p.data.length = p.header.toNat / 2 ^ 22 % 128)
/-- Rows on which ports met are local rows (R83). -/
def useOk (u : PortUse) : Bool := u.collided.all rowOk
/-- A transaction's payload is as many 16-byte slots as its header says, at most 256 (R373). -/
def txnOk (x : Txn) : Bool :=
  decide (x.payload.length ≤ 4096) && decide (x.payload.length = 16 * (x.header.toNat / 2 ^ 46 % 512))

/-- A well-formed command. -/
def Instr.wellFormed : Instr → Bool
  | .powerUp _ => true
  | .modReset _ => true
  | .brownOut => true
  | .inputOutOfLimits _ => true
  | .inputBackInLimits _ => true
  | .hardwareTrip _ _ => true
  | .recoveryImageLoad _ => true
  | .clockMonitorWindow _ => true
  | .returnToSource _ => true
  | .powerCapAdjust _ => true
  | .fastPathLimit _ => true
  | .thermalAdjust _ _ => true
  | .droopStretch _ _ => true
  | .droopHoldExpiry _ => true
  | .monitorArm _ => true
  | .monitorFreeze _ => true
  | .monitorClear _ => true
  | .monitorClearAndArm _ => true
  | .monitorSample _ _ => true
  | .requestQueueArrival _ => true
  | .dictionaryWrite _ _ _ _ => true
  | .segmentedTransferSegment _ => true
  | .sessionTimeout _ => true
  | .storeParameters _ _ => true
  | .storeComplete _ => true
  | .restoreDefaults _ _ => true
  | .restoreDefaultsComplete _ => true
  | .errorHistoryClear _ => true
  | .emcySend => true
  | .startRemoteNode _ => true
  | .stopRemoteNode _ => true
  | .enterPreOperational _ => true
  | .resetNode _ _ => true
  | .resetCommunication _ _ => true
  | .heartbeatProduce => true
  | .heartbeatReceive _ => true
  | .heartbeatConsumerTimeout _ => true
  | .usdoRequestReceive _ => true
  | .busOffRecovery => true
  | .markColumnPending _ _ => true
  | .applyRetirements _ => true
  | .load _ _ => true
  | .loadComplete _ => true
  | .start _ _ => true
  | .stop _ _ => true
  | .stopTimeout _ => true
  | .reset _ _ => true
  | .resetComplete _ => true
  | .selftest _ _ => true
  | .selftestComplete _ _ => true
  | .unload _ _ => true
  | .add t _ _ _ => tileOk t
  | .sub t _ _ _ => tileOk t
  | .andR t _ _ _ => tileOk t
  | .orR t _ _ _ => tileOk t
  | .xorR t _ _ _ => tileOk t
  | .shl t _ _ _ => tileOk t
  | .shr t _ _ _ => tileOk t
  | .sar t _ _ _ => tileOk t
  | .mul t _ _ _ => tileOk t
  | .mulhu t _ _ _ => tileOk t
  | .mulhs t _ _ _ => tileOk t
  | .minS t _ _ _ => tileOk t
  | .minU t _ _ _ => tileOk t
  | .maxS t _ _ _ => tileOk t
  | .maxU t _ _ _ => tileOk t
  | .cmp t _ _ => tileOk t
  | .tst t _ _ => tileOk t
  | .jalr t _ _ => tileOk t
  | .addi t _ _ _ => tileOk t
  | .andi t _ _ _ => tileOk t
  | .ori t _ _ _ => tileOk t
  | .xori t _ _ _ => tileOk t
  | .shi t _ _ _ _ => tileOk t
  | .cmpi t _ _ => tileOk t
  | .movi t _ _ => tileOk t
  | .movk t _ _ _ => tileOk t
  | .ldb t _ _ _ => tileOk t
  | .ldbu t _ _ _ => tileOk t
  | .ldh t _ _ _ => tileOk t
  | .ldhu t _ _ _ => tileOk t
  | .ldw t _ _ _ => tileOk t
  | .ldwu t _ _ _ => tileOk t
  | .ldd t _ _ _ => tileOk t
  | .stb t _ _ _ => tileOk t
  | .sth t _ _ _ => tileOk t
  | .stw t _ _ _ => tileOk t
  | .std t _ _ _ => tileOk t
  | .bCond t _ _ => tileOk t
  | .jump t _ => tileOk t
  | .jal t _ => tileOk t
  | .issueFwd t _ _ => tileOk t
  | .issueBwd t _ _ => tileOk t
  | .issueXch t _ _ => tileOk t
  | .rowMap t _ _ => tileOk t
  | .rowBinary t _ _ => tileOk t
  | .rowConvert t _ _ => tileOk t
  | .rowReduce t _ _ => tileOk t
  | .normFwd t _ _ => tileOk t
  | .normBwd t _ _ => tileOk t
  | .softmaxFwd t _ _ => tileOk t
  | .softmaxBwd t _ _ => tileOk t
  | .attnProb t _ _ => tileOk t
  | .attnDs t _ _ => tileOk t
  | .actBwd t _ _ => tileOk t
  | .dropout t _ _ => tileOk t
  | .dmaMove t _ _ => tileOk t
  | .dmaTranspose t _ _ => tileOk t
  | .dmaStagedRead t _ _ => tileOk t
  | .dmaStagedWrite t _ _ => tileOk t
  | .dmaLinkWrite t _ _ => tileOk t
  | .dmaZero t _ _ => tileOk t
  | .waitk t _ _ => tileOk t
  | .sync t _ _ _ _ => tileOk t
  | .send t _ _ _ => tileOk t
  | .sendn t _ _ _ _ => tileOk t
  | .recv t _ _ => tileOk t
  | .recvn t _ _ _ => tileOk t
  | .tsr t _ _ => tileOk t
  | .tsww t _ _ => tileOk t
  | .rdk t _ _ => tileOk t
  | .setk t _ _ => tileOk t
  | .rstep t _ => tileOk t
  | .trap t _ => tileOk t
  | .rte t => tileOk t
  | .endProgram t => tileOk t
  | .trapEntryComplete t => tileOk t
  | .engineOperationComplete t _ u => tileOk t && useOk u
  | .dmaComplete t u => tileOk t && useOk u
  | .stagedReadWordArrival t => tileOk t
  | .stagedWriteComplete t => tileOk t
  | .counterWaitTimeout t => tileOk t
  | .laidTableEntry _ => true
  | .xchTableEnd t => tileOk t
  | .syncRelease _ => true
  | .syncWatchdogExpiry _ => true
  | .syncTokenSend _ _ => true
  | .syncTokenReceive _ x => txnOk x
  | .externalSyncRelease _ => true
  | .externalTimeout _ => true
  | .contextSwitch t => tileOk t
  | .packetHop t _ _ _ => tileOk t
  | .tupleArrival t p => tileOk t && packetOk p
  | .tupleEnterAfterWait t _ => tileOk t
  | .refusalArrival t p => tileOk t && packetOk p
  | .sendStallTimeout t => tileOk t
  | .receiveWaitTimeout t => tileOk t
  | .rowReadRequest t p u => tileOk t && packetOk p && useOk u
  | .rowWrite t p u => tileOk t && packetOk p && useOk u
  | .readResponse t p => tileOk t && packetOk p
  | .writeAcknowledgement t p => tileOk t && packetOk p
  | .memoryGatewayRequest _ p => packetOk p
  | .supervisorQueueArrival p => packetOk p
  | .supervisorTupleService _ => true
  | .supervisorTupleSend t _ words => tileOk t && wordsOk words
  | .h2sData _ _ => true
  | .s2hData _ => true
  | .supervisorMailboxWrite _ _ => true
  | .supervisorMailboxRead _ => true
  | .mbClear _ _ _ => true
  | .mailboxTimeout _ _ => true
  | .dbH2s _ => true
  | .dbS2h _ => true
  | .supervisorDoorbellSet _ => true
  | .supervisorDoorbellClear _ => true
  | .watchLineCopy t _ => tileOk t
  | .watchRecordArrival _ _ => true
  | .watchStepClose _ => true
  | .shadowJobComplete t => tileOk t
  | .scrubStart _ _ => true
  | .scrubAbort _ _ => true
  | .scrubRead _ => true
  | .scrubPassDone _ => true
  | .stackRefresh _ => true
  | .stackPeriodicCheck _ _ _ => true
  | .retirePseudoChannel _ _ => true
  | .pseudoChannelRetirementDrained _ => true
  | .rowTest t row _ => tileOk t && rowOk row
  | .runPseudoChannelTests _ => true
  | .pseudoChannelTest _ _ => true
  | .faultLogFlashCopy => true
  | .tallySendRecord _ _ => true
  | .tallySegmentArrival _ _ _ => true
  | .tallyAckReceive _ _ step _ _ _ => decide (step < 2 ^ 16)
  | .tallyRetry _ _ => true
  | .tallyContextClose _ => true
  | .tallyNoticeReceive _ => true
  | .tallyLeaseExpiry _ => true
  | .tallyDiscardComplete _ => true
  | .rollCallAnswer _ => true
  | .rollAnswerReceive _ dev _ _ => deviceOk dev
  | .rollDeadlineExpiry _ => true
  | .membershipReceive _ _ => true
  | .reportReceive _ dev _ _ _ => deviceOk dev
  | .sealReceive _ dev _ => deviceOk dev
  | .withdrawLate _ => true
  | .withdrawLateReceive _ dev _ _ floats => deviceOk dev && floats.all deviceOk
  | .keeperHeartbeat _ dev => deviceOk dev
  | .keeperLeaseExpiry _ => true
  | .takeoverReceive _ dev => deviceOk dev
  | .updateBucket _ => true
  | .weightReturnReceive _ x => txnOk x
  | .weightReturnResend _ => true
  | .regenerateBucket _ _ _ => true
  | .moveStart _ _ => true
  | .moveAbort _ _ => true
  | .moveListDone _ => true
  | .linkTrain _ _ => true
  | .linkDisable _ _ => true
  | .linkRetrain _ _ => true
  | .laneTest _ _ => true
  | .clearRetirements _ _ => true
  | .trainingComplete _ _ => true
  | .trainingTimeout _ => true
  | .retrainingTimeout _ => true
  | .retrainingComplete _ => true
  | .autoRetrain _ => true
  | .peerSilent _ => true
  | .flitReceive _ flit => flitOk flit
  | .sidebandReceive _ _ => true
  | .replayTimeout _ => true
  | .burstThreshold _ _ symbols => decide (symbols.length ≤ 4)
  | .testReq _ => true
  | .testAck _ => true
  | .testReqTimeout _ => true
  | .prbsTestComplete _ _ => true
  | .testResult _ _ => true
  | .retrain _ => true
  | .caps _ _ => true
  | .creditInit _ => true
  | .resume _ _ => true
  | .write _ x => txnOk x
  | .read _ x => txnOk x
  | .rdata _ x => txnOk x
  | .ack _ x => txnOk x
  | .msg _ x => txnOk x
  | .mreq _ x => txnOk x
  | .mresp _ x => txnOk x
  | .reservedKind _ x => txnOk x
  | .transactionRelay _ x => txnOk x
  | .snapshotTake _ _ => true
  | .snapshotAbort _ _ => true
  | .clearPartnerLost _ _ => true
  | .snapshotStart _ => true
  | .snapshotStatePartDone _ => true
  | .snapshotEnd _ _ => true
  | .hostingLeaseExpiry _ _ => true
  | .restore _ _ => true
  | .restoreAbort _ _ => true
  | .tallyReset _ _ => true
  | .weightResend _ _ => true
  | .weightResendRequestReceive _ dev => deviceOk dev
  | .restoreVerifyDone _ => true
  | .restoreDone _ => true
  | .dwRead _ => true
  | .dwWrite _ => true
  | .dwComplete => true
  | .ackResult _ => true
  | .ringEnable _ _ => true
  | .ringDisable _ _ => true
  | .ringResume _ _ => true
  | .prod _ _ => true
  | .ringDescriptorProcess _ _ _ _ => true
  | .ringDescriptorComplete _ => true
  | .hostRegisterWrite _ _ _ => true
  | .stagingWrite _ _ => true
  | .functionLevelReset => true
  | .hotReset => true
  | .perstN _ => true
  | .firmwareProgram _ => true
  | .firmwareProgramComplete _ => true
  | .firmwareRestart _ => true
  | .raiseSecurityVersion _ => true
  | .bypass _ => true
  | .idcode => true
  | .samplePreload _ => true
  | .extest => true
  | .canBusError _ _ => true
  | .canReceiveOverrun => true
  | .pcieRefclkChange _ => true
  | .codewordLockLost _ _ => true
  | .controlFlitResend _ => true
  | .flitTransmit _ => true
  | .outboundQueueDrain t => tileOk t
  | .standbyLeaseExpiry _ => true
  | .pciePowerStateChange _ _ => true
  | .pcieLinkUp _ width maxPayload _ => [1, 2, 4, 8, 16].contains width && [128, 256, 512].contains maxPayload
  | .msixTableWrite _ _ => true
  | .supervisorRestartComplete => true
  | .illegalInstruction t _ => tileOk t

end Sys2Proof
end

