-- ==== Sys2Proof/Tests/Slice0.lean ====
section
/-! SUPPORT. Tests: the smoke tests of WellFormed, small tests of single steps with results taken from the spec's own
words and examples, and for every statement states and operands that meet its hypotheses. -/

namespace Sys2Proof.Tests

open Sys2Proof.Machine Sys2Proof.Safety

-- One theorem after another: the kernel evaluates most of them, and their waiting threads would fill the memory.
set_option Elab.async false

/-! ### WellFormed refuses an ill-formed term for each check -/

theorem test_wf_tile : (Instr.rte 2304).wellFormed = false := by decide
theorem test_wf_tile_ok : (Instr.rte 2303).wellFormed = true := by decide
theorem test_wf_row : (Instr.rowTest 0 896 false).wellFormed = false := by decide
theorem test_wf_device : (Instr.rollAnswerReceive 0 4096 0 true).wellFormed = false := by decide
theorem test_wf_flit : (Instr.flitReceive 0 [0]).wellFormed = false := by decide
theorem test_wf_words : (Instr.supervisorTupleSend 0 0 []).wellFormed = false := by decide
theorem test_wf_packet : (Instr.tupleArrival 0 ⟨0, [0], false⟩).wellFormed = false := by decide
theorem test_wf_txn : (Instr.ack 0 ⟨0, [0]⟩).wellFormed = false := by decide

/-! ### Small states -/

/-- A band of column 0. -/
def band0 : Latched := {
  shape := 0, first := 0, last := 0, channels01 := 1, channels23 := 0, links := 1, ref := 0, image := [], job := 0
  peers := [], seed := 0, initialStep := 0, sendStall := 65536, receiveWait := 65536, evalInterval := 0, evalAt := 0
  guest01 := 0, guest23 := 0, watch := [] }

/-- After reset, with frame 0 as `y` and tile 0 as `x`. -/
def put (y : Frame) (x : Tile) : State :=
  { State.reset with frames := State.reset.frames.set 0 y, tiles := [(0, x)] }

/-- Frame 0 counts as RUNNING and holds column 0. -/
def running : Frame := { st := .running, latched := some band0 }

/-- Frame 0 runs, and tile 0 is `x`. -/
def run0 (x : Tile) : State := put running x

/-- A tile with a main program. -/
def prog : Tile := { main := { program := true } }

/-- A word twice, as a pair. -/
def pairOf (w : Nat) : List Byte := leBytes 4 w ++ leBytes 4 w
/-- The tile holds the pair at its PC, with the word in both places. -/
def on (x : Tile) (w : Nat) : Tile := { x with pair := some (x.core.pc.toNat / 8 * 8, pairOf w) }

/-- Words of register operations, by the formats of R242 and the tables of R243, and what each stands for. -/
def aluWords : List (Nat × Instr) := [
  (0x00221800, .add 0 1 2 3), (0x00221801, .sub 0 1 2 3), (0x00221802, .andR 0 1 2 3), (0x00221803, .orR 0 1 2 3),
  (0x00221804, .xorR 0 1 2 3), (0x00221805, .shl 0 1 2 3), (0x00221806, .shr 0 1 2 3), (0x00221807, .sar 0 1 2 3),
  (0x00221808, .mul 0 1 2 3), (0x00221809, .mulhu 0 1 2 3), (0x0022180a, .mulhs 0 1 2 3),
  (0x0022180b, .minS 0 1 2 3), (0x0022180c, .minU 0 1 2 3), (0x0022180d, .maxS 0 1 2 3), (0x0022180e, .maxU 0 1 2 3)]
/-- Words of immediate operations, by the formats of R242 and the tables of R243, and what each stands for. -/
def immWords : List (Nat × Instr) := [
  (0x04228004, .addi 0 1 2 0x8004), (0x08228004, .andi 0 1 2 0x8004), (0x0c228004, .ori 0 1 2 0x8004),
  (0x10228004, .xori 0 1 2 0x8004), (0x1422003f, .shi 0 1 2 .shl 63), (0x14220041, .shi 0 1 2 .shr 1),
  (0x14220080, .shi 0 1 2 .sar 0), (0x1fe0ffff, .movi 0 31 0xFFFF), (0x23e3ffff, .movk 0 31 3 0xFFFF),
  (0x20000001, .movk 0 0 0 1)]
/-- Words of comparisons and branches, by the formats of R242 and the tables of R243, and what each stands for. -/
def flowWords : List (Nat × Instr) := [
  (0x00021810, .cmp 0 2 3), (0x18028004, .cmpi 0 2 0x8004), (0x00021811, .tst 0 2 3),
  (0x80200000, .bCond 0 0 0x200000), (0x80600000, .bCond 0 1 0x200000), (0x80a00000, .bCond 0 2 0x200000),
  (0x80e00000, .bCond 0 3 0x200000), (0x81200000, .bCond 0 4 0x200000), (0x81600000, .bCond 0 5 0x200000),
  (0x81a00000, .bCond 0 6 0x200000), (0x81e00000, .bCond 0 7 0x200000), (0x82200000, .bCond 0 8 0x200000),
  (0x82600000, .bCond 0 9 0x200000), (0x82a00000, .bCond 0 10 0x200000), (0x82e00000, .bCond 0 11 0x200000),
  (0x83200000, .bCond 0 12 0x200000), (0x83600000, .bCond 0 13 0x200000), (0x83a00000, .bCond 0 14 0x200000)]
/-- Words of jumps, by the formats of R242 and the tables of R243, and what each stands for. -/
def jumpWords : List (Nat × Instr) := [
  (0x86000000, .jump 0 0x2000000), (0x88000001, .jal 0 1), (0x03e20020, .jalr 0 31 2), (0x00000020, .jalr 0 0 0)]
/-- Words of loads, by the formats of R242 and the tables of R243, and what each stands for. -/
def loadWords : List (Nat × Instr) := [
  (0x40203fff, .ldb 0 1 0 0x3fff), (0x44200000, .ldbu 0 1 0 0x0), (0x48203ffe, .ldh 0 1 0 0x3ffe),
  (0x4c200000, .ldhu 0 1 0 0x0), (0x50203ffc, .ldw 0 1 0 0x3ffc), (0x54200000, .ldwu 0 1 0 0x0),
  (0x58203ff8, .ldd 0 1 0 0x3ff8)]
/-- Words of stores, by the formats of R242 and the tables of R243, and what each stands for. -/
def storeWords : List (Nat × Instr) := [
  (0x60203fff, .stb 0 1 0 0x3fff), (0x64203ffe, .sth 0 1 0 0x3ffe), (0x68203ffc, .stw 0 1 0 0x3ffc),
  (0x6c203ff8, .std 0 1 0 0x3ff8)]
/-- Words of counters and status words, by the formats of R242 and the tables of R243, and what each stands for. -/
def counterWords : List (Nat × Instr) := [
  (0xb0201c03, .rdk 0 1 7), (0xb0021c04, .setk 0 2 7), (0xb020fc01, .tsr 0 1 63), (0xb0200008, .rstep 0 1),
  (0xb002e002, .tsww 0 2 56), (0xb002fc02, .tsww 0 2 63), (0xa41c0000, .waitk 0 7 0),
  (0xa41cffff, .waitk 0 7 0xFFFF)]
/-- Words of TSWW, of status words that clear and of words that only read, and what each stands for. -/
def statusWords : List (Nat × Instr) := [
  (0xb0023002, .tsww 0 2 12), (0xb0023802, .tsww 0 2 14), (0xb0023c02, .tsww 0 2 15), (0xb0027002, .tsww 0 2 28),
  (0xb0020002, .tsww 0 2 0), (0xb002dc02, .tsww 0 2 55)]
/-- Words of SYNC, by the formats of R242 and the tables of R243, and what each stands for. -/
def syncWords : List (Nat × Instr) := [
  (0xa800000c, .sync 0 0 true true false), (0xa8000012, .sync 0 2 false false true),
  (0xa8000003, .sync 0 3 false false false), (0xa8000010, .sync 0 0 false false true),
  (0xa8000001, .sync 0 1 false false false)]
/-- Words of sends and receives, by the formats of R242 and the tables of R243, and what each stands for. -/
def queueWords : List (Nat × Instr) := [
  (0xac221e01, .sendn 0 1 2 3 3), (0xac021e00, .send 0 2 3 3), (0xac3d1e01, .sendn 0 1 29 3 3),
  (0xac1f1e00, .send 0 31 3 3), (0xac200602, .recv 0 1 3), (0xac220603, .recvn 0 1 2 3),
  (0xac210603, .recvn 0 1 1 3)]
/-- Words of issues, by the formats of R242 and the tables of R243, and what each stands for. -/
def issueWords : List (Nat × Instr) := [
  (0xa0800000, .issueFwd 0 0 0), (0xa1003ec0, .issueBwd 0 0 0x3EC0), (0xa1800000, .rowMap 0 0 0),
  (0xa2000000, .dmaMove 0 0 0), (0xa2800000, .issueXch 0 0 0)]
/-- Words of TRAP, RTE and END, by the formats of R242 and the tables of R243, and what each stands for. -/
def systemWords : List (Nat × Instr) := [
  (0xb000fc05, .trap 0 63), (0xb0000006, .rte 0), (0xb0000007, .endProgram 0)]

theorem fetched_at {s : State} {d : List Byte} {i : Instr} (h : s.coreReady 0 = some 0) (n : 0 < s.tileCount)
    (a : (s.tile 0).core.stray = none) (p : (s.tile 0).heldPair = some d)
    (c : coreInstr 0 ((s.tile 0).wordOf d) = some i) : Fetched s 0 0 i s :=
  ⟨n, h, (s.tile 0).wordOf d, by simp only [State.fetchWord, a, p], c⟩

theorem fetched_on {w : Nat} {i : Instr} (c : coreInstr 0 (sliceNat (pairOf w) 0 4) = some i) :
    Fetched (run0 (on prog w)) 0 0 i (run0 (on prog w)) :=
  fetched_at (d := pairOf w) (by with_unfolding_all rfl) (by show 0 < 48 * 48; decide) rfl (by with_unfolding_all rfl) c

theorem fetched_word (w : Nat) : FetchedWord (run0 (on prog w)) 0 0 (sliceNat (pairOf w) 0 4) (run0 (on prog w)) :=
  ⟨by show 0 < 48 * 48; decide, by with_unfolding_all rfl, by with_unfolding_all rfl⟩

/-- Every word of a list is fetched as what it stands for, by a core that has it at its PC. -/
theorem fetched_list {l : List (Nat × Instr)} (h : ∀ p ∈ l, coreInstr 0 (sliceNat (pairOf p.1) 0 4) = some p.2) :
    ∀ p ∈ l, Fetched (run0 (on prog p.1)) 0 0 p.2 (run0 (on prog p.1)) := fun p m => fetched_on (h p m)

/-! ### Witnesses: cores -/

theorem witness_StepRunsFrontCommand : ({ State.reset with pending := [.brownOut] } : State).pending ≠ [] := by decide
theorem witness_EmptyQueueTicks : State.reset.pending = [] ∧ State.reset.queue = [] ∧
    ({ State.reset with sup := { recovery := true, ready := false } } : State).sup.ready = false := by decide
theorem witness_StepKeepsSound : State.reset.inv = true ∧ step State.reset = .next State.reset.serveNext.tickClocks :=
  ⟨by decide, rfl⟩
theorem witness_CommandsAnswer : State.reset.tileCount ≤ 2304 := by decide
/-- The word at the PC stands in scratch, its pair not yet fetched. -/
def stored (x : Tile) (w : Nat) : State := { run0 x with mem := Mem.write [] (scratchAddr 0 0) (pairOf w) }
theorem witness_FetchLeavesState : (0 < State.reset.tileCount ∧ State.reset.coreReady 0 = none) ∧
    ((run0 (on prog 0x221801)).inv = true ∧
      FetchedWord (run0 (on prog 0x221801)) 0 0 0x221801 (run0 (on prog 0x221801)) ∧
      coreInstr 0 0x221801 ≠ some (.add 0 1 2 3) ∧ ((run0 (on prog 0x221801)).tile 0).heldPair ≠ none) ∧
    (FetchedWord (stored prog 0x221801) 0 0 0x221801 ((stored prog 0x221801).fetchWord 0 0).2 ∧
      ((stored prog 0x221801).tile 0).heldPair = none ∧ errsIn (stored prog 0x221801).errs (scratchAddr 0 0) 8 = []) :=
  ⟨by decide, ⟨by decide, fetched_word 0x221801, by decide, by decide⟩,
    ⟨⟨by show 0 < 48 * 48; decide, by decide, rfl⟩, by decide, by decide⟩⟩
theorem witness_ComputeInstructions : (run0 (on prog 0x221800)).inv = true ∧
    (∀ p ∈ aluWords, Fetched (run0 (on prog p.1)) 0 0 p.2 (run0 (on prog p.1))) ∧
    ∀ p ∈ immWords, Fetched (run0 (on prog p.1)) 0 0 p.2 (run0 (on prog p.1)) :=
  ⟨by decide, fetched_list (by decide), fetched_list (by decide)⟩
theorem witness_FlagsAndBranches : (run0 (on prog 0x00021810)).inv = true ∧
    (∀ p ∈ flowWords, Fetched (run0 (on prog p.1)) 0 0 p.2 (run0 (on prog p.1))) ∧
    (0x83C00000 : W32).toNat / 2 ^ 26 = 0x20 ∧ (0x83C00000 : W32).toNat / 2 ^ 22 % 16 = 0xF ∧
    FetchedWord (run0 (on prog 0x83C00000)) 0 0 0x83C00000 (run0 (on prog 0x83C00000)) ∧
    ((run0 (on prog 0x83C00000)).tile 0).core.handler = false :=
  ⟨by decide, fetched_list (by decide), by decide, by decide, fetched_word 0x83C00000, by decide⟩
theorem witness_JumpsAndLinks : (run0 (on prog 0x20)).inv = true ∧
    (∀ p ∈ jumpWords, Fetched (run0 (on prog p.1)) 0 0 p.2 (run0 (on prog p.1))) ∧
    (0x3EFC : W64).toNat ≤ 0x3EFC ∧ (0x3EFC : W64).toNat % 4 = 0 ∧ 0x3EFC < (0x3F00 : W64).toNat ∧
    (0x3EFA : W64).toNat % 4 ≠ 0 := ⟨by decide, fetched_list (by decide), by decide⟩

theorem reads_prog (w a n : Nat) (h : a ≤ 0x3FFF) (b : a % n = 0)
    (o : (prog.decl.allows 0 false 1 (a / 256)) = true) :
    CoreReads (run0 (on prog w)) 0 a n (run0 (on prog w)) ((run0 (on prog w)).mem.read (scratchAddr 0 a) n) :=
  ⟨h, b, o, rfl⟩

theorem witness_LoadAndStoreResults : (run0 (on prog 0x40203fff)).inv = true ∧
    (∀ p ∈ loadWords, Fetched (run0 (on prog p.1)) 0 0 p.2 (run0 (on prog p.1))) ∧
    (∀ p ∈ storeWords, Fetched (run0 (on prog p.1)) 0 0 p.2 (run0 (on prog p.1))) ∧
    (∀ w p, p ∈ [(0x3FFF, 1), (0x3FFE, 2), (0x3FFC, 4), (0x3FF8, 8), (0, 1), (0, 2), (0, 4)] →
      CoreReads (run0 (on prog w)) 0 p.1 p.2 (run0 (on prog w)) ((run0 (on prog w)).mem.read (scratchAddr 0 p.1) p.2)) ∧
    (∀ w p, p ∈ [(0x3FFF, 1), (0x3FFE, 2), (0x3FFC, 4), (0x3FF8, 8)] → CoreWrites (run0 (on prog w)) 0 p.1 p.2) ∧
    (BitVec.ofInt 64 (((run0 prog).reg 0 0).toInt + (0x3FF8 : W16).toInt)).toNat = 0x3FF8 := by
  refine ⟨by decide, fetched_list (by decide), fetched_list (by decide), fun w p h => ?_, fun w p h => ?_, by decide⟩
  · have q : p.1 ≤ 0x3FFF ∧ p.1 % p.2 = 0 ∧ prog.decl.allows 0 false 1 (p.1 / 256) = true := by
      revert p; decide
    exact reads_prog w _ _ q.1 q.2.1 q.2.2
  · have q : p.1 ≤ 0x3FFF ∧ p.1 % p.2 = 0 ∧ prog.decl.allows 0 true 1 (p.1 / 256) = true := by
      revert p; decide
    exact ⟨q.1, q.2.1, q.2.2⟩

/-- A tile whose guest holds scratch 0x1000 to 0x10FF, one whose core has jumped past the last fetch address, and one
whose PC stands in the guest's window. -/
def guarded : Tile := { prog with decl := { guestScratch := ⟨16, 1⟩ } }
def past : Tile := { main := { program := true, stray := some 0x3F00 } }
def inGuest : Tile := { main := { program := true, pc := 0x1000 }, decl := { guestScratch := ⟨16, 1⟩ } }
/-- A double-bit error at scratch offset `o` of tile 0. -/
def withError (s : State) (o : Nat) : State := { s with errs := [(scratchAddr 0 o, { bits := 2 })] }
/-- LDD g1, [g0 + 0x10F8] and STD g1, [g0 + 0x1000]. -/
def ldd10F8 : Nat := 0x582010F8
def std1000 : Nat := 0x6C201000

theorem witness_AccessChecks :
    (Fetched (run0 (on prog 0x58204000)) 0 0 (.ldd 0 1 0 0x4000) (run0 (on prog 0x58204000)) ∧
      ((run0 (on prog 0x58204000)).tile 0).core.handler = false ∧
      0x3FFF < (BitVec.ofInt 64 (((run0 prog).reg 0 0).toInt + (0x4000 : W16).toInt)).toNat) ∧
    (Fetched (run0 (on prog 0x58203FF9)) 0 0 (.ldd 0 1 0 0x3FF9) (run0 (on prog 0x58203FF9)) ∧
      (BitVec.ofInt 64 (((run0 prog).reg 0 0).toInt + (0x3FF9 : W16).toInt)).toNat % 8 ≠ 0) ∧
    (Fetched (run0 (on guarded ldd10F8)) 0 0 (.ldd 0 1 0 0x10F8) (run0 (on guarded ldd10F8)) ∧
      ((run0 (on guarded ldd10F8)).tile 0).decl.allows 0 false 1 (0x10F8 / 256) = false) ∧
    (Fetched (run0 (on guarded std1000)) 0 0 (.std 0 1 0 0x1000) (run0 (on guarded std1000)) ∧
      ((run0 (on guarded std1000)).tile 0).decl.allows 0 true 1 (0x1000 / 256) = false) ∧
    (Fetched (withError (run0 (on prog 0x58203FF8)) 0x3FF8) 0 0 (.ldd 0 1 0 0x3FF8)
        (withError (run0 (on prog 0x58203FF8)) 0x3FF8) ∧
      ((withError (run0 (on prog 0x58203FF8)) 0x3FF8).readScratch 0 0x3FF8 8).2.1 = some 0x3FF8) ∧
    (Fetched (run0 (on prog 0x60203F00)) 0 0 (.stb 0 1 0 0x3F00) (run0 (on prog 0x60203F00)) ∧
      ((run0 (on prog 0x60203F00)).tile 0).decl.allows 0 true 1 (0x3F00 / 256) = true) ∧
    ((run0 past).coreReady 0 = some 0 ∧ ((run0 past).tile 0).core.stray = some 0x3F00) ∧
    ((run0 inGuest).coreReady 0 = some 0 ∧ ((run0 inGuest).tile 0).heldPair = none ∧
      ((run0 inGuest).tile 0).decl.allows ((run0 inGuest).tile 0).active false 1
        (((run0 inGuest).tile 0).core.pc.toNat / 8 * 8 / 256) = false) ∧
    ((withError (run0 prog) 0).coreReady 0 = some 0 ∧ ((withError (run0 prog) 0).tile 0).heldPair = none ∧
      ((withError (run0 prog) 0).readScratch 0 0 8).2.1 = some 0) :=
  ⟨⟨fetched_on (by decide), by decide, by decide⟩, ⟨fetched_on (by decide), by decide⟩,
    ⟨fetched_at (d := pairOf ldd10F8) (by decide) (by decide) rfl rfl (by decide), by decide⟩,
    ⟨fetched_at (d := pairOf std1000) (by decide) (by decide) rfl rfl (by decide), by decide⟩,
    ⟨fetched_at (d := pairOf 0x58203FF8) (by decide) (by decide) rfl rfl (by decide), by decide⟩,
    ⟨fetched_on (by decide), by decide⟩, by decide, by decide, by decide⟩

theorem witness_CountersAndStatusWords : (run0 (on prog 0xb0201c03)).inv = true ∧
    (∀ p ∈ counterWords, Fetched (run0 (on prog p.1)) 0 0 p.2 (run0 (on prog p.1))) ∧
    (∀ p ∈ statusWords, Fetched (run0 (on prog p.1)) 0 0 p.2 (run0 (on prog p.1))) ∧
    (0 : W16).toNat ≤ (((run0 prog).tile 0).core.k[7]).toNat ∧
    (((run0 prog).tile 0).core.k[7]).toNat < (0xFFFF : W16).toNat ∧ ((run0 prog).tile 0).core.handler = false :=
  ⟨by decide, fetched_list (by decide), fetched_list (by decide), by decide, by decide, by decide⟩

/-- Tile 0 at the exit sync, its table ended or still running, and its frame with an arrival. -/
def atExit : Tile := { prog with xch := { phase := 2 } }
def inTable : Tile :=
  { prog with xch := { phase := 2, running := some { row := 0, entries := 2, kc := 1, context := 0,
                                                     code := zeroBytes 32 } } }
theorem witness_SyncArrival : (run0 (on prog 0xa800000c)).inv = true ∧
    (∀ p ∈ syncWords, Fetched (run0 (on prog p.1)) 0 0 p.2 (run0 (on prog p.1))) ∧
    (SyncLegal ((run0 prog).tile 0) 0 true true false ∧ SyncLegal ((run0 prog).tile 0) 2 false false true ∧
      ¬ SyncLegal ((run0 prog).tile 0) 3 false false false ∧ ¬ SyncLegal ((run0 prog).tile 0) 0 false false true ∧
      ((run0 prog).tile 0).xch.phase < 2 ∧ ((run0 prog).frame 0).firstArrival = none) ∧
    (Fetched (run0 (on atExit 0xa8000010)) 0 0 (.sync 0 0 false false true) (run0 (on atExit 0xa8000010)) ∧
      SyncLegal ((run0 atExit).tile 0) 0 false false true ∧ ((run0 atExit).tile 0).xch.running = none) ∧
    (Fetched (run0 (on inTable 0xa8000010)) 0 0 (.sync 0 0 false false true) (run0 (on inTable 0xa8000010)) ∧
      2 ≤ ((run0 inTable).tile 0).xch.phase ∧ ((run0 inTable).tile 0).xch.running ≠ none) ∧
    (Fetched (put { running with firstArrival := some 0 } (on prog 0xa8000001)) 0 0 (.sync 0 1 false false false)
        (put { running with firstArrival := some 0 } (on prog 0xa8000001)) ∧
      ((put { running with firstArrival := some 0 } prog).frame 0).firstArrival ≠ none) := by
  refine ⟨by decide, fetched_list (by decide), ⟨?_, ?_, ?_, ?_, by decide, by decide⟩,
    ⟨fetched_at (d := pairOf 0xa8000010) (by decide) (by decide) rfl rfl (by decide), ?_, by decide⟩,
    ⟨fetched_at (d := pairOf 0xa8000010) (by decide) (by decide) rfl rfl (by decide), by decide⟩,
    ⟨fetched_at (d := pairOf 0xa8000001) (by decide) (by decide) rfl rfl (by decide), by decide⟩⟩ <;>
    unfold SyncLegal <;> decide

/-- The class-0 input of the tile's injection is full; a queue holds a tuple of two words. -/
def crowded : Tile := { prog with net := { inp := [(16, List.replicate 8 ⟨0, true, false, 0, false, false⟩)] } }
def queued : Tile := { prog with queues := prog.queues.set 3 { isOpen := true, tuples := [⟨1, false, [7, 8]⟩] } }

theorem witness_SendsAndReceives : (run0 (on prog 0xac221e01)).inv = true ∧
    (∀ p ∈ queueWords, Fetched (run0 (on prog p.1)) 0 0 p.2 (run0 (on prog p.1))) ∧
    ((run0 prog).sendAllowed 0 (sendDest 0) = true ∧
      (run0 prog).injectRoom 0 (sendDest 0).cls 5 = true ∧ (run0 prog).sendAllowed 0 (sendDest 1) = true ∧
      (run0 prog).sendAllowed 0 (sendDest 2) = false ∧ (((run0 prog).tile 0).queues[3]).tuples = []) ∧
    (Fetched (run0 (on crowded 0xac021e00)) 0 0 (.send 0 2 3 3) (run0 (on crowded 0xac021e00)) ∧
      (run0 crowded).injectRoom 0 (sendDest 0).cls 5 = false) ∧
    (Fetched (run0 (on queued 0xac200602)) 0 0 (.recv 0 1 3) (run0 (on queued 0xac200602)) ∧
      (((run0 queued).tile 0).queues[3]).tuples = [⟨1, false, [7, 8]⟩]) ∧
    ((run0 prog).reg 0 3 = 0 ∧ (2 : Reg).val + (3 : Fin 4).val ≤ 31 ∧ 31 < (29 : Reg).val + (3 : Fin 4).val) :=
  ⟨by decide, fetched_list (by decide), by decide,
    ⟨fetched_at (d := pairOf 0xac021e00) (by decide) (by decide) rfl rfl (by decide), by decide⟩,
    ⟨fetched_at (d := pairOf 0xac200602) (by decide) (by decide) rfl rfl (by decide), by decide⟩, by decide⟩

/-- Tile 0 ends its entry to a trap: a software trap with a vector, another, and one of the guest. -/
def entering (c : Nat) (active : Nat) : Tile :=
  { main := { program := true, vector := some 0x100 }, guest := { program := true }, active := active
    trap := { entry := some { cause := c } } }
def inHandler : Tile := { main := { program := true, handler := true } }

theorem witness_TrapEntryAndReturn :
    (∀ p ∈ systemWords, Fetched (run0 (on prog p.1)) 0 0 p.2 (run0 (on prog p.1))) ∧
    (FetchedWord (run0 (on prog 0xb000fc05)) 0 0 0xb000fc05 (run0 (on prog 0xb000fc05)) ∧
      coreInstr 0 0xb000fc05 = some (.trap 0 63) ∧ ((run0 (on prog 0xb000fc05)).tile 0).core.handler = false) ∧
    (FetchedWord (run0 (on prog 0xFFFFFFFF)) 0 0 0xFFFFFFFF (run0 (on prog 0xFFFFFFFF)) ∧
      coreInstr 0 0xFFFFFFFF = none) ∧
    ((run0 (entering 7 0)).inv = true ∧ 0 < (run0 (entering 7 0)).tileCount ∧
      (run0 (entering 7 0)).runningFrame 0 = some 0 ∧
      ((run0 (entering 7 0)).tile 0).trap.entry = some { cause := 7 } ∧
      ((run0 (entering 7 0)).tile 0).core.vector = some 0x100 ∧ ((run0 (entering 7 0)).tile 0).trap.held = []) ∧
    ((run0 (entering 1 0)).runningFrame 0 = some 0 ∧ ((run0 (entering 1 0)).tile 0).trap.entry = some { cause := 1 }) ∧
    ((run0 (entering 7 2)).runningFrame 0 = some 0 ∧ ((run0 (entering 7 2)).tile 0).active = 2) ∧
    (Fetched (run0 (on inHandler 0xb0000006)) 0 0 (.rte 0) (run0 (on inHandler 0xb0000006)) ∧
      ((run0 inHandler).tile 0).core.handler = true ∧
      (run0 (on inHandler 0xb0000006)).readScratch 0 0x3F08 8 =
        (⟨(run0 inHandler).mem.read (scratchAddr 0 0x3F08) 8, false⟩, none, run0 (on inHandler 0xb0000006))) :=
  ⟨fetched_list (by decide), ⟨fetched_word 0xb000fc05, by decide, by decide⟩, ⟨fetched_word 0xFFFFFFFF, by decide⟩,
    by decide, by decide, by decide,
    ⟨fetched_at (d := pairOf 0xb0000006) (by decide) (by decide) rfl rfl (by decide), by decide, rfl⟩⟩

/-- A staged write of one word. -/
def stagingOut : Staged := ⟨true, 0, 1, 0, 0, 0, 0, none⟩
/-- The tile has a staged write that waits for its word, one whose word is pushed, or a staged read. -/
def writing : Tile := { prog with edge := { writes := [stagingOut] } }
def pushed : Tile := { prog with edge := { writes := [stagingOut], outbound := [zeroBytes 64] } }
def reading : Tile := { prog with edge := { reads := [{ stagingOut with write := false }] } }
theorem witness_EndOfProgram :
    (Fetched (run0 (on prog 0xb0000007)) 0 0 (.endProgram 0) (run0 (on prog 0xb0000007)) ∧
      ((run0 prog).tile 0).fwd.running = none ∧ ((run0 prog).tile 0).edge.reads = [] ∧
      ((run0 prog).tile 0).edge.room = 0) ∧
    (Fetched (run0 (on pushed 0xb0000007)) 0 0 (.endProgram 0) (run0 (on pushed 0xb0000007)) ∧
      ((run0 pushed).tile 0).edge.room = 0) ∧
    (Fetched (run0 (on writing 0xb0000007)) 0 0 (.endProgram 0) (run0 (on writing 0xb0000007)) ∧
      0 < ((run0 writing).tile 0).edge.room) ∧
    (Fetched (run0 (on reading 0xb0000007)) 0 0 (.endProgram 0) (run0 (on reading 0xb0000007)) ∧
      ((run0 reading).tile 0).edge.reads ≠ []) ∧
    Fetched (run0 (on inTable 0xb0000007)) 0 0 (.endProgram 0) (run0 (on inTable 0xb0000007)) :=
  ⟨⟨fetched_on (by decide), by decide⟩,
    ⟨fetched_at (d := pairOf 0xb0000007) (by decide) (by decide) rfl rfl (by decide), by decide⟩,
    ⟨fetched_at (d := pairOf 0xb0000007) (by decide) (by decide) rfl rfl (by decide), by decide⟩,
    ⟨fetched_at (d := pairOf 0xb0000007) (by decide) (by decide) rfl rfl (by decide), by decide⟩,
    fetched_at (d := pairOf 0xb0000007) (by decide) (by decide) rfl rfl (by decide)⟩

/-! ### Witnesses: engines -/

/-- Tile 0 is `x`, holds the word of an issue, and has the descriptor of these eight slots at scratch offset 0. -/
def described (x : Tile) (w : Nat) (slots : List Nat) : State :=
  { run0 (on x w) with mem := Mem.write [] (scratchAddr 0 0) (slots.flatMap (leBytes 8)) }
/-- The 64 bytes it reads. -/
def descOf (slots : List Nat) : List Byte :=
  (Mem.write [] (scratchAddr 0 0) (slots.flatMap (leBytes 8))).read (scratchAddr 0 0) 64

theorem desc_read (w : Nat) (i : Instr) (slots : List Nat) (c : coreInstr 0 (sliceNat (pairOf w) 0 4) = some i) :
    DescriptorRead (described prog w slots) 0 0 i 0 0 0 (described prog w slots) (descOf slots) := by
  refine ⟨⟨described prog w slots, fetched_at (d := pairOf w) ?_ ?_ rfl (by with_unfolding_all rfl) c, rfl, rfl, rfl⟩,
    rfl, by decide⟩
  · have h : (described prog w slots).coreReady 0 = (run0 prog).coreReady 0 := by with_unfolding_all rfl
    rw [h]
    decide
  · show 0 < 48 * 48
    decide

/-- A tile at the exit sync of an external phase, for LINK_WRITE, and one that has declared a laid table. -/
def external : Tile := { prog with xch := { phase := 3 } }
def laid : Tile := { prog with decl := { tables := [(5, 2)] } }
/-- An operation that runs, a local move of one row, and a tile whose row engine has no place free. -/
def moving : EngOp :=
  { desc := [4 + 256, 2 ^ 48, 2 ^ 48 + 4, 512, 0, 0, 0, 0].flatMap (leBytes 8), addr := 0, context := 0, step := 0 }
def busy : Tile := { prog with row := { running := some moving, waiting := some moving } }

def rowSlots (op : Nat) : List Nat := [3 + op * 256, 4096, 0, 0, 0, 0, 0, 0]
def dmaSlots (op src dst len : Nat) : List Nat := [4 + op * 256, src, dst, len, 0, 0, 0, 0]

theorem witness_EngineIssues :
    (described prog 0xa1800000 (rowSlots 1)).inv = true ∧ PlaceFree (described prog 0xa1800000 (rowSlots 1)) 0 3 ∧
    (∀ op ∈ List.range 12,
      DescriptorRead (described prog 0xa1800000 (rowSlots (op + 1))) 0 0 (.rowMap 0 0 0) 0 0 0
        (described prog 0xa1800000 (rowSlots (op + 1))) (descOf (rowSlots (op + 1)))) ∧
    (∀ op ∈ List.range 12, checkRow (descOf (rowSlots (op + 1))) = 0 ∧
      (header (descOf (rowSlots (op + 1)))).op = op + 1) ∧
    checkFwd (descOf [1, 65536, 2 ^ 56, 2 ^ 56, 0, 0, 0, 0]) = 0 ∧
    checkBwd (descOf [2, 65536 + 2 ^ 14, 2 ^ 56, 2 ^ 56, 0, 0, 0, 0]) = 0 ∧
    (∀ l ∈ [dmaSlots 1 (2 ^ 48) (2 ^ 48 + 4) 512, [4 + 16 + 512, 2 ^ 48, 2 ^ 48 + 4, 0, 0, 0, 0, 0], dmaSlots 3 0 0 64,
        dmaSlots 4 0 0 4096, dmaSlots 6 0 (2 ^ 48) 64],
      (described prog 0xa2000000 l).checkDma 0 0 (descOf l) = 0) ∧
    checkRow (descOf (rowSlots 13)) ≠ 0 := by
  refine ⟨by decide, Or.inl rfl, fun _ _ => desc_read _ _ _ (by decide), ?_, ?_, ?_, ?_, ?_⟩ <;> decide

theorem witness_EngineIssues_linkWrite :
    (described external 0xa2000000 (dmaSlots 5 (2 ^ 48) 0 512)).checkDma 0 0 (descOf (dmaSlots 5 (2 ^ 48) 0 512)) = 0 ∧
    laid.checkXch (descOf [5, 5 + 2 * 1024, 0, 0, 0, 0, 0, 0]) = 0 ∧
    (described external 0xa2000000 []).coreReady 0 = some 0 ∧ (described laid 0xa2800000 []).coreReady 0 = some 0 := by
  decide
theorem witness_EngineIssues_waits :
    Fetched (run0 (on busy 0xa1800000)) 0 0 (.rowMap 0 0 0) (run0 (on busy 0xa1800000)) ∧
    ¬ PlaceFree (run0 (on busy 0xa1800000)) 0 3 :=
  ⟨fetched_at (d := pairOf 0xa1800000) (by decide) (by decide) rfl rfl (by decide), by unfold PlaceFree; decide⟩

theorem witness_EngineCompletion :
    ((run0 { prog with row := { running := some moving } }).inv = true ∧
      0 < (run0 { prog with row := { running := some moving } }).tileCount ∧
      (run0 { prog with row := { running := some moving } }).runningFrame 0 = some 0 ∧
      (((run0 { prog with row := { running := some moving } }).tile 0).engine (arrayEngineCode .row)).running =
        some moving) ∧
    ((run0 { prog with dma := { running := some moving } }).runningFrame 0 = some 0 ∧ dmaRemote moving.desc = false) ∧
    ((run0 reading).runningFrame 0 = some 0 ∧ (run0 reading).stagedCheck 0 { stagingOut with write := false } = none ∧
      (run0 reading).placeRetiring 0 = false ∧
      (run0 reading).stagedCheck 0 { stagingOut with write := false, addr := 1 } ≠ none) ∧
    (((run0 pushed).tile 0).edge.writes.find? (fun x => decide (x.done < x.words)) = some stagingOut ∧
      (run0 pushed).stagedCheck 0 stagingOut = none) ∧
    ({ stagingOut with done := 1 } : Staged).words ≤ ({ stagingOut with done := 1 } : Staged).done := by decide

theorem witness_WaitTimeouts :
    ((run0 { prog with wait := .waitk 0 1 }).runningFrame 0 = some 0 ∧
      ((run0 { prog with wait := .waitk 0 1 }).frame 0).latched = some band0 ∧ band0.receiveWait ≠ 0 ∧
        band0.sendStall ≠ 0 ∧
      ((run0 { prog with wait := .waitk 0 1 }).tile 0).trap.entry = none ∧
      ((run0 { prog with wait := .waitk 0 1 }).tile 0).core.handler = false) ∧
    ((run0 { prog with wait := .issue 4 0 0 }).runningFrame 0 = some 0) ∧
    ((run0 { prog with wait := .recv 3 31 }).runningFrame 0 = some 0) ∧
    ((run0 { prog with wait := .send 0 0 3 }).runningFrame 0 = some 0) := by decide

/-! ### Witnesses: supersteps -/

/-- Tile 0 waits in a sync; the other tiles of column 0 have no program. -/
def arrived (kind : Nat) : Tile := { prog with wait := .sync, arrival := some ⟨kind, true, false, false, 0, false⟩ }
theorem witness_SyncReleases :
    ((run0 (arrived 0)).inv = true ∧ ((run0 (arrived 0)).frame 0).st = .running ∧
      (run0 (arrived 0)).allArrived 0 = true ∧
      (run0 (arrived 0)).syncAgrees 0 = true ∧ (run0 (arrived 0)).atExternalExit 0 = false ∧
      ((run0 (arrived 0)).frame 0).exchange = none ∧ ((run0 (arrived 0)).syncNamed 0).kind ≠ 2) ∧
    ((run0 (arrived 2)).allArrived 0 = true ∧ (run0 (arrived 2)).syncAgrees 0 = true ∧
      ((run0 (arrived 2)).syncNamed 0).kind = 2) ∧
    ((put { running with exchange := some 1 } (arrived 0)).allArrived 0 = true ∧
      (put { running with exchange := some 1 } (arrived 0)).syncAgrees 0 = false) ∧
    ((put { running with exchange := some 0, transition := some .stop } (arrived 0)).syncAgrees 0 = true ∧
      ((put { running with exchange := some 0 } (arrived 0)).drainExchange 0).runningFrame 0 = some 0) := by decide

/-- A frame in an external phase whose peer is device 5, frame 1. -/
def peered : Frame := { running with exchange := some 1, latched := some { band0 with peers := [5 + 4096] },
                                     tokens := [5 + 4096], firstArrival := some 0, watchdog := 9 }
theorem witness_ExternalPhases :
    (put peered (arrived 1)).inv = true ∧ ((put peered (arrived 1)).frame 0).st = .running ∧
    (put peered (arrived 1)).allArrived 0 = true ∧ (put peered (arrived 1)).syncAgrees 0 = true ∧
    ((put peered (arrived 1)).drainExchange 0 = put peered (arrived 1)) ∧
    (put peered (arrived 1)).tokenReady 0 (5 + 4096) = true ∧ peerDevice (5 + 4096) ≠ (put peered (arrived 1)).device ∧
    ({ put peered (arrived 1) with links := [(3, { st := .up })],
                                   tables := [(0x2B01, List.replicate 6 3)] }.egress 5 = some 3) ∧
    peerDevice 4096 = (put peered (arrived 1)).device ∧
    (∀ p ∈ [0, 1, 2], let h := packTxn { kind := 7, dst := 0, src := 5, sfr := 1, a := p * 16 }
      txnKind h = 7 ∧ txnDst h = 0 ∧ frameIx (txnDfr h) = 0 ∧ txnSrc h + txnSfr h * 2 ^ 12 = 5 + 4096 ∧
      bits (txnA h) 4 32 = p ∧ bits (txnA h) 0 4 = band0.job) ∧
    ((put peered (arrived 1)).frame 0).phase = 0 := by decide

theorem witness_LaidTablesAndContexts :
    ((run0 inTable).inv = true ∧ ((run0 inTable).frame 0).st = .running ∧ ((run0 inTable).frameTiles 0).Nodup ∧
      0 ∈ (run0 inTable).frameTiles 0 ∧ (run0 inTable).exchanging 0 = true ∧
      entryCycles (tableEntry (zeroBytes 32) 0) ≤ 0 + 1 ∧ entryEnd (tableEntry (zeroBytes 32) 0) = false) ∧
    ((run0 { prog with xch := { tableDone := some (1, 0) } }).runningFrame 0 = some 0) ∧
    ((run0 { prog with switching := some 2 }).runningFrame 0 = some 0 ∧
      ((run0 { prog with switching := some 2 }).tile 0).switchReady = true) := by decide

/-! ### Witnesses: the message mesh -/

/-- A packet of no payload at the tile's injection, for the tile itself. -/
def oneFlit : Flit :=
  Flit.seal ⟨packHeader { cls := 1, op := 1, len := 1, srow := 0, scol := 0, frame := 0 }, true, true, 1, false, false⟩
def routing : Tile := { prog with net := { inp := [(17, [oneFlit])] } }
def pktOf (op : Nat) (words : List W64) (poison : Bool) (status : Nat) : Packet :=
  sentPacket (packHeader { cls := 0, op := op, len := words.length, srow := 0, scol := 0, frame := 0, poison := poison
                           status := status }) words
/-- A request for row 895 of tile 0. -/
def rowRequest (op : Nat) (rest : List W64) (a : Nat) : Packet := pktOf op (BitVec.ofNat 64 a :: rest) false 0
/-- Queue 0 is open, with a tuple whole at its ejection stage. -/
def listening : Tile :=
  { prog with queues := prog.queues.set 0 { isOpen := true }, net := { eject := [(0, flitsOf (pktOf 0 [7] false 0))] } }
/-- Queue 0 is open and full. -/
def full : Tile :=
  { prog with queues := prog.queues.set 0 { isOpen := true, tuples := List.replicate 8 ⟨1, false, [1, 2, 3, 4]⟩ } }

theorem witness_MeshAndTuples :
    ((run0 routing).inv = true ∧ ((run0 routing).tile 0).net.input 4 1 = [oneFlit] ∧
      (run0 routing).wants 0 4 1 = some 4 ∧ (run0 routing).grant 0 4 = some (4, 1) ∧
      (oneFlit.arrive true).parityBad = true ∧ (oneFlit.arrive false).parityBad = false) ∧
    (∀ poison, (run0 prog).forTile 0 (pktOf 0 [7] poison 0).header = true ∧ pktQueue (pktOf 0 [7] poison 0).header = 0 ∧
      pktOp (pktOf 0 [7] poison 0).header = 0 ∧ isPoisoned (pktOf 0 [7] poison 0) = poison) ∧
    (((run0 prog).tile 0).queues[0]).isOpen = false ∧ (((run0 listening).tile 0).queues[0]).isOpen = true ∧
    (((run0 listening).tile 0).queues[0]).held + (pktOf 0 [7] false 0).data.length ≤ 32 ∧
    32 < (((run0 full).tile 0).queues[0]).held + (pktOf 0 [7] false 0).data.length ∧
    (((run0 listening).drainStage 0).tile 0).net.ejected 0 = some (pktOf 0 [7] false 0) ∧
    pktClass (pktOf 0 [7] false 0).header = 0 ∧
    pktOp (pktOf 5 [] false 3).header = 5 ∧ pktStatus (pktOf 5 [] false 3).header < 4 := by decide +kernel

/-- The descriptor of a MOVE of one row from tile 1. -/
def fromTile1 : List Byte := [4 + 256, mainAddr 1 0, 2 ^ 48 + 4, 512, 0, 0, 0, 0].flatMap (leBytes 8)
/-- A tile that waits for a row of another tile, or for its acknowledgement, or for one it no longer wants. -/
def asking (write gone : Bool) : Tile :=
  { prog with tags := [(0, some ⟨write, mainAddr 1 0, 0, gone⟩)],
              dma := { running := some { moving with desc := fromTile1 } } }
def guestRow0 : Tile := { prog with decl := { guestRows := ⟨0, 1⟩ } }
/-- A request for row `r` that a router has marked. -/
def marked (p : Packet) : Packet := { p with marked := true }
theorem witness_RemoteRows :
    ((run0 prog).inv = true ∧ (run0 prog).forTile 0 (rowRequest 1 [] (mainAddr 0 (895 * 512))).header = true ∧
      (run0 prog).tileHalted 0 = false ∧ (put { running with st := .faulted } prog).tileHalted 0 = true ∧
      pktOp (rowRequest 1 [] (mainAddr 0 (895 * 512))).header = 1 ∧
      requestRow 0 (rowRequest 1 [] (mainAddr 0 (895 * 512))) = some 895 ∧
      requestRow 0 (rowRequest 1 [] (mainAddr 0 (896 * 512))) = none ∧
      isPoisoned (rowRequest 1 [] 0) = false ∧ isPoisoned (marked (rowRequest 1 [] 0)) = true ∧
      prog.decl.allows 0 false 0 895 = true ∧ prog.decl.allows 0 true 0 0 = true) ∧
    (((run0 guestRow0).tile 0).decl.allows 0 false 0 0 = false ∧
      ((run0 guestRow0).tile 0).decl.allows 0 true 0 0 = false) ∧
    (pktOp (rowRequest 2 (List.replicate 64 0) (mainAddr 0 0)).header = 2 ∧
      (rowRequest 2 (List.replicate 64 0) (mainAddr 0 0)).data.length = 65 ∧
      pktPoison (pktOf 2 (List.replicate 65 0) true 0).header = true ∧
      (marked (rowRequest 2 (List.replicate 64 0) 0)).marked = true) ∧
    ((run0 (asking false false)).frameOf 0 = some 0 ∧ dmaOp fromTile1 = 1 ∧
      ((run0 (asking false false)).tile 0).decl.allows 0 true 0 (dmaDst fromTile1 + 0) = true) ∧
    (∀ write gone, sget none ((run0 (asking write gone)).tile 0).tags
      (pktTag (pktOf 4 (List.replicate 64 0) false 0).header) =
      some ⟨write, mainAddr 1 0, 0, gone⟩) ∧
    (pktStatus (pktOf 4 [] false 6).header ≠ 0 ∧ isPoisoned (pktOf 4 (List.replicate 64 0) true 0) = true) := by decide
theorem witness_RemoteRows_running :
    ((run0 (asking false false)).tile 0).dma.running = some { moving with desc := fromTile1 } := rfl

def toGateway (south : Bool) (op a : Nat) (rest : List W64) (poison : Bool) : Packet :=
  sentPacket (packHeader { kind := if south then 2 else 1, queue := 2, cls := 1, op := op, len := 1, srow := 0,
                           scol := 0
                           frame := 0, poison := poison }) (BitVec.ofNat 64 a :: rest)
def tupleUp : Packet :=
  sentPacket (packHeader { kind := 1, queue := 0, cls := 0, op := 0, len := 1, srow := 0, scol := 0, frame := 0 }) [7]
def loadedQueue : Frame := { running with queue := [⟨0, false, [1]⟩] }
def fullQueue : Frame := { running with queue := List.replicate 64 ⟨0, false, [1, 2, 3, 4]⟩ }
theorem witness_GatewaysAndSupervisorQueues :
    (pktKind (toGateway true 1 (2 * stackSize) [] false).header = 2 ∧
      pktQueue (toGateway true 1 (2 * stackSize) [] false).header = 2 ∧
      gatewayServes true (requestAddr (toGateway true 1 (2 * stackSize) [] false)) = true ∧
      gatewayServes false (requestAddr (toGateway false 2 stagingBase [] false)) = true ∧
      gatewayServes false (requestAddr (toGateway false 1 (2 * stackSize) [] false)) = false ∧
      isPoisoned (toGateway false 1 0 [] true) = true ∧
      (toGateway false 2 stagingBase (List.replicate 64 0) false).data.length = 65 ∧
      (run0 prog).gatewayWaits 0 0 (2 * stackSize) = false ∧
      ({ run0 prog with pcs := [(0, { retiring := some 0 })] } : State).gatewayWaits 0 0 0 = true) ∧
    (pktKind tupleUp.header = 1 ∧ pktQueue tupleUp.header = 0 ∧ pktOp tupleUp.header = 0 ∧ isPoisoned tupleUp = false ∧
      pktFrameIx tupleUp.header = 0 ∧ ((run0 prog).frame 0).waiting = [] ∧
      ((put loadedQueue prog).frame 0).queueHeld + tupleUp.data.length ≤ 256 ∧
      256 < ((put fullQueue prog).frame 0).queueHeld + tupleUp.data.length ∧
      (State.reset.frame 0).st = .empty) ∧
    (((put loadedQueue prog).frame 0).queue = [⟨0, false, [1]⟩] ∧ (put loadedQueue prog).freeSlot ≠ none) ∧
    (0 < (run0 prog).tileCount ∧ (run0 prog).frameOf 0 = some 0) := by decide

/-! ### Witnesses: clocks, power, firmware, resets -/

/-- Frame 0's tile 0 as after reset, with dictionary entries set. -/
def withOd (s : State) (entries : List (Nat × Nat × Nat)) : State :=
  entries.foldl (fun s e => s.odSet e.1 e.2.1 e.2.2) s

theorem witness_MonitorCommands :
    (State.reset.inv = true ∧ State.reset.sup.ready = true) ∧
    Accepts State.reset .pcie 0x3000 0x04 1 ∧ Accepts State.reset .pcie 0x3000 0x04 2 ∧
    Accepts State.reset .can 0x3000 0x04 3 ∧ Accepts State.reset (.uzon 5) 0x3000 0x04 4 ∧
    (State.reset.point 63).state ≠ 1 ∧ (({ State.reset with monitors := [(63,
      { state := 1 })] } : State).point 63).state = 1 := by
  refine ⟨by decide, ⟨by decide, by decide +kernel⟩, ⟨by decide, by decide +kernel⟩, ⟨by decide, by decide +kernel⟩,
    ⟨by decide, by decide +kernel⟩, by decide, by decide⟩

/-- The clock runs on the internal oscillator; a return has been asked for. -/
def onOscillator (n : Option Nat) : State :=
  { State.reset with clock := { State.reset.clock with onInternal := true, returning := n, frozenRef := 256000 } }
theorem witness_ClockMonitorAndFailOver :
    (State.reset.inv = true ∧ State.reset.power.on = true ∧ State.reset.clock.onInternal = false ∧
      (1010 ≠ 0 ∧ 100 * (1010 * State.reset.clock.windows.length) ≤ 101 * State.reset.clock.windows.sum ∧
        99 * State.reset.clock.windows.sum ≤ 100 * (990 * State.reset.clock.windows.length)) ∧
      ¬ (100 * (1011 * State.reset.clock.windows.length) ≤ 101 * State.reset.clock.windows.sum) ∧
      (∀ k : Fin 24, (State.reset.link k).st = .disabled ∨ (State.reset.link k).st = .failed)) ∧
    ((onOscillator none).clock.onInternal = true ∧ (onOscillator none).clock.returning = none ∧
      (onOscillator (some 99)).clock.returning = some 99 ∧
        100 * (256 * 1010) ≤ 101 * (onOscillator none).clock.frozenRef ∧
      99 * (onOscillator none).clock.frozenRef ≤ 100 * (256 * 990)) ∧
    Accepts (onOscillator none) .pcie 0x2F01 0x04 1 := by
  refine ⟨by decide, by decide, by decide, by decide +kernel⟩

theorem witness_GovernorsAndPowerLoss :
    (State.reset.inv = true ∧ State.reset.power.on = true ∧ State.reset.power.fastPath = false ∧
      State.reset.power.alert = false ∧ State.reset.power.hottest < 950 ∧ State.reset.power.inputOut = false) ∧
    (1250 < 1251 ∧ (11399 < 11400 ∨ 12600 < 11399) ∧ (12601 < 11400 ∨ 12600 < 12601) ∧ 10200 ≤ 11399 ∧
      10199 < 10200 ∧ 1150 ≤ (1150 : Int)) ∧
    ({ State.reset with power := { State.reset.power with droopUpper := 1 } }.droop false ≠ 0 ∨
      { State.reset with power := { State.reset.power with droopUpper := 1 } }.droop true ≠ 0) ∧
    ({ State.reset with power := { State.reset.power with droopUpper := 1 } }.droop false = 1 ∧
      ∀ p ∈ State.reset.power.sag, (false : Bool) ≠ decide (16 ≤ p.1) → p.2 < 300) := by decide

/-- A boot that finds nothing wrong. -/
def cleanBoot : BootInputs :=
  { flashGood := true, nodeId := 5, clkSel := true, sourceWindows := List.replicate 100 1000, pcieRefclk := true
    perstHigh := true, lanesRepaired := [], untrainable := [], badStacks := [], rowFailures := [], tileFailures := []
    stepEnds := [], selfTestTime := 0, philoxGood := true, inputMillivolts := 12000 }
theorem clean_cleanBoot : BootsClean State.reset cleanBoot :=
  ⟨by decide, rfl, by decide, by decide, by decide, by decide⟩

/-- The boot logic waits for a recovery image that stands in staging memory: a header and no code, and nothing at
all. -/
def recovering (img : List Byte) : State :=
  { State.reset with sup := { ready := false, recovery := true }, host := { State.reset.host with dbH2s := 1 },
                     mem := Mem.write [] stagingBase img }

theorem witness_DeviceResets :
    (State.reset.inv = true ∧ State.reset.flash.bootImage = some (false, false) ∧ State.reset.power.tripped = none ∧
      State.reset.power.on = true ∧ cleanBoot.nodeId ≠ 0) ∧
    BootsClean State.reset cleanBoot ∧
    BootsClean { State.reset with power := { State.reset.power with on := false, tripped := some 116 } } cleanBoot ∧
    (State.reset.can.named 127 = true ∧ State.reset.can.named 0 = true ∧
      (withOd State.reset [(0x1E40, 0x0C, 1)]).odGet 0x1E40 0x0C 0 ≠ 0 ∧
        (withOd State.reset [(0x1E40, 0x0C, 0)]).odGet 0x1E40 0x0C 0 = 0) ∧
    ({ State.reset with flash := { State.reset.flash with imageA := {} } }.flash.bootImage = none) ∧
    ({ cleanBoot with inputMillivolts := 10800 }.inputMillivolts ≤ 10800 ∧
      { State.reset with power := { State.reset.power with on := false } }.power.on = false) ∧
    ((recovering []).sup.recovery = true ∧ bit (recovering []).host.dbH2s.toNat 0 = true ∧
      (recovering []).readStaging stagingBase 256 = (⟨(recovering []).mem.read stagingBase 256, false⟩, recovering []) ∧
      imageState 0 ((recovering []).mem.read stagingBase 256) ≠ 1) := by
  refine ⟨by decide, clean_cleanBoot, ⟨by decide, rfl, by decide, by decide, by decide, by decide⟩, by decide, by decide, ⟨by decide, rfl⟩,
    rfl, by decide, rfl, ?_⟩
  have h : sliceNat ((recovering []).mem.read stagingBase 256) 0 4 ≠ 0x46574C4D := by decide +kernel
  simp only [imageState, h, ne_eq, not_false_eq_true, true_or, if_true]
  decide

/-- An image of no code, with the digest of its body. -/
def emptyImage : List Byte :=
  leBytes 4 0x46574C4D ++ leBytes 4 1 ++ leBytes 2 0 ++ leBytes 2 0 ++ leBytes 4 0 ++ sha384 [] ++ zeroBytes 192

theorem witness_FirmwareAndTestAccess :
    (State.reset.inv = true ∧ (∀ f : Fin 8, (State.reset.frame f).st = .empty ∧
      (State.reset.frame f).transition = none)) ∧
    Accepts (withOd State.reset [(0x3102, 0x03, 256)]) .pcie 0x3102 0x01 1 ∧
    (touchesResults (stagingBase + 0) 256 = false ∧ 0 + 256 ≤ 0x1000000 ∧
      (recovering emptyImage).readStaging stagingBase 256 =
        (⟨(recovering emptyImage).mem.read stagingBase 256, false⟩, recovering emptyImage)) ∧
    (Config.signatureVerifies (sha384 (slice emptyImage 0 64)) (slice emptyImage 64 48)
      (slice emptyImage 112 48) = true →
      imageState 0 emptyImage = 1) ∧
    imageState 0 (zeroBytes 256) ≠ 1 ∧
    Accepts State.reset .pcie 0x3102 0x01 3 ∧ Accepts State.reset .pcie 0x3102 0x01 4 ∧
    ({ State.reset with sup := { State.reset.sup with asleep := true, programming := some [] } }.sup.asleep = true) :=
      by
  refine ⟨by decide, ⟨by decide, by decide +kernel⟩, ⟨by decide, by decide, rfl⟩, ?_, ?_,
    ⟨by decide, by decide +kernel⟩,
    ⟨by decide, by decide +kernel⟩, by decide⟩
  · intro h
    have h1 : sliceNat emptyImage 0 4 = 0x46574C4D := by decide +kernel
    have h2 : sliceNat emptyImage 12 4 = 0 := by decide +kernel
    have h3 : sliceNat emptyImage 8 2 = 0 := by decide +kernel
    have h4 : emptyImage.length = 256 := by decide +kernel
    have h5 : sha384 (slice emptyImage 256 0) = slice emptyImage 16 48 := by decide +kernel
    simp [imageState, h1, h2, h3, h4, h5, h]
  · have h : sliceNat (zeroBytes 256) 0 4 ≠ 0x46574C4D := by decide +kernel
    simp [imageState, h]

/-! ### Witnesses: dictionary and CAN -/

/-- A read of OD 0x1000.00. -/
def readOf (p : Path) : Access := { path := p, write := false, index := 0x1000, sub := 0, data := [], client := 1 }
def backlog : State := { State.reset with queue := List.replicate 32 (readOf .can) }
theorem witness_RequestQueueArrivals :
    ((readOf .can).path = .can ∧ (readOf (.uzon 4095)).path = .uzon 4095 ∧ (readOf .pcie).path = .pcie) ∧
    (backlog.queue.length = 32 ∧ ({ State.reset with queue := List.replicate 31
                                                       (readOf .can) } : State).queue.length < 32) ∧
    (State.reset.queueFresh = 0 ∧ State.reset.can.onBus = true ∧ State.reset.dw.stat ≠ 1 ∧ State.reset.dw.stat ≠ 2 ∧
      backlog.dw.stat ≠ 1 ∧ backlog.dw.stat ≠ 2 ∧
      ({ State.reset with dw := { State.reset.dw with stat := 2 } } : State).dw.stat = 2) := by decide

/-- A session of client 3, and the segments that may follow. -/
def open3 (write : Bool) (n : Nat) : Session := ⟨.can 3, write, 0x2305, 1, zeroBytes n, n⟩
def segment3 (write final toggle : Bool) (offset : Nat) : Segment :=
  ⟨.can 3, write, 0x2305, 1, offset, [1], final, toggle⟩
def withSession (x : Session) : State := { State.reset with sessions := [x] }

theorem witness_DictionaryAccesses :
    (State.reset.inv = true ∧ State.reset.sup.ready = true ∧ State.reset.writeCode .can 0x1000 0 [0] ≠ 0 ∧
      State.reset.writeCode .can 0x1017 0 [0x10, 0] = 0 ∧ (ownRow .can 0x1017 0 16).isNone = true ∧
      State.reset.writeCode .pcie 0x2020 1 [1] = 0 ∧ (ownRow .pcie 0x3000 4 1).isSome = true ∧
      State.reset.writeCode .pcie 0x3000 4 [1] = 0) ∧
    ((withSession (open3 true 5)).hears (sessionPath (segment3 true false true 5).who) = true ∧
      (withSession (open3 true 5)).session (.can 3) = some (open3 true 5) ∧
        (open3 true 5).write = (segment3 true false true 5).write ∧
      (segment3 true true true 5).offset = (open3 true 5).offset ∧
      (withSession (open3 true 5)).queue.length < 32 ∧ (segment3 false true true 5).write ≠ (open3 true 5).write ∧
      (segment3 true false false 5).toggleOk = false ∧ (segment3 true false true 6).offset ≠ (open3 true 5).offset) ∧
    ((withSession { open3 false 57 with offset := 0 }).session (.can 3) = some { open3 false 57 with offset := 0 } ∧
      0 + 56 < (open3 false 57).buffer.length ∧ (open3 false 56).buffer.length ≤ 0 + 56) := by
  refine ⟨⟨by decide, by decide, by decide +kernel, by decide +kernel, by decide +kernel, by decide +kernel,
    by decide +kernel,
    by decide +kernel⟩, by decide, by decide⟩

def storingNow (restore : Bool) : State :=
  { State.reset with storing := some { copy := {}, toA := true, restore := restore, path := .can,
                                       index := odKey 0x1010 1 } }
theorem witness_StoresAndRestores : State.reset.inv = true ∧ Accepts State.reset .can 0x1010 1 0x65766173 ∧
    Accepts State.reset .pcie 0x1010 3 0x65766173 ∧ Accepts State.reset .can 0x1011 3 0x64616F6C ∧
    (∀ r, ((storingNow r).storing.map fun x => (x.restore, x.client.isNone)) = some (r, true)) := by
  refine ⟨by decide, ⟨by decide, by decide +kernel⟩, ⟨by decide, by decide +kernel⟩, ⟨by decide, by decide +kernel⟩,
    by decide⟩

/-- A node that watches node 9 every 10 ms. -/
def watching : State := withOd State.reset [(0x1016, 1, 10 + 9 * 2 ^ 16)]
theorem witness_NetworkManagementAndHeartbeats :
    (State.reset.can.named 0 = true ∧ State.reset.can.named 127 = true ∧ State.reset.can.named 126 = false) ∧
    (State.reset.odGet 0x1017 0 1000 ≠ 0 ∧ State.reset.can.onBus = true ∧ State.reset.can.nmt ≠ .initialisation) ∧
    (watching.consumerTime 0 ≠ 0 ∧ 0 ∉ watching.can.timedOut) := by decide

def alarmed (busOff : Bool) (nmt : Nmt) : State :=
  { State.reset with can := { State.reset.can with queue := [⟨0x1000, 0x100, 0⟩], busOff := busOff, nmt := nmt,
                                                   held := [0x1000] } }
theorem witness_CanControllerAndEmergencies :
    ((alarmed false .operational).can.cannotSend = false ∧ (alarmed false .operational).can.busOff = false ∧
      (alarmed true .operational).can.busOff = true ∧ (alarmed true .operational).can.cannotSend = false ∧
      (alarmed false .stopped).can.cannotSend = true) ∧
    Accepts State.reset .can 0x1003 0 0 ∧ Accepts (alarmed false .operational) .can 0x1003 0 0 ∧
    (State.reset.inv = true ∧ State.reset.can.onBus = true ∧ State.reset.can.passive = false ∧
      (alarmed true .operational).can.onBus = false) ∧
    (¬ ((alarmed false .stopped).can.nmt = .preOperational ∨ (alarmed false .stopped).can.nmt = .operational) ∧
      (∀ x ∈ State.reset.sessions, sameClient x.who (.can 3) = false) ∧
      (withSession (open3 true 5)).session (.can 3) = some (open3 true 5) ∧ backlog.queue.length = 32) := by
  refine ⟨by decide, ⟨by decide, by decide +kernel⟩, ⟨by decide, by decide +kernel⟩, by decide, by decide⟩

/-! ### Witnesses: frames, columns, maintenance -/

/-- Frame 0 of column 0 in a state. -/
def frame0 (st : FrameState) (tr : Option Transition) : State :=
  put { st := st, latched := some band0, transition := tr } prog

theorem witness_FrameLifecycle :
    ((∀ v ∈ [1, 2, 3, 4, 5, 6], State.reset.writeCode .can 0x2100 0x01 (leBytes 1 v) = 0) ∧
      State.reset.sup.ready = true) ∧
    ((State.reset.frame 0).st = .empty ∧ (State.reset.frame 0).transition = none ∧
      State.reset.bandCode 0 (State.reset.latchEntries 0) = 0) ∧
    ((State.reset.loadChecks 0 (State.reset.latchEntries 0) (State.reset.odGet 0x2100 0x0A 0)).1 ≠ 0) ∧
    ((∃ t ∈ (frame0 .loaded none).frameTiles 0, ((frame0 .loaded none).tile t).hasEnded = false) ∧
      ((frame0 .loaded none).frame 0).st = .loaded ∧ ((frame0 .stopped none).frame 0).endedAll = false) ∧
    (((frame0 .selftest none).frame 0).st = .selftest ∧ ((frame0 .running (some .stop)).frame 0).transition ≠ none ∧
      (frame0 .faulted none).inv = true) ∧
    ((frame0 .loaded (some .load)).bandPending band0 = false ∧
      ((frame0 .stopped (some .reset)).frame 0).latched = some band0 ∧
      ((frame0 .running (some .stop)).frame 0).st = .running ∧
      ((frame0 .selftest none).failRows ([].filter fun p => (frame0 .selftest none).frameHas 0 p.1 &&
        decide (p.2 < 896))).1 = []) := by
  refine ⟨by decide +kernel, by decide +kernel, by decide +kernel, by decide +kernel, by decide, by decide⟩

/-- An image set for column 0 of the lower 24 rows, of 24 tile entries without programs (R269, R270). -/
def setHeader : List Byte :=
  leBytes 4 0x53494D4C ++ leBytes 2 1 ++ leBytes 2 1 ++ [48, 1, 1, 1] ++ leBytes 4 128 ++ leBytes 4 24 ++ zeroBytes 4 ++
    leBytes 8 1664 ++ zeroBytes 4 ++ leBytes 4 0xF63EA25B ++ zeroBytes 88
/-- The set stands at stack address 0, and frame 0 is set to take it. -/
def loadable : State :=
  withOd { State.reset with mem := Mem.write [] 0 setHeader } [(0x2100, 0x04, 1)]
set_option maxRecDepth 100000 in
theorem witness_FrameLifecycle_load : (loadable.odSet 0x2100 3 0).odGet 0x2100 0x0A 0 = 0 ∧
    ((loadable.odSet 0x2100 3 0).loadChecks 0 ((loadable.odSet 0x2100 3 0).latchEntries 0) 0).1 = 0 := by
  refine ⟨by decide +kernel, by decide +kernel⟩

theorem witness_ColumnRetirement :
    (State.reset.inv = true ∧ Accepts State.reset .pcie 0x2012 0x03 3 ∧
      State.reset.grid.columns.getD 3 .factoryBad = .enabled) ∧
    (Accepts State.reset .pcie 0x2012 0x02 1 ∧ State.reset.allEmpty = true) ∧
    (State.reset.grid.columns.getD 49 .factoryBad ≠ .enabled ∨ State.reset.grid.columns.getD 0 .factoryBad ≠ .enabled ∨
      ({ State.reset.grid with columns := State.reset.grid.columns.set 3 .pending } : Grid).columns.getD 3 .factoryBad ≠ .enabled) := by
  refine ⟨⟨by decide, ⟨by decide, by decide +kernel⟩, by decide⟩, ⟨⟨by decide, by decide +kernel⟩, by decide⟩,
    by decide⟩

/-- Unit 1 scrubs from its first address to its end. -/
def scrubbing (here upTo : Nat) (recheck : Option Nat) : State :=
  withOd { State.reset with scrubs := [(1, { running := true, recheck := recheck })] } [(0x2821, 0x06, here),
    (0x2821, 0x04, upTo)]
theorem witness_ScrubPasses :
    (State.reset.inv = true ∧ Accepts State.reset .pcie 0x2820 0x01 1 ∧ Accepts State.reset .can 0x2824 0x01 2) ∧
    ((withOd State.reset [(0x2821, 0x03, 0), (0x2821, 0x04, 64)]).scrubRefused 1 = false ∧
      State.reset.scrubRefused 1 = true) ∧
    ((scrubbing 0 64 none).scrub 1 = { running := true } ∧
      (scrubbing 0 64 none).odGet (scrubIndex 1) 0x06 0 < (scrubbing 0 64 none).odGet (scrubIndex 1) 0x04 0 ∧
      (scrubbing 0 64 none).scrubPass 1 0 = none ∧
      { scrubbing 0 64 none with pcs := [(0, { state := 1 })] }.scrubPass 1 0 = some 64) ∧
    (((scrubbing 0 64 none).scrubLook 0).ce = false ∧
      ({ scrubbing 0 64 none with errs := [(0, { bits := 1 })] }.scrubLook 0).ce = true) ∧
    (((scrubbing 64 64 (some 0)).scrub 1).recheck = some 0 ∧
      (scrubbing 64 64 none).odGet (scrubIndex 1) 0x04 0 ≤ (scrubbing 64 64 none).odGet (scrubIndex 1) 0x06 0) ∧
    ({ scrubbing 0 64 none with pcs := [(0, { retiring := some 1 })] }.scrubPass 1 0 = none ∧
      { scrubbing 0 64 none with pcs := [(0, { retiring := some 1 })] }.placeRetiring 0 = true) ∧
    (({ State.reset with scrubs := [(1, { running := true,
                                          writeBack := some ⟨0, zeroBytes 64, false, []⟩ })] }.scrub 1).writeBack =
        some ⟨0, zeroBytes 64, false, []⟩ ∧ State.reset.scrubErrs 1 0 = [] ∧
      { State.reset with errs := [(0, { bits := 1 })] }.scrubErrs 1 0 ≠ []) := by
  refine ⟨⟨by decide, ⟨by decide, by decide +kernel⟩, ⟨by decide, by decide +kernel⟩⟩, by decide +kernel,
    by decide +kernel,
    by decide +kernel, by decide +kernel, by decide +kernel, by decide⟩

theorem witness_StackRetirementAndTests :
    (State.reset.inv = true ∧ Accepts State.reset .pcie 0x2803 0x01 0xC3FF ∧
      Accepts State.reset .pcie 0x2803 0x01 0xC300 ∧
      255 / 64 = (3 : Fin 4).val ∧ State.reset.pcBacked (retireTarget 0xC3FF) = true) ∧
    (({ State.reset with pcs := [(255, { retiring := some 3 })] } : State).pcOf 255).retiring = some 3 ∧
    ((0, 895) ∈ ({ State.reset with tests := { rows := [(0, 895)], pcs := [(255, 7)] } } : State).tests.rows ∧
      State.reset.mayTest 0 = true ∧ (State.reset.tile 0).freeSpare (895 / 128) ≠ none ∧
        State.reset.tooManyPasses [] = false ∧
      State.reset.tooManyPasses [0, 0, 0] = true) ∧
    (Accepts { State.reset with tests := { pcs := [(255, 7)] } } .pcie 0x2D02 0x05 1 ∧
      ({ State.reset with tests := { pcs := [(255, 7)] } } : State).tests.pcs.find? (fun p => p.1 == 255) = some
        (255, 7) ∧
      State.reset.mayTestPc 255 = true) ∧ State.reset.power.on = true := by
  refine ⟨⟨by decide, ⟨by decide, by decide +kernel⟩, ⟨by decide, by decide +kernel⟩, by decide, by decide +kernel⟩,
    by decide,
    by decide, ⟨⟨by decide, by decide +kernel⟩, by decide, by decide⟩, by decide⟩

theorem no_errors_row (t row req : Nat) : (State.reset.readRow t row req).1.bad = false := rfl

/-! ### Witnesses: mailboxes, numerics watch, tally and roll call -/

/-- The host's link is up and PERST_N is high. -/
def hosted : State := { State.reset with host := { State.reset.host with perstHigh := true, linkUp := true } }
/-- The host's link is up, MSI-X is enabled, and vector 10 is not masked. -/
def vectored : State := { hosted with host := { hosted.host with msixEnable := true, msix := [(43, 0)] } }
def mailed (n m : Nat) : State := { hosted with mail :=
                                                  [(0, { h2s := { words := List.replicate n 1 },
                                                         s2h := { words := List.replicate m 1 } })] }

theorem witness_Mailboxes :
    ((mailed 15 15).inv = true ∧ (mailed 15 15).hostReaches = true ∧ (mailed 15 15).startingUp = false ∧
      State.reset.hostReaches = false ∧
      ({ hosted with sup := { hosted.sup with ready := false } } : State).startingUp = true) ∧
    (((mailed 15 15).mailPair 0).h2s.words.length = 15 ∧ ((mailed 15 15).mailPair 0).s2h.words.length = 15 ∧
      ((mailed 16 16).mailPair 0).h2s.words.length = 16 ∧ ((mailed 16 16).mailPair 0).s2h.words.length = 16 ∧
      ((mailed 1 1).mailPair 0).h2s.words = [1] ∧ ((mailed 1 1).mailPair 0).s2h.words = [1] ∧
      ((mailed 0 0).mailPair 0).s2h.words = [] ∧ ((mailed 0 0).mailPair 0).h2s.words = [] ∧
      ((mailed 16 16).mailPair 0).h2s.timeout = false ∧ ((mailed 16 16).mailPair 0).s2h.timeout = false) := by decide

theorem witness_Doorbells :
    (vectored.hostReaches = true ∧ vectored.startingUp = false ∧ vectored.vectorsHeld = false ∧
      vectored.host.vectorMasked 10 = false) ∧
    (hosted.vectorsHeld = true ∧ hosted.host.vectorMasked 10 = true) ∧
    (0x1 : W64).getLsbD 0 = true ∧ hosted.host.dbS2h.getLsbD 0 = false ∧
    (∀ b < 63, (0 : W64).getLsbD b = true → hosted.host.dbS2h.getLsbD b = true) := by decide

/-- A tile with one watch line whose slot 0 has changed, and a shadow job. -/
def watched : Tile :=
  { prog with decl := { watchLines := 1 }
              watch := { slots := [(0, { dirty := true })] } }
def tracking : Latched := { band0 with watch := [(7, 8)] }
def job7 : ShadowJob := { slot := 0, tid := 7, desc := List.replicate 64 0, retained := [] }
def shadowed : Tile := { watched with watch := { slots := [(0, { dirty := true })], job := some job7 } }
/-- The snapshot status of job 0 reads 1: it copies. -/
def copying : State := withOd (put { running with latched := some tracking } watched) [(0x2D20, 9, 1)]
theorem witness_WatchUnitsAndShadow :
    ((run0 watched).inv = true ∧ 0 < (run0 watched).tileCount ∧ (run0 watched).frameOf 0 = some 0 ∧
      (run0 watched).tileLives 0 = true ∧ 0 < ((run0 watched).tile 0).decl.watchLines ∧
      (((run0 watched).tile 0).watchSlot 0).dirty = true ∧ ((run0 watched).readLine 0 0).1.bad = false ∧
      ((run0 watched).readLine 0 0).1.data.length = 64 ∧ ((run0 watched).tile 0).decl.watchFirst = 0) ∧
    (postFrame (.marker 0 0 5 0) = 0 ∧ frameIx 0 = 0 ∧ ((run0 watched).frame 0).watched = true ∧
      (State.reset.frame 0).watched = false) ∧
    (((run0 shadowed).frame 0).st = .running ∧ ((run0 shadowed).tile 0).watch.job = some job7) := by
  refine ⟨by decide +kernel, by decide +kernel, by decide +kernel⟩
theorem witness_WatchPlaced : WatchPlaced State.reset 7 := ⟨by decide +kernel, by decide +kernel, by decide +kernel⟩
theorem witness_WatchStepClose :
    ({ run0 watched with posts := [.marker 0 0 5 0] }.openStep 0 = some 5 ∧
      { run0 watched with posts := [.marker 0 0 5 0] }.stepWhole 0 5 = true ∧
      { run0 watched with posts := [.marker 0 0 5 0] }.closesDeferred 0 = false ∧
      { run0 watched with posts := [.marker 0 0 5 1] }.stepWhole 0 5 = false ∧
      copying.closesDeferred 0 = true) ∧
    (copying.frame 0).latched = some tracking ∧ (tracking.watch.map (·.1)).Nodup ∧ (7, 8) ∈ tracking.watch ∧
      watchLength 8 ≤ 32 ∧ 9 ∉ tracking.watch.map (·.1) := by decide +kernel

/-- Device 0 owns bucket 0 of job 0: its record at 0x1000, its group of device 5 at 0x2000, its sum at 0x4000. -/
def ctx0 : TallyCtx := { st := .opened, maxPhase := false, measured := true, job := 0, m := 0, epoch := 0,
                         bucket := 0, step := 1, revision := 0, nExp := 2, e := 1, float := false, sum := 0x4000,
                           elements := 8, group := [5, 6] }
def owner (x : TallyCtx) (members : List Nat) : State :=
  withOd { State.reset with
    mem := Mem.write (Mem.write [] 0x1000 (leBytes 6 0x4000 ++ leBytes 2 0 ++ leBytes 4 8 ++ [0, 0, 0, 0] ++
      (List.replicate 8 (leBytes 2 0x8000)).flatten))
      0x2000 (leBytes 4 8 ++ leBytes 2 2 ++ leBytes 2 0 ++ leBytes 2 5 ++ leBytes 2 6)
    contexts := [(0, some x)]
    tables := [(0x2810, List.replicate 384 0)]
    rolls := [(0, { held := true, isSealed := false, step := 1, members := members })] }
    [(0x2910, 4, 0x1000), (0x2910, 5, 1), (0x2910, 6, 0x2000)]
/-- A data segment of one element, the last of contributor 0. -/
def seg (last : Bool) : BitVec 128 :=
  BitVec.ofNat 128 (1 * 2 ^ 28 + b2n last * 2 ^ 52 + unsigned 12 (-3) * 2 ^ 100 + unsigned 12 1 * 2 ^ 112)
def from5 : TallySource := ⟨5, 0, none⟩

/-- A MAX segment, which reports the exponent alone. -/
def segMax : BitVec 128 := BitVec.ofNat 128 (1 * 2 ^ 28 + 2 * 2 ^ 48 + 2 ^ 52 + unsigned 12 (-3) * 2 ^ 100)
/-- The owner's view of a segment, and what its checks say. -/
def seen (s : State) (h : BitVec 128) : OwnerView × State := s.ownerView (tallyHeader h)
def verdict (s : State) (h : BitVec 128) : Nat :=
  ((seen s h).2.ownerCheck (seen s h).1 from5 (tallyHeader h) (segmentPairs (tallyHeader h) (leBytes 8 1))).1
/-- The owner with no context yet. -/
def fresh : State := { owner ctx0 [5, 6] with contexts := [] }
/-- A notice of kind `k`. -/
def notice (k : Nat) : BitVec 128 := BitVec.ofNat 128 (5 * 2 ^ 48 + k * 2 ^ 53)

theorem witness_TallySegmentsAtOwner :
    ((owner ctx0 [5, 6]).inv = true ∧ (tallyHeader (seg true)).op < 5 ∧ (tallyHeader (seg true)).last = true ∧
      (tallyHeader (seg false)).last = false ∧
      (tallyHeader (seg true)).retract = false ∧ (tallyHeader (BitVec.ofNat 128 (5 * 2 ^ 48))).op = 5) ∧
    ((seen (owner ctx0 [5, 6]) (seg true)).1.ctx = some (0, ctx0) ∧ verdict (owner ctx0 [5, 6]) (seg true) = 0) ∧
    (verdict (owner ctx0 []) (seg true) = 6 ∧ (seen (owner ctx0 []) (seg true)).1.ctx = some (0, ctx0)) ∧
    ((seen fresh segMax).1.ctx = none ∧ verdict fresh segMax = 0 ∧ (tallyHeader segMax).op = 2 ∧
      (seen fresh segMax).1.rec?.isSome = true ∧
      (seen fresh segMax).2.freeCtx ((seen fresh segMax).2.channelOf 0x4000) = some 0) ∧
    (ctx0.n + 1 < ctx0.nExp ∧ ({ ctx0 with nExp := 1 } : TallyCtx).n + 1 = ({ ctx0 with nExp := 1 } : TallyCtx).nExp ∧
      ctx0.n ≠ ctx0.nExp ∧ ctx0.sum % 64 = 0 ∧ segmentPairs (tallyHeader (seg true)) (leBytes 8 1) = [(0, 1)]) ∧
    (fresh.mem.wf = true ∧ errsIn fresh.errs (0x4000 / 64 * 64) 64 = [] ∧ fresh.placeRetiring 0x4000 = false) := by
  refine ⟨by decide +kernel, by decide +kernel, by decide +kernel, by decide +kernel, by decide +kernel,
    by decide +kernel⟩

theorem witness_TallyContexts :
    ((owner ctx0 [5, 6]).inv = true ∧ (owner ctx0 [5, 6]).ctxAt 0 = some ctx0 ∧ ctx0.st = .opened ∧
      ctx0.discard = false ∧
      (owner { ctx0 with st := .closing } []).ctxAt 0 = some { ctx0 with st := .closing } ∧
      ({ ctx0 with st := .closing } : TallyCtx).st ≠ .opened ∧
      (∀ i < ceilDiv ctx0.bytes 64, (owner ctx0 []).placeRetiring (ctx0.sum + 64 * i) = false)) ∧
    (boundPasses 1 (-3) 1 = true ∧ boundPasses 2 16 1 = false) ∧
    ((owner ctx0 []).noticeLink 0 = none ∧ (owner ctx0 []).epochSlot 0 0 = some 0 ∧
      (tallyHeader (notice 0)).op = 5 ∧ (tallyHeader (notice 0)).count = 0 ∧ (tallyHeader (notice 1)).count = 1 ∧
      (tallyHeader (notice 2)).count = 2 ∧ ((owner ctx0 []).roll 0).member = false ∧
      ({ owner ctx0 [] with rolls := [(0, { member := true })] }.roll 0).member = true) := by
  refine ⟨by decide +kernel, by decide +kernel, by decide +kernel⟩


/-! ### Witnesses: senders, the roll call, update engines -/

/-- Send list at 0x5000 of two records: the first, of device 0 to device 5, reads its source at 0x6000 (one float of
1.0); the second's source is the reserved part of the map. Roll list at 0x3000: devices 0, 5, 6, and 7 owner-only. -/
def sender (r : Roll) : State :=
  withOd { State.reset with
    mem := Mem.write (Mem.write (Mem.write [] 0x5000
      (leBytes 6 0x6000 ++ leBytes 2 0 ++ leBytes 4 1 ++ leBytes 2 5 ++ leBytes 2 0 ++
      List.replicate 16 0 ++ leBytes 6 0xF00000000000)) 0x6000 (leBytes 4 0x3F800000))
      0x3000 (leBytes 2 0 ++ leBytes 2 5 ++ leBytes 2 6 ++ leBytes 2 0x1007)
    tables := [(0x2810, List.replicate 384 0)]
    rolls := [(0, r)] }
    [(0x2910, 0x07, 0x5000), (0x2910, 0x08, 2), (0x2910, 0x11, 0x3000), (0x2910, 0x12, 4), (0x2910, 0x13, 0),
      (0x2910, 0x14, 5)]
def memberRoll : Roll := { held := true, isSealed := false, member := true, step := 1, members := [0, 5] }
def withRecord (q : SendRec) : State := sender { memberRoll with records := [(0, q)] }
/-- A source that holds an infinity. -/
def infinite : State := { sender memberRoll with mem := Mem.write (sender memberRoll).mem 0x6000
                                                   (leBytes 4 0x7F800000) }

theorem witness_TallySenders :
    (((sender memberRoll).inv = true ∧ ((sender memberRoll).roll 0).record 0 = {} ∧
      ((sender memberRoll).roll 0).sends = true ∧
      (sender memberRoll).inOrder 0 0 = true) ∧ 0 < (sender memberRoll).sendCount 0 ((sender memberRoll).sendSlot 0)) ∧
    ((withOd (sender memberRoll) [(0x2910, 0x07, 0xF00000000000)]).sendAt 0 0).1 = none ∧
    ((((sender memberRoll).sendAt 0 0).1.isSome = true ∧
      ((((sender memberRoll).sendAt 0 0).1.map fun x => ((sender memberRoll).contribution x).1.late) = some none)) ∧
      ((infinite.sendAt 0 0).1.map fun x => (infinite.contribution x).1.late) = some (some 0)) ∧
    ((((withRecord { st := .setAside }).roll 0).record 0).st = .setAside ∧
      ((withRecord { st := .setAside }).roll 0).sends = true ∧
      ((withRecord { st := .setAside }).roll 0).record 0 = { st := .setAside }) ∧
    ((((withRecord { st := .retracting, refused := true }).roll 0).record 0).st = .retracting ∧
      ((withRecord { st := .retracting, refused := true }).roll 0).stopped = false) ∧
    ((((withRecord { st := .inFlight, outstanding := 1 }).roll 0).record 0).outstanding ≠ 0 ∧
      ((withRecord { st := .inFlight, outstanding := 1 }).roll 0).sentNow 1 0 = true ∧
      ((withRecord { st := .inFlight, outstanding := 1 }).roll 0).sentNow 1 1 = false) ∧
    ((0 : Fin 16).val = 0 ∧ lateStatus 3 = true ∧ lateStatus 5 = false) := by
  refine ⟨⟨⟨by decide +kernel, by decide, by decide, by decide +kernel⟩, by decide +kernel⟩, by decide +kernel,
    ⟨⟨by decide +kernel, by decide +kernel⟩, by decide +kernel⟩, ⟨by decide, by decide, by decide⟩,
      ⟨by decide, by decide⟩,
    by decide, by decide⟩

/-- Frame 0 of the sender runs, and holds what it has of step 4 for the roll call. -/
def cameDown (y : Frame) : State := { sender {} with frames := State.reset.frames.set 0 y }
/-- The frame has released its scan-close of step 4. -/
def scanned (bad : Bool) : State := cameDown { running with scans := [(4, bad)] }
def answering (r : Roll) : State := sender { r with answers := [(5, 4, true)] }

theorem witness_RollCallAnswers :
    ((scanned false).inv = true ∧ (scanned false).rollStep 0 = some 4 ∧ (scanned true).rollStep 0 = some 4 ∧
      (cameDown { running with downs := [(4, 0)] }).rollStep 0 = some 4 ∧ (sender {}).rollStep 0 = none) ∧
    ((sender {}).isKeeper 0 = true ∧ (5, false) ∈ (sender {}).rollList 0 ∧ ((sender {}).roll 0).lateAnswer 4 = false ∧
      (∀ a ∈ ((sender {}).roll 0).answersFor 4, a.1 ≠ 5) ∧ (∃ a ∈ ((answering {}).roll 0).answersFor 4, a.1 = 5) ∧
      ((sender { kFixed := true, kStep := 4 }).roll 0).lateAnswer 4 = true ∧
      ((sender { fixed := [(5, [0])] }).roll 0).lateAnswer 5 = true ∧
      (withOd (sender {}) [(0x2910, 0x13, 5), (0x2910, 0x14, 0)]).isStandby 0 = true ∧
      (withOd (sender {}) [(0x2910, 0x13, 5), (0x2910, 0x14, 0)]).isKeeper 0 = false) ∧
    (((answering {}).roll 0).answers = (5, 4, true) :: [] ∧ (answering {}).isKeeper 0 = true ∧
      ((answering {}).roll 0).answersFor 4 ≠ [] ∧ ((answering {}).roll 0).kFixed = false ∧
        ((answering {}).roll 0).fixed = [] ∧
      ((answering { kFixed := true, kSealed := true }).roll 0).kSealed = true ∧
      ((answering { kFixed := true }).roll 0).kFixed = true ∧ ((answering { kFixed := true }).roll 0).kSealed = false) ∧
    (∀ d, (d, false) ∈ (sender {}).rollList 0 →
      ∃ a ∈ (({ answers := [(0, 4, true), (5, 4, false), (6, 4, true)] } : Roll).answersFor 4),
      a.1 = d) := by
  refine ⟨by decide +kernel, by decide +kernel, by decide +kernel, ?_⟩
  have h : (sender {}).rollList 0 = [(0, false), (5, false), (6, false), (7, true)] := by decide +kernel
  rw [h]
  simp [Roll.answersFor]

def member1 : Membership := { step := 1, revision := 1, replay := true, members := [0], sender := 0 }
/-- The keeper has fixed revision 0 of step 1 over devices 0 and 5. -/
def keeping : Roll := { memberRoll with kFixed := true, kStep := 1, kMembers := [0, 5] }
theorem witness_MembershipsAndSeals :
    ((sender memberRoll).inv = true ∧ { member1 with sender := 6 }.sender ≠ (sender memberRoll).keeperOf 0 ∧
      member1.sender = (sender memberRoll).keeperOf 0 ∧ ((sender memberRoll).roll 0).higher member1 = true ∧
      ((sender memberRoll).roll 0).higher { member1 with revision := 0 } = false ∧ member1.replay = true) ∧
    ((sender keeping).isKeeper 0 = true ∧ ((sender keeping).roll 0).kFixed = true ∧
      ((sender keeping).roll 0).kSealed = false ∧
      ((sender keeping).roll 0).kStep = 1 ∧ ((sender keeping).roll 0).kRevision = 0) ∧
    (5 ≠ (sender memberRoll).keeperOf 0 ∧ ((sender memberRoll).roll 0).held = true ∧
      ((sender memberRoll).roll 0).isSealed = false ∧
      ((sender memberRoll).roll 0).step = 1) ∧
    ((owner { ctx0 with st := .closed } []).ctxAt 0 = some { ctx0 with st := .closed } ∧ ctx0.discard = false ∧
      ctx0.step = ((owner ctx0 []).roll 0).step) := by
  refine ⟨by decide +kernel, by decide +kernel, by decide +kernel, by decide +kernel⟩

def lateRoll : Roll := { memberRoll with lateFault := some 1 }
def standing (r : Roll) : State := withOd (sender r) [(0x2910, 0x13, 5), (0x2910, 0x14, 0)]
theorem witness_LateWithdrawalAndTakeover :
    ((sender lateRoll).inv = true ∧ ((sender lateRoll).roll 0).lateFault = some 1 ∧
      ((sender lateRoll).roll 0).withdrawn = false ∧
      ((sender lateRoll).roll 0).isSealed = false ∧ ∀ p ∈ ((sender lateRoll).roll 0).records, p.2.outstanding = 0) ∧
    (((sender memberRoll).roll 0).lateFault = none ∧
      ∃ p ∈ ((withRecord { outstanding := 1 }).roll 0).records, p.2.outstanding ≠ 0) ∧
    ((sender keeping).isKeeper 0 = true ∧ 5 ∈ ((sender keeping).roll 0).kMembers ∧
      ((sender keeping).roll 0).kRevision + 1 < 15 ∧
      ((sender keeping).roll 0).kFixed = true ∧ ((sender keeping).roll 0).kSealed = false ∧
        1 = ((sender keeping).roll 0).kStep ∧
      7 ∉ ((sender keeping).roll 0).kMembers ∧ 15 ≤ ((sender { keeping with kRevision := 14 }).roll 0).kRevision + 1) ∧
    ((standing {}).isKeeper 0 = false ∧ (standing {}).isStandby 0 = true ∧ (5 : Nat) ≠ (standing {}).device ∧
      5 = (standing {}).keeperOf 0 ∧ 5 = (sender {}).standbyOf 0) ∧
    ((standing keeping).isStandby 0 = true ∧ (standing keeping).isKeeper 0 = false ∧
      ((standing keeping).roll 0).kFixed = true ∧
      ((standing keeping).roll 0).kSealed = false ∧ ((standing {}).roll 0).kFixed = false) ∧
    (0 = (standing {}).standbyOf 0) := by
  refine ⟨⟨by decide +kernel, by decide, by decide, by decide, by decide⟩,
    ⟨by decide, (0, { outstanding := 1 }), by decide, by decide⟩, by decide +kernel, by decide +kernel,
    by decide +kernel, by decide +kernel⟩


/-! ### Witnesses: update engines, weight returns, moves, snapshots and restores -/

/-- A bucket of one element at 0x4000 whose group runs AdamW. -/
def bucket (frozen : Nat) : BucketJob :=
  { job := 0, epoch := 0, bucket := 0, step := 1, area := 0x4000, elements := 1, sum := some (0, 1, 1),
    group := 1 :: BitVec.ofNat 8 frozen :: List.replicate 126 0 }
/-- Its update record at 0x6000 (master 0x8000, moments 0xA000, format `fmt`) and its bucket record at 0x1000. -/
def updating (fmt : Nat) (bs : List BucketJob) (rs : List ReturnOut) : State :=
  withOd { State.reset with
    mem := Mem.write (Mem.write [] 0x6000 (leBytes 6 0x8000 ++ leBytes 2 0 ++ leBytes 6 0xA000 ++
      leBytes 1 fmt)) 0x1000 (leBytes 6 0x4000 ++ leBytes 2 0 ++ leBytes 4 1)
    tables := [(0x2810, List.replicate 384 0)]
    buckets := bs
    returns := rs }
    [(0x2A10, 0x03, 0x6000), (0x2910, 0x04, 0x1000), (0x2910, 0x05, 1)]
def heldReturn : ReturnOut := { bucket := bucket 0, device := 5, frame := 0, left := 0, held := true }

theorem witness_UpdateEngines :
    ((updating 1 [bucket 0] []).inv = true ∧ (updating 1 [bucket 0] []).buckets.find?
      (fun b => b.area / stackSize == (0 : Fin 4).val) = some (bucket 0)) ∧
    (((updating 0 [] []).updateJob (bucket 0)).1 = none ∧ (bucket 0).push = true ∧ (bucket 0).sum = some (0, 1, 1) ∧
      (updating 1 [] []).buckets.find? (fun b => b.area / stackSize == (0 : Fin 4).val) = none ∧
      (updating 1 [] []).returns.find? (fun r => r.held && r.left == 0 &&
        r.bucket.area / stackSize == (0 : Fin 4).val) = none) ∧
    ((((updating 1 [] []).updateJob (bucket 0)).1.map fun p => (groupFrozen p.1.b.group, p.1.b.sum.isSome)) = some
      (false, true) ∧
      (((updating 1 [] []).updateJob (bucket 1)).1.map fun p => (groupFrozen p.1.b.group, p.1.b.sum.isSome)) = some
        (true, true)) ∧
    ((updating 1 [] [heldReturn]).returns.find?
      (fun r => r.held && r.left == 0 && r.bucket.area / stackSize == (0 : Fin 4).val) = some heldReturn ∧
      ((updating 1 [] []).updateJob { bucket 0 with sum := none }).1.isSome = true) ∧
    (Accepts (updating 1 [] []) .pcie (updateIndex 0) 0x08 (0 : W16).toNat ∧
      Accepts (updating 1 [] []) .pcie (updateIndex 15) 0x08 (0xFFFF : W16).toNat) ∧
    ((updating 1 [bucket 0] []).updatesOutstanding 0 = true ∧ (updating 1 [] []).updatesOutstanding 0 = false ∧
      (updating 1 [] []).epochSlot 0 ((updating 1 [] []).roll 0).sealedEpoch = some 0 ∧
        ((updating 1 [] []).bucketAt 0 0 0).1.isSome = true) := by
  refine ⟨⟨by decide +kernel, by decide +kernel⟩, ⟨by decide +kernel, by decide⟩,
    ⟨by decide +kernel, by decide +kernel⟩,
    ⟨by decide +kernel, by decide +kernel⟩, ⟨⟨by decide, by decide +kernel⟩, ⟨by decide, by decide +kernel⟩⟩,
      by decide +kernel⟩

/-- A row of bucket 0 for step 7 and frame 0, to land in row 0 of tile 0. -/
def rowTxn : Txn := ⟨packTxn { kind := 2, dst := 0, src := 5, b := 7 }, List.replicate 512 1⟩
def landingState (steps : List Nat) (active : Fin 2) : State :=
  withOd { put running { prog with active := active } with
    mem := Mem.write [] 0x7000 (leBytes 6 mainBase ++ leBytes 2 1 ++ zeroBytes 24 ++ leBytes 6 (mainBase + 512) ++
      leBytes 2 1)
    tables := [(0x2810, List.replicate 384 0)]
    rolls := [(0, { sealedSteps := steps })] } [(0x2A10, 0x05, 0x7000)]
theorem witness_WeightReturnLanding :
    ((landingState [7] 0).inv = true ∧ txnKind rowTxn.header = 2 ∧ txnDst rowTxn.header = (landingState [7] 0).device ∧
      (landingState [7] 0).linkOf rowTxn = none) ∧
    ((landingState [] 0).sealedStep 0 (returnRow rowTxn).step = none ∧
      (landingState [7] 0).sealedStep 0 (returnRow rowTxn).step = some 7 ∧
      (landingState [7] 0).epochSlot 0 (returnRow rowTxn).epoch = some 0 ∧
        ((landingState [7] 0).frame 0).st = .running) ∧
    ((landingState [7] 1).turned 0 = true ∧ (landingState [7] 0).turned 0 = false) ∧
    ((((landingState [7] 0).landingAt 0 0 0).1.map fun r => (r.rows[0]?, r.frame, (landingState [7] 0).extentsOk 0 r)) =
        some (some mainBase, 0, true)) ∧
    (regionOf mainBase = .main 0 0 ∧ (returnRow rowTxn).last = false ∧ (returnRow rowTxn).bad = false ∧
      (returnRow rowTxn).ordinal = 0) ∧
    ((landingState [7] 0).landings = [] ∧ (returnRow rowTxn).data.length = 512 ∧
      ((landingState [7] 0).tile 0).decl.allows 0 true 0 0 = true ∧
      ({ guestRows := { base := 0, count := 1 } } : TileDecl).allows 0 true 0 0 = false) := by
  refine ⟨⟨by decide +kernel, by decide +kernel, by decide +kernel, by decide +kernel⟩, by decide +kernel,
    by decide +kernel,
    by decide +kernel, by decide +kernel, by decide +kernel⟩

def moveJob (st : Nat) (ms : SMap MoveEngine) : State :=
  withOd { State.reset with moves := ms } [(0x2C20, 1, 1), (0x2C20, 6, st)]
theorem witness_MoveLists :
    ((moveJob 0 []).inv = true ∧ Accepts (moveJob 0 []) .pcie 0x2C20 0x05 1 ∧
      Accepts (moveJob 1 []) .pcie 0x2C20 0x05 1 ∧
      Accepts (moveJob 1 []) .can 0x2C20 0x05 2 ∧ Accepts State.reset .pcie 0x2C2F 0x05 1) ∧
    ((moveJob 1 []).moveState 0 = 1 ∧ (moveJob 0 []).moveState 0 ≠ 1 ∧ (moveJob 0 []).odGet 0x2C20 0x01 0 = 1 ∧
      State.reset.odGet (moveIndex 15) 0x01 0 ≠ 1 ∧ (moveJob 0 []).updatesOutstanding 0 = false ∧
        (moveJob 0 []).moveCount 0 = 0) ∧
    ((∀ e < 4, (moveJob 1 []).moveEnded 0 e = true) ∧ (∀ e < 4, ((moveJob 1 []).moveEngine 0 e).failed = false) ∧
      (∃ e < 4, ((moveJob 1 [(0, { failed := true })]).moveEngine 0 e).failed = true) ∧
      ∃ e < 4, (moveJob 1 [(0, { acks := 1 })]).moveEnded 0 e = false) := by
  refine ⟨⟨by decide +kernel, ⟨by decide, by decide +kernel⟩, ⟨by decide, by decide +kernel⟩,
    ⟨by decide, by decide +kernel⟩, ⟨by decide, by decide +kernel⟩⟩,
    by decide +kernel, by decide +kernel, by decide +kernel, ⟨0, by decide, by decide +kernel⟩,
      ⟨0, by decide, by decide +kernel⟩⟩

/-- A job whose snapshot of step 3 is due or under way, with a partner and a generation length of 2 MiB. -/
def snapping (x : Snap) (st : Nat) : State :=
  withOd { State.reset with tables := [(0x2810, List.replicate 384 0)], snaps := [(0, x)] }
    [(0x2D20, 0x02, 5), (0x2D20, 0x05, 0x200000), (0x2D20, 0x09, st)]
theorem witness_SnapshotCopies :
    ((snapping {} 0).inv = true ∧ Accepts (snapping {} 0) .pcie 0x2D20 0x08 1 ∧
      Accepts (snapping { hold := true } 1) .pcie 0x2D20 0x08 2 ∧
      Accepts (snapping {} 0x10) .can 0x2D20 0x08 3) ∧
    (((snapping { due := some 3 } 0).snap 0).due = some 3 ∧ ((snapping { due := some 3 } 0).snap 0).hold = false ∧
      (snapping { due := some 3 } 0).snapReady 0 3 = true ∧
        (withOd (snapping { due := some 3 } 0) [(0x2C20, 6, 1)]).moveState 0 = 1 ∧
      (snapping { due := some 3 } 0).moveState 0 ≠ 1 ∧
        (snapping { due := some 3 } 0).odGet 0x2D20 0x02 0xFFFF ≠ 0xFFFF ∧
      (snapping { due := some 3 } 0).partnerLost 0 = false ∧ ((snapping {} 0).snap 0).due = none) ∧
    ((snapping { due := some 3 } 0).partnerUnknown 0 = true ∧ ((snapping { due := some 3 } 0).snap 0).headsDue = [] ∧
      ((snapping { due := some 3, headsDue := [1] } 0).snap 0).headsDue ≠ [] ∧
      (snapping { due := some 3, partnerNewest := some 0 } 0).partnerUnknown 0 = false ∧
      (withOd (snapping { due := some 3, partnerNewest := some 0 } 0) [(0x2D20, 0x02,
        0xFFFF)]).odGet 0x2D20 0x02 0xFFFF = 0xFFFF ∧
      ((withOd (snapping {} 0) [(0x2D20, 0x06, 0xF00000000000), (0x2D20, 0x07, 1)]).snapExtents 0).1 = none) ∧
    ((((snapping {} 1).snapExtents 0).1.map fun xs =>
        decide (extentsEnd xs ≤ 0x200000 ∧ xs.length ≤ 1024 ∧ extentsSegments xs ≤ 65536)) = some true ∧
      (snapping {} 1).snapState 0 = 1) ∧
    ((snapping {} 2).snapState 0 = 2 ∧ ((snapping {} 2).snap 0).unanswered = 0 ∧
      ((snapping { unanswered := 1 } 2).snap 0).unanswered ≠ 0 ∧ (snapping { partner := some 1 } 3).snapState 0 = 3 ∧
      ((snapping { ownBad := true } 2).snap 0).ownBad = true ∧
        ((snapping { partner := some 1 } 3).snap 0).partner = some 1 ∧
      ((snapping { localArea := some 1 } 3).snap 0).localArea ≠ none ∧
      ({ withOd (snapping {} 2) [(0x2D20, 0x02, 5)] with
          tables := [(0x2B01, List.replicate 4096 0)], links := [(0, { st := .up })] } : State).egress 5 = some 0) := by
  refine ⟨⟨by decide +kernel, ⟨by decide, by decide +kernel⟩, ⟨by decide, by decide +kernel⟩,
    ⟨by decide, by decide +kernel⟩⟩,
    by decide +kernel, by decide +kernel, by decide +kernel⟩

/-- Hosting slot 0 of device 5 with a generation in state 1 at 0x400000. -/
def hosting : State :=
  { State.reset with
    mem := Mem.write [] 0x400000 (leBytes 4 0x534E5053 ++ leBytes 2 1 ++ [1])
    tables := [(0x2810, List.replicate 384 0),
      (0x2D30, leBytes 6 0x400000 ++ leBytes 2 5 ++ leBytes 8 0x200000 ++ List.replicate 240 0)] }
theorem witness_SnapshotCopies_hosting : ((hosting.refreshHosting 0).hostSlot 0).used = true ∧
    bits ((hosting.refreshHosting 0).odGet 0x2D31 1 0) 0 2 = 1 ∧
      ((State.reset.refreshHosting 0).hostSlot 0).used = false := by
  decide +kernel

/-- A generation at 0x200000 of `n` extents of 16 bytes, for a restore in state `st`; without extents its root digest is
that of R425. -/
def genRoot : Nat := 12516509430423507661
def genBytes (n : Nat) : List Byte := snapHeader 2 0 0 n 7 1 n 64 genRoot ++ zeroBytes 64
def restoring (n : Nat) (data : List Byte) (st : Nat) : State :=
  withOd { State.reset with
    mem := Mem.write (Mem.write (Mem.write [] 0x200000 (genBytes n)) 0x201000
      (Extent.bytes ⟨0x10000, 0, 16, 0x100000, 0⟩)) 0x300000 data
    tables := [(0x2810, List.replicate 384 0)] } [(0x2D40, 3, 0x200000), (0x2D40, 4, 0x200000), (0x2D40, 7, st)]
theorem genRoot_is : rootDigest (genHeader (genBytes 0)).bytes [] [] = genRoot := by
  have e : splice (splice (slice (genHeader (genBytes 0)).bytes 0 128) 6 [0]) 48 (zeroBytes 8) =
      ((slice (genBytes 0) 0 6 ++ zeroBytes 1 ++ slice (genBytes 0) 7 25) ++
        (slice (genBytes 0) 32 16 ++ zeroBytes 16)) ++
        (zeroBytes 32 ++ zeroBytes 32) := by decide +kernel
  have a : crc64 0 (slice (genBytes 0) 0 6 ++ zeroBytes 1 ++ slice (genBytes 0) 7 25) = 10307831236505315912 :=
    by decide +kernel
  have b : crc64 10307831236505315912 (slice (genBytes 0) 32 16 ++ zeroBytes 16) = 18157857084163597468 :=
    by decide +kernel
  have c : crc64 18157857084163597468 (zeroBytes 32) = 11888008114220335514 := by decide +kernel
  have d : crc64 11888008114220335514 (zeroBytes 32) = genRoot := by decide +kernel
  have f (x : Nat) (p q : List Byte) : crc64 x (p ++ q) = crc64 (crc64 x p) q := List.foldl_append
  have z (x : Nat) : crc64 x [] = x := rfl
  rw [rootDigest, e, z, z, f, f, f, a, b, c, d]

theorem checkGen_empty (s : State) (j : Fin 16) (g : Nat) (h : GenHeader)
    (k : h.version = 1 ∧ h.job = j.val ∧ h.device = s.device) (x : h.extents = 0) (y : h.segments = 0)
    (r : rootDigest h.bytes [] [] = h.root) : s.checkGen j g h = (.ok h [], s) := by
  simp [State.checkGen, State.areaRead, State.checkSegments, k.1, k.2.1, k.2.2, x, y, r]

theorem verified : ((restoring 0 [] 1).candidates 0).2.2.tryGens 0 ((restoring 0 [] 1).candidates 0).1 [] =
    (some (0, genHeader (genBytes 0)), [], ((restoring 0 [] 1).candidates 0).2.2) := by
  have e : ((restoring 0 [] 1).candidates 0).1 = [(0, genHeader (genBytes 0))] := by decide +kernel
  have k := checkGen_empty ((restoring 0 [] 1).candidates 0).2.2 0 0 (genHeader (genBytes 0))
    (by decide +kernel) (by decide +kernel) (by decide +kernel) (by rw [genRoot_is]; decide +kernel)
  rw [e, State.tryGens, k]

/-- The same restore from the partner's area; nothing of it has been read. -/
def fetching (r : Rest) (st : Nat) : State :=
  { withOd (restoring 0 [] st) [(0x2D40, 1, 1), (0x2D40, 2, 5)] with
    tables := [(0x2810, List.replicate 384 0), (0x2B01, List.replicate 4096 0)], links := [(0, { st := .up })],
      rests := [(0, r)] }

theorem witness_Restores_partner :
    ((fetching {} 0).inv = true ∧ (fetching {} 0).fromPartner 0 = true ∧ (fetching {} 0).restRefused 0 = false ∧
      ((fetching {} 0).egress ((fetching {} 0).odGet 0x2D40 0x02 0xFFFF)).isSome = true) ∧
    ((fetching {} 1).restState 0 = 1 ∧ (fetching {} 1).reading 0 = true ∧ ((fetching {} 1).rest 0).asked = [] ∧
      (fetching { asked := [0] } 1).reading 0 = true ∧ (fetching {} 2).restState 0 = 2 ∧
        (fetching {} 2).reading 0 = true) ∧
    ((restoring 0 [] 1).reading 0 = false ∧ (restoring 0 [] 2).reading 0 = false ∧
      (restoring 0 [] 1).fromPartner 0 = false) := by
  refine ⟨by decide +kernel, by decide +kernel, by decide +kernel⟩

theorem witness_Restores :
    ((restoring 0 [] 0).inv = true ∧ Accepts (restoring 0 [] 0) .pcie 0x2D40 0x06 1 ∧
      Accepts (restoring 0 [] 1) .pcie 0x2D40 0x06 2 ∧
      Accepts State.reset .can 0x2D40 0x06 3 ∧ Accepts State.reset .pcie 0x2D4F 0x06 4) ∧
    ((restoring 0 [] 0).restState 0 = 0 ∧ (restoring 0 [] 1).restState 0 = 1 ∧
      (restoring 0 [] 0).restRefused 0 = false ∧
      (withOd (restoring 0 [] 0) [(0x2C20, 6, 1)]).restRefused 0 = true) ∧
    ((updating 1 [bucket 0] []).updatesOutstanding 0 = true ∧ State.reset.updatesOutstanding 0 = false ∧
      ctx0.discard = false) ∧
    (((restoring 0 [] 1).candidates 0).2.2.tryGens 0 ((restoring 0 [] 1).candidates 0).1 []).1 =
        some (0, genHeader (genBytes 0)) ∧
    (State.reset.candidates 0).2.2.tryGens 0 (State.reset.candidates 0).1 [] =
        (none, [], (State.reset.candidates 0).2.2) ∧
    ((restoring 0 [] 2).restState 0 = 2 ∧ ((restoring 0 [] 2).genHeaderAt 0 0).1.isSome = true ∧
      ((restoring 0 [] 2).areaRead 0 0x1000 0).1 = some [] ∧ ((restoring 0 [] 2).checkSegments 0 0 [] []).1 = none) ∧
    ((((restoring 1 [1] 2).areaRead 0 0x1000 32).1.map fun et =>
      ((restoring 1 [1] 2).checkSegments 0 0 (zeroBytes 8) [tableExtent et 0]).1) =
      some (some (3, 0))) := by
  have e : (State.reset.candidates 0).1 = [] := by decide +kernel
  refine ⟨⟨by decide +kernel, ⟨by decide, by decide +kernel⟩, ⟨by decide, by decide +kernel⟩,
    ⟨by decide, by decide +kernel⟩,
    ⟨by decide, by decide +kernel⟩⟩, by decide +kernel, by decide +kernel, by rw [verified], by rw [e, State.tryGens],
      by decide +kernel,
    by decide +kernel⟩


/-! ### Witnesses: the host interface -/

/-- The window's read of OD `i` is under way, with `more` at the front of it in the request queue. -/
def windowed (i : W16) (more : List Access) (client : Nat) : State :=
  { hosted with queue := more ++ [⟨.pcie, false, i, 0, [], client, false⟩] }

theorem witness_DictionaryWindow :
    (hosted.inv = true ∧ hosted.hostReaches = true ∧ hosted.startingUp = false ∧ State.reset.hostReaches = false ∧
      hosted.dw.stat = 0 ∧ hosted.queue.length < 32 ∧
      32 ≤ ({ hosted with queue := List.replicate 32 ⟨.can, false, 0, 0, [], 0, false⟩ } : State).queue.length ∧
      ({ hosted with dw := { hosted.dw with stat := 2 } } : State).dw.stat = 2) ∧
    (hosted.sup.ready = true ∧ ({ hosted with sup := { hosted.sup with ready := false } } : State).sup.ready = false ∧
      (windowed 0x1000 [] 0).queue ≠ [] ∧
      ((windowed 0x1000 [⟨.can, false, 0, 0, [], 0, false⟩] 0).queue.head?.map (·.path)) = some .can ∧
      windowLive (windowClient 0 4 0) = true ∧ windowBuffered (windowClient 0 4 0) = false ∧
      windowBell (windowClient 0 4 0) = false ∧ windowBell (windowClient 8 4 0) = true ∧
      windowBuffered (windowClient 4 4 0) = true ∧ windowBufferOk (windowClient 4 4 0) = true ∧
      windowBufferOk (windowClient 4 1 0x1000000) = false ∧ windowLen (windowClient 0 224 0) ≤ 224) ∧
    (((hosted.readEntry .pcie 0x1000 0).1 = 0 ∧ (hosted.readEntry .pcie 0x1000 0).2.1.length = 4) ∧
      ((hosted.readEntry .pcie 0x2810 0).1 = 0 ∧ 224 < (hosted.readEntry .pcie 0x2810 0).2.1.length) ∧
      (hosted.readEntry .pcie 0x0001 0).1 ≠ 0 ∧ (hosted.readEntry .pcie 0x0001 0).2.1 = []) ∧
    (writeAnswer hosted (hosted.writeEntry .pcie 0x0001 0 [])).isSome = true := by
  refine ⟨by decide, by decide +kernel, by decide +kernel, by decide +kernel⟩

theorem witness_ResultsAndStaging :
    (hosted.hostReaches = true ∧ hosted.startingUp = false ∧ hosted.errs = []) ∧
    (∀ s : State, s.mem = Mem.write [] (resultBase + 64 * 255) [7, 0, 0, 0, 1] → s.slotValid 255 = true ∧
      s.slotValid 0 = false ∧
      leNat (s.mem.read (resultBase + 64 * 255) 4) = (7 : W32).toNat) ∧
    (touchesResults (stagingBase + 0xFFBFC0) 64 = false ∧ touchesResults resultBase 1 = true ∧
      resultBase + 1 ≤ stagingBase + 0x1000000 ∧ 0x1000000 < 0x1000000 + [(0 : Byte)].length) := by
  refine ⟨by decide, ?_, by decide⟩
  intro s h
  rw [State.slotValid, State.slotValid, h]
  decide

/-- Ring 0 is enabled with one descriptor to fetch, and with one in progress. -/
def ringed (y : Ring) : State := { hosted with rings := [(0, y)] }
def working : Ring := { base := 0x10000, enable := true, prod := 1 }
/-- 64 bytes from host address 0x20000 to device address `dev`. -/
def descBytes (dev flags : Nat) : List Byte := leBytes 8 0x20000 ++ leBytes 6 dev ++ leBytes 2 flags ++
  leBytes 4 64 ++ zeroBytes 12

theorem witness_DmaRings :
    ((ringed working).inv = true ∧ (ringed working).hostReaches = true ∧ (ringed working).startingUp = false ∧
      (hosted.ring 15).enable = false ∧
      ((ringed working).ring 0).enable = true ∧ ((ringed working).ring 0).inProgress = [] ∧
      ((ringed { working with halted := true }).ring 0).halted = true ∧ (1 : W32).getLsbD 0 = true ∧
      ((ringed { working with inProgress := [descBytes 0 0] }).ring 0).inProgress = [descBytes 0 0]) ∧
    (((ringed working).ring 0).halted = false ∧
      (0 + ([] : List (List Byte)).length) % 16 ≠ ((ringed working).ring 0).prod ∧
      (ringed working).host.d3hot = false ∧
      (ringed working).host.l2 = false ∧ (ringed working).host.linkUp = true ∧ 0 + 1 < ((ringed working).ring 0).size) ∧
    ((ringDesc (descBytes 0x40 0)).fence = false ∧ (ringDesc (descBytes 0x40 0)).code = 0 ∧
      (ringDesc (descBytes 0x41 0)).code = 8 ∧
      (descBytes 0x40 0).length = 32 ∧ (ringDesc (descBytes 0 2)).interrupt = true) ∧
    ((ringed working).ringTransfer working (ringDesc (descBytes 0x40 0)) (List.replicate 64 1) false).1 = 0 ∧
    ((ringed working).ringTransfer working (ringDesc (descBytes 0x40 0)) [] true).1 = 9 := by
  refine ⟨by decide, by decide, by decide, by decide +kernel, by decide +kernel⟩

theorem witness_HostRegistersAndVectors :
    (hosted.inv = true ∧ hosted.hostReaches = true ∧ hosted.startingUp = false ∧
      ({ hosted with sup := { hosted.sup with ready := false } } : State).startingUp = true) ∧
    (hostWord 0x1C = false ∧ hostWord 0x104 = true ∧ hostWord 0x100 = true ∧ hostWord 0x3000 = true ∧
      hostWord 0x1100 = true ∧
      0x22 % 4 ≠ 0 ∧ (0x3FC % 4 = 0 ∧ 0x3FC < 0x400 ∧ 0x3FC ≠ 12)) ∧
    (((mailed 0 1).mailPair 0).s2h.words = 1 :: []) ∧
    ((ringed working).ring 0).enable = true ∧ (hosted.ring 15).enable = false ∧
    ((0x4000 : W32).getLsbD 14 = true ∧ (0x4000 : W32).getLsbD 15 = false) ∧
    (vectored.vectorsHeld = false ∧ vectored.host.vectorMasked 10 = false ∧ hosted.vectorsHeld = true) := by decide

theorem witness_EndpointResets :
    (hosted.inv = true ∧ hosted.host.linkUp = true ∧ State.reset.host.linkUp = false) ∧
    (hosted.host.perstHigh = true ∧ hosted.power.on = true ∧ hosted.startingUp = false ∧ (1 : Fin 6).val ≠ 0 ∧
      4 ∈ [1, 2, 4, 8, 16] ∧ 256 ∈ [128, 256, 512] ∧ 3 ∉ [1, 2, 4, 8, 16]) := by decide

/-! ### Witnesses: links -/

/-- Link 0 is `x`, and the route to device 5 leads over it. -/
def linked (x : LinkSt) : State :=
  { put running prog with links := [(0, x)],
                          tables := [(0x2B01, (List.range 32).map fun i => if i = 0 then 0x1E
                            else if i = 5 then 0 else if i = 6 then 12 else 0x1F)] }
def up : LinkSt := { st := .up, active := 15 }
def caps5 : CapsData := ⟨5, 0, 0, 0, 1⟩
def allLanes : TrainResult := ⟨15, false, 0, caps5⟩

theorem witness_LinkTraining :
    (State.reset.inv = true ∧ Accepts State.reset .pcie 0x2B10 0x01 1 ∧ Accepts State.reset .pcie 0x2B10 0x02 0xC3 ∧
      (State.reset.link 0).st = .disabled ∧ State.reset.clock.onInternal = false ∧
        (onOscillator none).clock.onInternal = true) ∧
    (Accepts (linked up) .pcie 0x2B10 0x01 1 ∧ ((linked up).link 0).st = .up) ∧
    (((linked { st := .retraining }).link 0).control ≠ some 5 ∧
      ((linked { st := .retraining, control := some 5 }).link 0).control = some 5) ∧
    (((linked { st := .down }).link 0).st = .down ∧ (linked { st := .down }).odGet 0x2B02 0x08 1 = 1 ∧
      ((linked { st := .training }).link 0).st = .training) ∧
    (caps5.device ≠ State.reset.device ∧ caps5.version = 1 ∧ caps5.reach = State.reset.odGet (0x2B10 + 8 * 0) 0x03 0 ∧
      { caps5 with device := 0 }.device = State.reset.device) ∧
    (List.range 4).countP (fun i => ((allLanes.lanes &&& ~~~(0 : BitVec 4) &&& ~~~(BitVec.ofNat 4 allLanes.caps.retired)).getLsbD i)) = 4 ∧
    (List.range 4).countP (fun i => (((1 : BitVec 4) &&& ~~~(0 : BitVec 4) &&& ~~~(BitVec.ofNat 4 0)).getLsbD i)) < 2 := by
  refine ⟨⟨by decide, ⟨by decide, by decide +kernel⟩, ⟨by decide, by decide +kernel⟩, by decide, by decide, by decide⟩,
    ⟨⟨by decide, by decide +kernel⟩, by decide⟩, by decide, by decide +kernel, by decide +kernel, by decide, by decide⟩

theorem witness_LinkRetrainsAndLoss :
    ((linked up).inv = true ∧ ((linked up).link 0).st = .up ∧ ((linked up).link 0).carries = true ∧
      ((linked { st := .retraining }).link 0).st = .retraining ∧ ((linked {}).link 0).carries = false ∧
      ((linked { up with control := some 7 }).link 0).control = some 7) ∧
    (Accepts (linked up) .pcie 0x2B10 0x01 3 ∧ Accepts (linked up) .pcie 0x2B10 0x01 2) ∧
    (({ up with retry := [(0, [])], replays := 7 } : LinkSt).retry ≠ [] ∧
      8 ≤ ({ up with retry := [(0, [])], replays := 7 } : LinkSt).replays + 1) ∧
    (kindAnswered (txnKind (packTxn { kind := 3, dst := 5, src := 0 })) = true ∧
      txnSrc (packTxn { kind := 3, dst := 5, src := 0 }) = (linked up).device ∧
      txnSrc (packTxn { kind := 9, dst := 5, src := 6 }) ≠ (linked up).device ∧
      kindAnswered (txnKind (packTxn { kind := 8, dst := 5, src := 0 })) = false) := by
  refine ⟨by decide, ⟨⟨by decide, by decide +kernel⟩, ⟨by decide, by decide +kernel⟩⟩, by decide, by decide +kernel⟩

/-- Lane `i` measured at the very limits. -/
def measure (i : Fin 4) : LaneMeasure := ⟨i, 64, 26, 8⟩
def tested : LinkSt := { st := .testing, active := 15, measured := [measure 0, measure 1, measure 2, measure 3],
                         prbs := true }

theorem witness_LaneTests :
    ((linked tested).inv = true ∧ ((linked up).link 0).st = .up ∧ Accepts (linked up) .pcie 0x2B10 0x01 4 ∧
      ((linked { tested with control := some 1 }).link 0).control = some 1 ∧ ((linked tested).link 0).prbs = true ∧
      ((linked tested).link 0).measured ≠ []) ∧
    (∀ i : Fin 4, ((linked tested).link 0).active.getLsbD i.val = true →
      LaneKept (linked tested) tested tested.measured i) ∧
    (∀ i : Fin 4, ¬ LaneKept (linked tested) tested [] i) ∧
    (LaneKept (linked tested) tested [measure 0, measure 1] 0 ∧
      LaneKept (linked tested) tested [measure 0, measure 1] 1 ∧
      ¬ LaneKept (linked tested) tested [measure 0, measure 1] 3) ∧
    ¬ LaneKept (linked tested) { tested with measured := [⟨0, 65, 26, 8⟩] } tested.measured 0 ∧
    ¬ LaneKept (linked tested) { tested with lanes := Vector.replicate 4 { passes := [0, 0, 0] } } tested.measured 0 ∧
    ((linked up).odGet 0x2B02 0x03 8 < ([⟨0, 9, []⟩, ⟨0, 0, []⟩].map FecNote.failures).sum ∧
      ¬ (linked up).odGet 0x2B02 0x03 8 < ([⟨0, 8, []⟩].map FecNote.failures).sum ∧
      (linked up).odGet 0x2B02 0x0A 65536 < ([⟨0, 0, [65537]⟩].map fun x : FecNote => x.symbols.getD 0 0).sum) := by
  have none_fails (l : LinkSt) (i : Fin 4) (ms : List LaneMeasure)
    (h : ms.find? (fun m => m.lane.val == i.val) = none) :
      ¬ LaneKept (linked tested) l ms i := by
    rintro ⟨k, _⟩
    obtain ⟨m, e, _⟩ := k ms (Or.inr rfl)
    rw [h] at e
    cases e
  have kept (ms : List LaneMeasure) (i : Fin 4) (p : ms.find? (fun m => m.lane.val == i.val) = some (measure i)) :
      LaneKept (linked tested) tested ms i := by
    refine ⟨fun q h => ⟨measure i, ?_, Nat.le_refl _, Nat.le_refl _, Nat.le_refl _⟩, by clear p; revert i; decide⟩
    rcases h with rfl | rfl
    · clear p; revert i; decide
    · exact p
  refine ⟨⟨by decide, by decide, ⟨by decide, by decide +kernel⟩, by decide, by decide, by decide⟩,
    fun i _ => kept _ i (by revert i; decide), fun i => none_fails _ i [] rfl,
    ⟨kept _ 0 (by decide), kept _ 1 (by decide), none_fails _ 3 _ (by decide)⟩, ?_, ?_, by decide +kernel⟩
  · rintro ⟨k, _⟩
    obtain ⟨m, e, f, _⟩ := k _ (Or.inl rfl)
    cases e
    revert f; decide
  · rintro ⟨_, k⟩
    revert k; decide

/-- A DATA flit with SEQ 0, its CRC, and an idle flit whose CRC is wrong. -/
def dataFlit : List Byte := (1 :: zeroBytes 119) ++ leBytes 4 4221669745 ++ zeroBytes 4

theorem dataFlit_crc : crc32c (dataFlit.take 120) = 4221669745 := by
  have e : dataFlit.take 120 = (1 :: zeroBytes 39) ++ (zeroBytes 40 ++ zeroBytes 40) := by decide +kernel
  have a : (1 :: zeroBytes 39).foldl (crcByte 0x82F63B78) 0xFFFFFFFF = 2069912841 := by decide +kernel
  have b : (zeroBytes 40).foldl (crcByte 0x82F63B78) 2069912841 = 3622859535 := by decide +kernel
  have c : (zeroBytes 40).foldl (crcByte 0x82F63B78) 3622859535 = 73297550 := by decide +kernel
  rw [crc32c, e, List.foldl_append, List.foldl_append, a, b, c]
  decide
theorem zeroFlit_crc : crc32c ((zeroBytes 128).take 120) = 4137349603 := by
  have e : (zeroBytes 128).take 120 = zeroBytes 40 ++ (zeroBytes 40 ++ zeroBytes 40) := by decide +kernel
  have a : (zeroBytes 40).foldl (crcByte 0x82F63B78) 0xFFFFFFFF = 2795522082 := by decide +kernel
  have b : (zeroBytes 40).foldl (crcByte 0x82F63B78) 2795522082 = 3754565091 := by decide +kernel
  have c : (zeroBytes 40).foldl (crcByte 0x82F63B78) 3754565091 = 157617692 := by decide +kernel
  rw [crc32c, e, List.foldl_append, List.foldl_append, a, b, c]
  decide

def toSend (vc : Nat) : LinkSt := { up with tx := [(vc, [(true, zeroBytes 16)])], credits := [(vc, 1)] }
theorem witness_FlitsAndReplay :
    ((linked up).inv = true ∧ dataFlit.length = 128 ∧ sliceNat dataFlit 120 4 = crc32c (dataFlit.take 120) ∧
      sliceNat (zeroBytes 128) 120 4 ≠ crc32c ((zeroBytes 128).take 120) ∧ flitType dataFlit = 1 ∧
        flitSeq dataFlit = up.rxSeq) ∧
    (({ up with rxSeq := 2048 } : LinkSt).rxSeq = (flitSeq dataFlit + 2048) % 4096 ∧
      flitSeq dataFlit = (({ up with rxSeq := 2049 } : LinkSt).rxSeq + 2047) % 4096 ∧
      flitSeq dataFlit = (({ up with rxSeq := 4095 } : LinkSt).rxSeq + 1) % 4096) ∧
    (sidebandCrc ((0 : W32).toNat % 2 ^ 24) = (0 : W32).toNat / 2 ^ 24 ∧ (0 : W32).getLsbD 13 = false ∧
      sidebandCrc ((0x2000 : W32).toNat % 2 ^ 24) < 256 ∧ (0x2000 : W32).getLsbD 13 = true ∧
      sidebandCrc ((1 : W32).toNat % 2 ^ 24) ≠ (1 : W32).toNat / 2 ^ 24 ∧ up.carries = true) ∧
    (({ up with control := some 3 } : LinkSt).control = some 3 ∧ up.control = none ∧
      ({ up with replay := [(0, [])] } : LinkSt).replay = (0, []) :: [] ∧ ({ st := .testing } : LinkSt).prbs = false) ∧
    (({ up with retry := [(0, [])] } : LinkSt).retry ≠ [] ∧ ({ up with retry := [(0, [])] } : LinkSt).replays + 1 < 8) ∧
    (up.replay = [] ∧ (∀ vc < 5, sget [] up.tx vc = [] ∨ sget 0 up.credits vc = 0) ∧
      64 ≤ ({ up with retry := List.replicate 64 (0, []) } : LinkSt).retry.length) ∧
    ((toSend 4).retry.length < 64 ∧ sget [] (toSend 4).tx 4 ≠ [] ∧ sget 0 (toSend 4).credits 4 ≠ 0 ∧
      sget [] (toSend 0).tx 4 = [] ∧ sget [] (toSend 0).tx 0 ≠ [] ∧ sget 0 (toSend 0).credits 0 ≠ 0 ∧
      sget [] (toSend 1).tx 1 ≠ [] ∧ sget 0 (toSend 1).credits 1 ≠ 0) := by
  refine ⟨⟨by decide, by decide +kernel, ?_, ?_, by decide +kernel, by decide +kernel⟩, by decide +kernel,
    by decide +kernel,
    by decide, by decide, by decide, by decide⟩
  · rw [dataFlit_crc]; decide +kernel
  · rw [zeroFlit_crc]; decide +kernel

/-- A transaction of device 5. -/
def from5Txn (kind : Nat) (a b len flags : Nat) (payload : List Byte) : Txn :=
  ⟨packTxn { kind := kind, dst := 0, src := 5, tag := 3, flags := flags, len := len, a := a, b := b }, payload⟩
def toward (dst hops kind : Nat) : Txn := ⟨packTxn { kind := kind, dst := dst, src := 6, hops := hops }, []⟩
def tagged : LinkSt := { up with tags := [(3, some (.tally 0 0 1 0))] }

/-- A session that device 5 has open on another entry. -/
def session5 : Session := { who := .uzon 5 0x2000 1, write := true, index := 0x2000, sub := 1, buffer := [],
                            offset := 0 }
/-- A transaction of a reserved kind heads VC0 of link 0. -/
def reservedHead : State := linked { up with rx := [(0, txnSlots (from5Txn 11 0 0 0 0 []))] }
/-- A transaction to device 5 that has crossed the die stands in the ejection stage of tile 0. -/
def crossingPacket (bad : Bool) : Packet :=
  let p := (linked up).crossPacket 12 (toward 5 1 3)
  if bad then { p with header := p.header ||| BitVec.ofNat 64 (2 ^ 52), marked := true } else p
def crossing (bad : Bool) : State :=
  (linked up).modTile 0 fun x => { x with net :=
                                            { x.net with eject := [(stageKey 0 3, flitsOf (crossingPacket bad))] } }
/-- Every pseudo-channel of stack 0 retires. -/
def retiringPcs : State := { linked up with pcs := (List.range 64).map fun i => (i, { retiring := some 3 }) }

theorem witness_LinkTransactions :
    (let x := from5Txn 1 mainBase 0 32 0 (List.replicate 512 7);
      (linked up).inv = true ∧ txnDst x.header = (linked up).device ∧ txnKind x.header = 1 ∧
        txnFlag x.header 0 = false ∧
      txnPoison x.header = false ∧ txnA x.header % 64 = 0 ∧ txnLen x.header % 4 = 0 ∧ txnLen x.header ≠ 0 ∧
      txnA x.header % 4096 + 16 * txnLen x.header ≤ 4096 ∧ x.payload.length = 16 * txnLen x.header ∧
      ((linked up).frame (frameIx (txnDfr x.header))).st = .running ∧
      (linked up).accessCode (some (frameIx (txnDfr x.header))) true (txnA x.header) (16 * txnLen x.header) = 0) ∧
    ((linked up).accessCode (some 0) true (mainBase + 0x80000) 512 = 4 ∧
      (linked up).accessCode (some 0) true scratchBase 64 ≠ 0 ∧
      txnLen (from5Txn 1 0 0 3 0 []).header % 4 ≠ 0 ∧ State.reset.frame 0 = {} ∧ State.reset.frame 0 ≠ running) ∧
    (txnKind (from5Txn 3 mainBase 7 0 0 []).header = 3 ∧ txnA (from5Txn 3 mainBase 7 0 0 []).header % 64 = 0 ∧
      (linked up).accessCode (some 0) false mainBase (64 * (txnB (from5Txn 3 mainBase 7 0 0 []).header % 64 + 1)) = 0 ∧
      errsIn (linked up).errs mainBase 512 = [] ∧ (linked up).undefinedGroups = []) ∧
    (((linked tagged).takeTxn 0 (from5Txn 5 0 0 0 0 [])).tagLink 0 (from5Txn 5 0 0 0 0 []).header = some 0 ∧
      sget none (((linked tagged).takeTxn 0 (from5Txn 5 0 0 0 0 [])).link 0).tags
        (txnTag (from5Txn 5 0 0 0 0 []).header) =
        some (.tally 0 0 1 0) ∧ ((linked tagged).link 0).waits = []) ∧
    (txnKind (from5Txn 9 0x1000 0 0 0 []).header = 9 ∧ txnA (from5Txn 9 0x1000 0 0 0 []).header / 2 ^ 24 % 2 ^ 22 = 0 ∧
      (linked up).sessions.find? (fun y => sameClient y.who (.uzon 5 0x1000 0)) = none ∧
      ({ linked up with sessions := [session5] }.sessions.find? fun y =>
        sameClient y.who (.uzon 5 0x1000 0)) = some session5 ∧
      (linked up).queue.length < 32 ∧ 32 ≤ ({ linked up with queue := List.replicate 32 ⟨.can, false, 0, 0, [], 0,
        false⟩ } : State).queue.length) ∧
    (txnB (from5Txn 8 0 9 0 0 []).header % 256 ≠ svcLoss ∧ txnB (from5Txn 8 0 9 0 0 []).header % 256 ≠ svcAck ∧
      txnB (from5Txn 8 0 8 0 0 [0]).header % 256 = svcAck ∧
      (withOd (linked up) [(0x2910, 0x14, 5)]).standbyOf
        (jobIx (sliceNat (txnData (from5Txn 8 0 8 0 0 [0])) 0 1)) = 5) ∧
    (txnKind (from5Txn 0 0 0 0 0 []).header = 0 ∧ 0xA < txnKind (from5Txn 11 0 0 0 0 []).header) ∧
    (txnDst (toward 5 2 3).header ≠ (linked up).device ∧ txnHops (toward 5 1 3).header ≤ 1 ∧
      1 < txnHops (toward 5 2 3).header ∧
      ((linked up).takeTxn 0 (toward 5 2 3)).egress (txnDst (toward 5 2 3).header) = some 0 ∧
      ((linked up).takeTxn 0 (toward 7 2 3)).egress (txnDst (toward 7 2 3).header) = none ∧
      kindAnswered (txnKind (toward 7 2 3).header) = true ∧ kindVc (txnKind (toward 7 2 8).header) = 0) ∧
    (firstTxn (sget [] (reservedHead.link 0).rx 0) = some (from5Txn 11 0 0 0 0 [], []) ∧
      (∀ y, firstTxn (sget [] (reservedHead.link 0).rx 1) = some y → False)) ∧
    ({ linked up with links := [(0, up), (12, up)] }.egress 6 = some 12 ∧
      ¬ ((12 : Fin 24).val < 12 ↔ (0 : Fin 24).val < 12) ∧
      kindVc (txnKind (toward 6 2 8).header) = 0 ∧ kindVc (txnKind (toward 6 2 3).header) ≠ 0) ∧
    (((crossing false).tile 0).net.ejected (stageKey 0 3) = some (crossingPacket false) ∧
      ((crossing true).tile 0).net.ejected (stageKey 0 3) = some (crossingPacket true) ∧
      pktKind (crossingPacket false).header = 3 ∧ pktQueue (crossingPacket false).header = 3 ∧
      pktOp (crossingPacket false).header = 6 ∧ isPoisoned (crossingPacket false) = false ∧
      isPoisoned (crossingPacket true) = true ∧
      ((crossing false).takeStage 0 0 (crossingPacket false)).egress
        (txnDst (crossTxn (crossingPacket false)).header) = some 0) ∧
    ((linked up).placeRetiring 0 = false ∧ retiringPcs.placeRetiring 0 = true) := by
  refine ⟨by decide +kernel, by decide +kernel, by decide +kernel, by decide +kernel, by decide +kernel,
    by decide +kernel,
    by decide +kernel, by decide +kernel⟩


/-! ### Results of the spec's worked examples -/

/-- The dot product of Bead by MXFP4 (05, worked examples). -/
def beads : OpVec :=
  ⟨[1, 3, 1, 1].map (elemNum 0xA) ++ List.replicate 28 (elemNum 0xA 0) ++ [1, 3].map (elemNum 0xA) ++
    List.replicate 30 (elemNum 0xA 0), [0x7C, 0x7E]⟩
def acts : OpVec :=
  ⟨[7, 3, 1, 13].map (elemNum 8) ++ List.replicate 28 (elemNum 8 0) ++ [3, 1].map (elemNum 8) ++
    List.replicate 30 (elemNum 8 0), [0x80, 0x67]⟩
theorem test_dot : reckonDot beads acts 0 = 0x3F000000 := by decide +kernel

/-- 5.2, 2.5 and −0.2 into MXFP4; 26.6, 1,000 and 0.0018 into E4M3 with a tensor scale of 0x80 (05). -/
theorem test_mxfp4_scale : deriveScale 8 [0x40A66666, 0x40200000, 0xBE4CCCCD] = 0x7F := by decide +kernel
theorem test_mxfp4_convert : convertBlock 8 true 0x7F [0x40A66666, 0x40200000, 0xBE4CCCCD]
  (List.replicate 3 .nearestEven) =
    [⟨7, false, false, false⟩, ⟨4, false, false, false⟩, ⟨8, false, true, false⟩] := by decide +kernel
theorem test_e4m3_convert : convert 3 .nearestEven true 0x80 0x41D4CCCD = ⟨0x55, false, false, false⟩ ∧
    convert 3 (.stochastic 0x4CCCCFFF) true 0x80 0x41D4CCCD = ⟨0x56, false, false, false⟩ ∧
    convert 3 (.stochastic 0x4CCCD000) true 0x80 0x41D4CCCD = ⟨0x55, false, false, false⟩ ∧
    convert 3 .nearestEven true 0x80 0x447A0000 = ⟨0x7E, true, false, false⟩ ∧
    (convert 3 .nearestEven false 0x80 0x447A0000).bits = 0x7F ∧
    convert 3 .nearestEven true 0x80 0x3AEBEDFA = ⟨0, false, true, false⟩ := by decide +kernel

/-- The tensor scales of 07's worked example. -/
theorem test_next_scale : nextScale 3 1 0x7F [0x42160000] = (0x7D, false) ∧
  nextScale 3 1 0x7D [0x43960000, 0x42160000] = (0x80, false) := by
  decide +kernel

/-- Where 10's worked example finds its address, interleaved and linear. -/
theorem test_stack_place : State.reset.stackPlace 2 0xE40005000 = ⟨2, 5, 1, 0x12000000⟩ ∧
    ({ State.reset with tables := [(0x2810, List.replicate 384 0)] } : State).stackPlace 2 0xE40005000 = ⟨2, 25, 0,
      0x40005000⟩ := by
  decide +kernel

/-- Row 419 of tile 1,385 (03, worked example), and the position of that tile at a width of 46 (00). -/
theorem test_row_address : regionOf 0x00802B4B4600 = .main 1385 (419 * 512) ∧
    ({ State.reset with grid := { State.reset.grid with width := 46 } } : State).tileRow 1385 = 30 ∧
    ({ State.reset with grid := { State.reset.grid with width := 46 } } : State).tileCol 1385 = 5 := by decide

/-- The retirement of 01's worked example. -/
def acGrid : Grid := ⟨48, (List.range 50).map fun c => if c = 7 then .factoryBad else if c = 49 then .narrowed
  else if c = 30 then .pending else .enabled, false, .ac2304⟩
theorem test_retire : acGrid.columnMap = List.range' 0 7 ++ List.range' 8 41 ∧ acGrid.retire.width = 46 ∧
    acGrid.retire.columnMap = List.range' 0 7 ++ List.range' 8 16 ++ List.range' 25 5 ++ List.range' 31 18 := by decide

/-- The cap of an -AC part, and its limits on the entry (00, 17). -/
theorem test_part_cap : ({ State.reset with grid := acGrid } : State).powerCap = 700 ∧
    ({ State.reset with grid := acGrid } : State).writeCode .pcie 0x2F08 1 (leBytes 2 701) = 0x06090031 ∧
    State.reset.writeCode .pcie 0x2F08 1 (leBytes 2 1000) = 0 := by decide +kernel

/-- Quantising and the bound of 11's worked example. -/
theorem test_tally : quantise (-7) 0x3AC00000 = 0x300000000000 ∧
  unsigned 64 (-(quantise (-7) 0x3AC00000)) = 0xFFFFD00000000000 ∧
    boundPasses 30 (-9) (-7) = true ∧ boundPasses 30 4 (-7) = false ∧
      bucketTag 3 2 7420 = 0x01CFC023 := by decide +kernel

/-- The group and element of 12's worked example. -/
def group5 : List Byte :=
  leBytes 4 1 ++ leBytes 4 0x3A800000 ++ leBytes 4 0x3F600000 ++ leBytes 4 0x3F7F0000 ++ leBytes 4 0x30800000 ++
    zeroBytes 108
def scalars5 : List Byte := stepScalars group5 9000
theorem test_step_scalars : sliceNat scalars5 64 8 = 1 ∧
    (List.range 7).map (fun i => groupWord scalars5 (72 + 4 * i)) =
      [0x3F600000, 0x3F7F0000, 0x3E000000, 0x3B800000, 0x41000000, 0x43800000, 0x3F800000] := by decide +kernel
theorem test_adamw : averaged false (-7) 30 0x0002D00000000000 = 0x3A400000 ∧
    stepAdamW scalars5 ⟨0x3A400000, 0x3E800000, 0, 0⟩ = ⟨0x3A400000, 0x3E7F0000, 0x38C00000, 0x31100000⟩ :=
      by decide +kernel
theorem test_moments : deriveScale 9 [0x38C00000] = 0x71 ∧
    (convertBlock 9 true 0x71 [0x38C00000] [.nearestEven]).map (·.bits) = [0x60] ∧
    encodeSecond [f32Sqrt 0x31100000] [.nearestEven] = (0x70, [0xC0]) := by decide +kernel
theorem test_weight : nextScale 3 1 0 [0x3ECCCCCD] = (0x76, false) ∧
    (convert 3 .nearestEven true 0x76 0x3E7F0000).bits = 0x70 := by decide +kernel
theorem test_notify_word :
    notifyWord ⟨3, 2, 7420, 9000, 0, 0x76, true, false, 3, [], false⟩ 9000 false = 0x0760023281CFC023 :=
      by decide +kernel

/-- Lane 2 and the payload rate of link 7 (13, worked example). -/
theorem test_lane_word : ({ st := .up, active := 0xB, retired := 4
                            lanes := (Vector.replicate 4 {}).set 2 { errors := 311, horizontal := 9, vertical := 3 } } : LinkSt).laneWord 2 =
    0x0000030901370002 ∧ payloadRate 3 = 32812 := by decide

/-- The bin of 4,702 cycles in log2 bins with s = 8, and of 720, 576 and 480 MHz in linear bins of 50 (17). -/
theorem test_monitor_bins : monitorBin (2 ^ 8 + 8 * 2 ^ 64) 4702 = 5 ∧
    [720, 576, 480].map (monitorBin (50 * 2 ^ 96)) = [14, 11, 9] := by decide

/-- Slot 5 as published, and once its sequence is acknowledged (16, worked example). -/
def published : State :=
  { hosted with host := { hosted.host with nextSeq := 0x422 } }.publishAt 5 3
    (leBytes 8 0x204B0 ++ leBytes 8 1 ++ leBytes 8 2)
theorem test_publish : leNat (published.mem.read (resultBase + 64 * 5) 8) = 0x0018030100000422 ∧
    leNat (published.mem.read (resultBase + 64 * 5 + 16) 8) = 0x204B0 ∧
      published.host.nextSeq = 0x423 := by decide +kernel
theorem test_ack_result : ∃ w : State, execAckResult 0x422 published = .next w ∧
    leNat (w.mem.read (resultBase + 64 * 5) 8) = 0x0018030000000422 :=
  ⟨_, rfl, by decide +kernel⟩

/-! ### Small steps of the instruction set (09) -/

/-- Tile 0 at the word `w`, with r1 = `a` and r2 = `b`. -/
def regs (w : Nat) (a b : W64) : State :=
  run0 (on { prog with main := { prog.main with g := (prog.main.g.set 1 a).set 2 b } } w)
def after (i : Instr) (s : State) : State := match exec i s with | .next w => w | _ => s

theorem test_add_wraps : (after (.add 0 3 1 2) (regs 0x00611000 (BitVec.allOnes 64) 2)).reg 0 3 = 1 := by decide +kernel
theorem test_rd0 : (after (.add 0 0 1 2) (regs 0x00011000 1 2)).reg 0 0 = 0 := by decide +kernel
theorem test_sub_self : (after (.sub 0 1 1 2) (regs 0x00211001 1 2)).reg 0 1 = BitVec.allOnes 64 := by decide +kernel
theorem test_reset_step : step State.reset = .next State.reset.serveNext.tickClocks := rfl

end Sys2Proof.Tests
end

section
/-! PROOFS. Arrivals at the request queue (R51, R52, R445): the place an access takes, what a full queue and a busy
window do to it, and the statement O27. -/

namespace Sys2Proof.Machine

/-! ### Dictionary scalars and counters after a write -/

/-- Unlike `sget_sput_same` this needs no order among the keys: a value other than the default is put before the first
greater key, and the search for it passes the same keys. -/
theorem sget_sput_of_ne_default {α : Type} [DecidableEq α] {d v : α} (hv : v ≠ d) (k : Nat) :
    ∀ m : SMap α, sget d (sput d m k v) k = v
  | [] => by simp [sput, sget, hv]
  | (j, w) :: m => by
    by_cases hlt : k < j
    · simp [sput, sget, hlt, hv]
    · by_cases heq : j = k
      · simp [sput, sget, heq, hv]
      · simpa [sput, sget, hlt, heq] using sget_sput_of_ne_default hv k m

@[simp] theorem State.odGet_odSet_same (s : State) (i sub v d : Nat) : (s.odSet i sub v).odGet i sub d = v := by
  rw [State.odGet, State.odSet, sget_sput_of_ne_default (Option.some_ne_none v), Option.getD_some]

@[simp] theorem State.odGet_count32_same (s : State) (i sub : Nat) :
    (s.count32 i sub).odGet i sub 0 = satAdd 32 (s.odGet i sub 0) 1 := State.odGet_odSet_same ..

theorem State.count32_frame (s : State) (i sub : Nat) : { s.count32 i sub with od := s.od } = s := rfl

/-! ### The place an access takes (R51) -/

theorem State.queueFull_iff (s : State) : s.queueFull = true ↔ 32 ≤ s.queue.length := decide_eq_true_iff

theorem State.not_queueFull_iff (s : State) : ¬ s.queueFull = true ↔ s.queue.length < 32 := by
  rw [State.queueFull_iff, Nat.not_le]

/-- The accesses that came in earlier supervisor cycles. -/
def State.queuedEarlier (s : State) : List Access := s.queue.take (s.queue.length - s.queueFresh)

/-- The accesses of the running supervisor cycle. -/
def State.queuedNow (s : State) : List Access := s.queue.drop (s.queue.length - s.queueFresh)

/-- `a` stands behind `b` when both come in one cycle: `b` is of the same path or of one before it. -/
def pathFollows (a b : Access) : Bool := decide (pathRank b.path ≤ pathRank a.path)

/-- The accesses ahead of the place that `a` takes (`State.takePlace_queue`). -/
def State.aheadOf (s : State) (a : Access) : List Access := s.queuedEarlier ++ s.queuedNow.takeWhile (pathFollows a)

/-- The accesses behind the place that `a` takes. -/
def State.behindOf (s : State) (a : Access) : List Access := s.queuedNow.dropWhile (pathFollows a)

theorem State.queuedEarlier_append_queuedNow (s : State) : s.queuedEarlier ++ s.queuedNow = s.queue :=
  List.take_append_drop ..

theorem State.length_queuedEarlier (s : State) : s.queuedEarlier.length = s.queue.length - s.queueFresh := by
  rw [State.queuedEarlier, List.length_take]
  omega

theorem State.length_queuedNow_le (s : State) : s.queuedNow.length ≤ s.queueFresh := by
  rw [State.queuedNow, List.length_drop]
  omega

theorem State.takePlace_queue (s : State) (a : Access) :
    (s.takePlace a).queue = s.aheadOf a ++ a :: s.behindOf a := (List.append_cons ..).symm

theorem State.takePlace_frame (s : State) (a : Access) :
    { s.takePlace a with queue := s.queue, queueFresh := s.queueFresh } = s := rfl

theorem State.aheadOf_append_behindOf (s : State) (a : Access) : s.aheadOf a ++ s.behindOf a = s.queue := by
  rw [State.aheadOf, State.behindOf, List.append_assoc, List.takeWhile_append_dropWhile,
    State.queuedEarlier_append_queuedNow]

/-- Only accesses of the same cycle stand behind. -/
theorem State.length_behindOf_le (s : State) (a : Access) : (s.behindOf a).length ≤ s.queueFresh :=
  Nat.le_trans (List.dropWhile_sublist _).length_le s.length_queuedNow_le

/-- The next access behind is of a later path. -/
theorem State.pathRank_lt_of_head?_behindOf {s : State} {a b : Access} (h : (s.behindOf a).head? = some b) :
    pathRank a.path < pathRank b.path := by
  have hb : pathFollows a b = false := by
    have := List.head?_dropWhile_not (pathFollows a) s.queuedNow
    rw [State.behindOf] at h
    rwa [h] at this
  exact Nat.not_le.mp (of_decide_eq_false hb)

/-- No access of the same cycle that stands ahead is of a later path. -/
theorem State.pathRank_le_of_mem_aheadOf {s : State} {a b : Access}
    (h : b ∈ (s.aheadOf a).drop (s.queue.length - s.queueFresh)) : pathRank b.path ≤ pathRank a.path := by
  rw [State.aheadOf, ← s.length_queuedEarlier, List.drop_left] at h
  have hb : pathFollows a b = true := List.all_eq_true.mp List.all_takeWhile b h
  exact of_decide_eq_true hb

/-- The first access of its cycle goes to the end. -/
theorem State.takePlace_queue_of_queueFresh_eq_zero {s : State} (a : Access) (h : s.queueFresh = 0) :
    (s.takePlace a).queue = s.queue ++ [a] := by
  have hb : s.behindOf a = [] := List.length_eq_zero_iff.mp (Nat.le_zero.mp (h ▸ s.length_behindOf_le a))
  rw [State.takePlace_queue, ← s.aheadOf_append_behindOf a, hb, List.append_nil]

/-! ### The access of the window (R445) -/

theorem State.enqueueWindow_of_busy {s : State} (a : Access) (h : s.dw.stat = 1 ∨ s.dw.stat = 2) :
    s.enqueueWindow a = s.count32 0x2E02 0x06 := if_pos h

theorem State.enqueueWindow_of_full {s : State} (a : Access) (h1 : s.dw.stat ≠ 1) (h2 : s.dw.stat ≠ 2)
    (hq : 32 ≤ s.queue.length) : s.enqueueWindow a = { s with dw := { s.dw with stat := 5 } } := by
  rw [State.enqueueWindow, if_neg (not_or.mpr ⟨h1, h2⟩), if_pos (s.queueFull_iff.mpr hq)]

theorem State.enqueueWindow_of_room {s : State} (a : Access) (h1 : s.dw.stat ≠ 1) (h2 : s.dw.stat ≠ 2)
    (hq : s.queue.length < 32) :
    s.enqueueWindow a = { s.takePlace a with dw := { s.dw with stat := 1 } } := by
  rw [State.enqueueWindow, if_neg (not_or.mpr ⟨h1, h2⟩), if_neg (s.not_queueFull_iff.mpr hq)]

/-! ### The arrival, path by path (R52) -/

theorem exec_requestQueueArrival_of_window {s : State} {a : Access} (hp : a.path = .pcie) :
    exec (.requestQueueArrival a) s = .next (s.enqueueWindow a) := by
  rw [exec_requestQueueArrival, execRequestQueueArrival, State.enqueueAccess, if_pos hp]

theorem exec_requestQueueArrival_of_room {s : State} {a : Access} (hp : a.path ≠ .pcie) (hq : s.queue.length < 32) :
    exec (.requestQueueArrival a) s = .next (s.takePlace a) := by
  rw [exec_requestQueueArrival, execRequestQueueArrival, State.enqueueAccess, if_neg hp,
    if_neg (s.not_queueFull_iff.mpr hq)]

theorem exec_requestQueueArrival_of_full {s : State} {a : Access} (hp : a.path ≠ .pcie) (hq : 32 ≤ s.queue.length) :
    exec (.requestQueueArrival a) s = .next (s.refuseFull a) := by
  rw [exec_requestQueueArrival, execRequestQueueArrival, State.enqueueAccess, if_neg hp,
    if_pos (s.queueFull_iff.mpr hq)]

/-! ### What a refusal does (R52) -/

theorem State.protocolAbort_frame (s : State) (via : Path) (i sub code : Nat) :
    { s.protocolAbort via i sub code with od := s.od, out := s.out } = s := by
  rw [State.protocolAbort, State.countAbort, State.emit]
  rfl

@[simp] theorem State.protocolAbort_out (s : State) (via : Path) (i sub code : Nat) :
    (s.protocolAbort via i sub code).out = .value via (odKey i sub) code [] :: s.out := rfl

@[simp] theorem State.protocolAbort_can (s : State) (via : Path) (i sub code : Nat) :
    (s.protocolAbort via i sub code).can = s.can := rfl

theorem State.sendUsdo_frame (s : State) (client key code : Nat) (data : List Byte) :
    { s.sendUsdo client key code data with out := s.out } = s := by
  unfold State.sendUsdo
  split <;> rfl

theorem State.sendUsdo_out (s : State) (client key code : Nat) (data : List Byte) :
    (s.sendUsdo client key code data).out =
      (if s.can.onBus = true then [.usdo (0x580 + s.can.nodeId) client key code data] else []) ++ s.out := by
  unfold State.sendUsdo
  split <;> rfl

theorem State.refuseFull_of_can {s : State} {a : Access} (hp : a.path = .can) :
    s.refuseFull a = (s.protocolAbort .can a.index.toNat a.sub.toNat 0x05040005).sendUsdo a.client
      (odKey a.index.toNat a.sub.toNat) 0x05040005 [] := by
  rw [State.refuseFull, hp]
  rfl

theorem State.refuseFull_of_uzon {s : State} {a : Access} {src : Nat} (hp : a.path = .uzon src) :
    s.refuseFull a = (s.protocolAbort (.uzon src) a.index.toNat a.sub.toNat 0x05040005).sendMresp src a.client
      0x05040005 [] := by
  rw [State.refuseFull, hp]
  rfl

theorem State.refuseFull_can_frame {s : State} {a : Access} (hp : a.path = .can) :
    { s.refuseFull a with od := s.od, out := s.out } = s := by
  rw [State.refuseFull_of_can hp]
  have h := State.sendUsdo_frame (s.protocolAbort .can a.index.toNat a.sub.toNat 0x05040005) a.client
    (odKey a.index.toNat a.sub.toNat) 0x05040005 []
  exact (congrArg (fun w : State => { w with od := s.od, out := s.out }) h).trans (s.protocolAbort_frame ..)

theorem State.refuseFull_can_out {s : State} {a : Access} (hp : a.path = .can) :
    (s.refuseFull a).out =
      (if s.can.onBus = true then
        [.usdo (0x580 + s.can.nodeId) a.client (odKey a.index.toNat a.sub.toNat) 0x05040005 []] else []) ++
        .value .can (odKey a.index.toNat a.sub.toNat) 0x05040005 [] :: s.out := by
  rw [State.refuseFull_of_can hp, State.sendUsdo_out, State.protocolAbort_can, State.protocolAbort_out]

/-! ### The statement -/

/-- Settles O27: the place splits the queue at the first access of the same cycle that is of a later path, and each
path has one lemma for a full queue and one for a queue with room. -/
theorem requestQueueArrivals : Obligations.RequestQueueArrivals := by
  intro s a
  refine ⟨fun hp hq => exec_requestQueueArrival_of_room hp hq, ?place, ?can, ?uzon, ?window⟩
  case place =>
    exact ⟨s.takePlace_frame a, s.takePlace_queue_of_queueFresh_eq_zero a, s.aheadOf a, s.behindOf a,
      s.takePlace_queue a, s.aheadOf_append_behindOf a, s.length_behindOf_le a,
      fun _ => State.pathRank_lt_of_head?_behindOf, fun _ => State.pathRank_le_of_mem_aheadOf⟩
  case can =>
    intro hp hq
    exact ⟨s.refuseFull a, exec_requestQueueArrival_of_full (by simp [hp]) hq, State.refuseFull_can_frame hp,
      State.refuseFull_can_out hp⟩
  case uzon =>
    intro src hp hq
    refine ⟨s.protocolAbort (.uzon src) a.index.toNat a.sub.toNat 0x05040005, ?_, s.protocolAbort_frame ..,
      s.protocolAbort_out ..⟩
    rw [exec_requestQueueArrival_of_full (by simp [hp]) hq, State.refuseFull_of_uzon hp]
  case window =>
    intro hp
    rw [exec_requestQueueArrival_of_window hp]
    refine ⟨fun hbusy => ?_, fun h1 h2 hq => ?_, fun h1 h2 hq => ?_⟩
    · exact ⟨s.count32 0x2E02 0x06, by rw [State.enqueueWindow_of_busy a hbusy], s.odGet_count32_same ..,
        s.count32_frame ..⟩
    · rw [State.enqueueWindow_of_full a h1 h2 hq]
    · rw [State.enqueueWindow_of_room a h1 h2 hq]

end Sys2Proof.Machine
end

section
/-! PROOFS. Traps of a tile core (R247, R264, R265): what the state is once a trap is taken, and when a fetch, a load or
a store takes one. -/

namespace Sys2Proof.Machine

open Sys2Proof.Safety

/-! ### The entry of a trap -/

theorem leBytes_length : ∀ n x : Nat, (leBytes n x).length = n
  | 0, _ => rfl
  | n + 1, x => by rw [leBytes, List.length_cons, leBytes_length]

theorem length_flatMap_leBytes {w : Nat} (n : Nat) : ∀ l : List (BitVec w),
    (l.flatMap fun x => leBytes n x.toNat).length = l.length * n
  | [] => by rw [List.flatMap_nil, List.length_nil, List.length_nil, Nat.zero_mul]
  | x :: l => by
    rw [List.flatMap_cons, List.length_append, leBytes_length, length_flatMap_leBytes n l, List.length_cons,
      Nat.succ_mul, Nat.add_comm]

theorem saveBytes_length (c : RegContext) (ctx : Nat) (w : TrapWord) (q : TrapCause) (cycle step : Nat) :
    (saveBytes c ctx w q cycle step).length = 256 := by
  have hk : (c.k.toList.flatMap fun k => leBytes 4 k.toNat).length = 32 := by
    rw [length_flatMap_leBytes, Vector.length_toList]
  have hg : (((c.g.toList.drop 1).take 20).flatMap fun g => leBytes 8 g.toNat).length = 160 := by
    have h32 : c.g.toList.length = 32 := Vector.length_toList
    rw [length_flatMap_leBytes, List.length_take, List.length_drop]
    omega
  simp only [saveBytes, List.length_append, hk, hg, leBytes_length, zeroBytes, List.length_replicate]

theorem nestTrap_of_no_handler {c : RegContext} (h : c.handler = false) (q : TrapCause) : nestTrap c q = q := by
  simp [nestTrap, h]

/-- The tile whose core enters a trap: beside its wait and its trap state it is as it was. -/
theorem State.enterTrap_tile {s : State} (hs : srising s.tiles = true) (t : Nat) (f : Fin 8) (q : TrapCause) :
    ∃ w : TrapWord, w.cause = (nestTrap (s.tile t).core q).cause ∧
      w.taken = satAdd 32 (if (s.tile t).active = 2 then (s.tile t).trap.guest else (s.tile t).trap.main).taken 1 ∧
      (s.enterTrap t f q).tile t =
        { s.tile t with
          wait := .none
          trap := { (s.tile t).trap with
            main := if (s.tile t).active = 2 then (s.tile t).trap.main else w
            guest := if (s.tile t).active = 2 then w else (s.tile t).trap.guest
            pc := (nestTrap (s.tile t).core q).pc.toNat
            word := (nestTrap (s.tile t).core q).word
            detail := (nestTrap (s.tile t).core q).detail
            cycle := (s.frame f).cycles
            entry := some (nestTrap (s.tile t).core q) } } :=
  ⟨_, rfl, rfl, State.tile_modTile_same (s := s.writeScratch ..) hs t _⟩

theorem State.enterTrap_tile_other {s : State} (hs : srising s.tiles = true) {t j : Nat} (f : Fin 8) (q : TrapCause)
    (hj : j ≠ t) : (s.enterTrap t f q).tile j = s.tile j :=
  State.tile_modTile_other (s := s.writeScratch ..) hs _ hj

/-- A trap's entry writes its save area and no other byte. -/
theorem State.enterTrap_mem (s : State) (t : Nat) (f : Fin 8) (q : TrapCause) :
    ∃ bs : List Byte, bs.length = 256 ∧
      (s.enterTrap t f q).mem = s.mem.write (scratchAddr t ((s.tile t).saveArea (s.tile t).active)) bs := by
  simp only [State.enterTrap, State.modTile_mem, State.writeScratch]
  exact ⟨_, saveBytes_length .., rfl⟩

theorem State.enterTrap_byte {s : State} (hs : s.mem.wf = true) (t : Nat) (f : Fin 8) (q : TrapCause) {b : Nat}
    (hb : b < scratchAddr t ((s.tile t).saveArea (s.tile t).active) ∨
      scratchAddr t ((s.tile t).saveArea (s.tile t).active) + 256 ≤ b) :
    (s.enterTrap t f q).mem.byte b = s.mem.byte b := by
  obtain ⟨bs, hlen, hmem⟩ := s.enterTrap_mem t f q
  rw [hmem, Mem.byte_write_outside bs hs (by rwa [hlen])]

/-! ### A trap of a core instruction -/

theorem State.coreTrap_eq {s : State} {t : Nat} (he : (s.tile t).trap.entry = none) (f : Fin 8)
    (cause detail word : Nat) : s.coreTrap t f cause detail word =
      s.enterTrap t f { cause := cause, detail := detail, pc := (s.tile t).core.pc, word := word } := by
  simp [State.coreTrap, State.raiseTrap, he]

theorem State.coreTrap_entry {s : State} (hs : Sound s) {t : Nat} (he : (s.tile t).trap.entry = none) (f : Fin 8)
    (cause detail word : Nat) : ((s.coreTrap t f cause detail word).tile t).trap.entry =
      some (nestTrap (s.tile t).core
        { cause := cause, detail := detail, pc := (s.tile t).core.pc, word := word }) := by
  obtain ⟨w, -, -, e⟩ := State.enterTrap_tile hs.tables_rising t f
    { cause := cause, detail := detail, pc := (s.tile t).core.pc, word := word }
  rw [State.coreTrap_eq he, e]

theorem State.coreTrap_cnt {s : State} (hs : Sound s) {t : Nat} (he : (s.tile t).trap.entry = none) (f : Fin 8)
    (cause detail word : Nat) : ((s.coreTrap t f cause detail word).tile t).cnt = (s.tile t).cnt := by
  obtain ⟨w, -, -, e⟩ := State.enterTrap_tile hs.tables_rising t f
    { cause := cause, detail := detail, pc := (s.tile t).core.pc, word := word }
  rw [State.coreTrap_eq he, e]

/-- In a sound state, tile `t`'s core is outside a handler and no trap's entry is in progress: a trap is entered at
once, as no nested one. -/
structure CanTrap (s : State) (t : Nat) : Prop where
  sound : Sound s
  entry : (s.tile t).trap.entry = none
  outside : (s.tile t).core.handler = false

theorem State.coreTrap_trapped {s : State} {t : Nat} (h : CanTrap s t) (f : Fin 8) (cause detail word : Nat) :
    Trapped s t cause detail (s.coreTrap t f cause detail word) := by
  obtain ⟨w, hc, ht, e⟩ := State.enterTrap_tile h.sound.tables_rising t f
    { cause := cause, detail := detail, pc := (s.tile t).core.pc, word := word }
  rw [nestTrap_of_no_handler h.outside] at hc e
  have pick : (if (s.tile t).active = 2 then (if (s.tile t).active = 2 then w else (s.tile t).trap.guest)
      else if (s.tile t).active = 2 then (s.tile t).trap.main else w) = w := by
    split <;> rfl
  rw [State.coreTrap_eq h.entry, Trapped, e]
  dsimp only
  rw [pick]
  exact ⟨rfl, hc, ht, (Nat.mod_eq_of_lt (s.tile t).core.pc.isLt).symm, rfl, rfl,
    fun b hb => State.enterTrap_byte h.sound.mem t f _ hb,
    fun j hj => State.enterTrap_tile_other h.sound.tables_rising f _ hj⟩

/-- A state that differs in error counts and the free-value counter only gives the same trap. -/
theorem trapped_of_onlyCounts {s u w : State} {t cause detail : Nat} (h : OnlyCounts s u t)
    (hw : Trapped u t cause detail w) : Trapped s t cause detail w := by
  obtain ⟨hrest, hother, htile⟩ := h
  obtain ⟨h1, h2, h3, h4, h5, h6, h7, h8⟩ := hw
  have hmem : u.mem = s.mem := (congrArg State.mem hrest :)
  rw [htile] at h2 h3 h4 h6 h7
  exact ⟨h1, h2, h3, h4, h5, h6, fun b hb => (h7 b hb).trans (by rw [hmem]), fun j hj => (h8 j hj).trans (hother j hj)⟩

/-! ### Traps after a draw, a read of scratch and a refusal -/

theorem onlyRecords_core {s u : State} {t : Nat} (h : OnlyRecords s u t) : (u.tile t).core = (s.tile t).core := by
  obtain ⟨-, -, -, e⟩ := h
  rw [e]
  rfl

theorem onlyRecords_trap {s u : State} {t : Nat} (h : OnlyRecords s u t) : (u.tile t).trap = (s.tile t).trap := by
  obtain ⟨-, -, -, e⟩ := h
  rw [e]

theorem CanTrap.of_rec {s u : State} {t : Nat} (h : CanTrap s t) (k : Rec t s u) : CanTrap u t := by
  obtain ⟨hk, ho⟩ := k
  exact ⟨hk.2 h.sound, by rw [onlyRecords_trap (ho h.sound), h.entry],
    by rw [onlyRecords_core (ho h.sound), h.outside]⟩

theorem CanTrap.of_readScratch {s v : State} {t a n : Nat} {d : ReadOut} {o : Option Nat} (h : CanTrap s t)
    (hr : s.readScratch t a n = (d, o, v)) : CanTrap v t := by
  have k := Rec.readScratch s t a n
  rw [hr] at k
  exact h.of_rec k

/-- A trap that no fetched instruction raised. -/
theorem State.wordlessTrap_trapped {s : State} {t : Nat} (h : CanTrap s t) (f : Fin 8) (cause detail : Nat) :
    Trapped s t cause detail (s.wordlessTrap t f cause detail) :=
  trapped_of_onlyCounts (onlyCounts_draw s t) (State.coreTrap_trapped (h.of_rec (Rec.draw t s)) f cause detail _)

theorem State.windowRefusal_onlyCounts {s : State} (hs : Sound s) (t ctx mem u : Nat) :
    OnlyCounts s (s.windowRefusal t ctx mem u) t :=
  onlyCounts_count hs.tables_rising t fun c =>
    { c with winRefusals := satAdd 32 c.winRefusals 1, winPlace := u, winMemory := mem, winContext := ctx }

theorem State.windowRefusal_winRefusals {s : State} (hs : Sound s) (t ctx mem u : Nat) :
    ((s.windowRefusal t ctx mem u).tile t).cnt.winRefusals = satAdd 32 (s.tile t).cnt.winRefusals 1 :=
  congrArg (·.cnt.winRefusals) (State.tile_modTile_same hs.tables_rising t _)

/-- `w` is `s` with tile `t`'s core in the window trap and the refusal counted (R102, R247). -/
def WindowTrapped (s : State) (t detail : Nat) (w : State) : Prop :=
  Trapped s t 4 detail w ∧ (w.tile t).cnt.winRefusals = satAdd 32 (s.tile t).cnt.winRefusals 1

theorem State.windowRefusal_coreTrap {s : State} {t : Nat} (h : CanTrap s t) (f : Fin 8)
    (ctx mem u detail word : Nat) :
    WindowTrapped s t detail ((s.windowRefusal t ctx mem u).coreTrap t f 4 detail word) := by
  have hu := h.of_rec (Rec.windowRefusal s t ctx mem u)
  refine ⟨trapped_of_onlyCounts (State.windowRefusal_onlyCounts h.sound ..) (State.coreTrap_trapped hu ..), ?_⟩
  rw [State.coreTrap_cnt hu.sound hu.entry, State.windowRefusal_winRefusals h.sound]

/-- The refusal and the draw of the trap's word may change places. -/
theorem State.windowRefusal_wordlessTrap {s : State} {t : Nat} (h : CanTrap s t) (f : Fin 8)
    (ctx mem u detail : Nat) :
    WindowTrapped s t detail ((s.windowRefusal t ctx mem u).wordlessTrap t f 4 detail) := by
  obtain ⟨htrap, hcount⟩ := State.windowRefusal_coreTrap (h.of_rec (Rec.draw t s)) f ctx mem u detail
    (Config.trapWord s.draw.1).toNat
  exact ⟨trapped_of_onlyCounts (onlyCounts_draw s t) htrap, hcount⟩

/-! ### A core that may issue -/

theorem coreFree_of_coreReady {s : State} {t : Nat} {f : Fin 8} (h : s.coreReady t = some f) :
    (s.tile t).coreFree = true := by
  unfold State.coreReady at h
  split at h
  · split at h
    · assumption
    · cases h
  · cases h

theorem entry_of_coreReady {s : State} {t : Nat} {f : Fin 8} (h : s.coreReady t = some f) :
    (s.tile t).trap.entry = none := Tile.coreFree_entry (coreFree_of_coreReady h)

/-! ### The fetch (R246, R247) -/

theorem State.fetchWord_stray {s : State} {t : Nat} {a : W64} (h : (s.tile t).core.stray = some a) (f : Fin 8) :
    s.fetchWord t f = (none, s.wordlessTrap t f 2 a.toNat) := by
  simp only [State.fetchWord, h]

theorem State.fetchWord_held {s : State} {t : Nat} {d : List Byte} (h : (s.tile t).core.stray = none)
    (hp : (s.tile t).heldPair = some d) (f : Fin 8) : s.fetchWord t f = (some ((s.tile t).wordOf d), s) := by
  simp only [State.fetchWord, h, hp]

/-- A pair outside the windows of the active context. -/
theorem State.fetchWord_refused {s : State} {t a : Nat} (h : (s.tile t).core.stray = none)
    (hp : (s.tile t).heldPair = none) (ha : (s.tile t).core.pc.toNat / 8 * 8 = a)
    (hw : (s.tile t).decl.allows (s.tile t).active false 1 (a / 256) = false) (f : Fin 8) :
    s.fetchWord t f = (none, (s.windowRefusal t (s.tile t).active 1 (a / 256)).wordlessTrap t f 4
      (s.tile t).core.pc.toNat) := by
  subst ha
  simp [State.fetchWord, h, hp, State.fetchPair, hw]

/-- A pair with an uncorrectable byte. -/
theorem State.fetchWord_error {s v : State} {t a o : Nat} {d : ReadOut} (h : (s.tile t).core.stray = none)
    (hp : (s.tile t).heldPair = none) (ha : (s.tile t).core.pc.toNat / 8 * 8 = a)
    (hw : (s.tile t).decl.allows (s.tile t).active false 1 (a / 256) = true)
    (hr : s.readScratch t a 8 = (d, some o, v)) (f : Fin 8) :
    s.fetchWord t f = (none, v.wordlessTrap t f 3 o) := by
  subst ha
  simp [State.fetchWord, h, hp, State.fetchPair, hw, hr]

theorem State.fetchWord_read {s v : State} {t a : Nat} {d : ReadOut} (h : (s.tile t).core.stray = none)
    (hp : (s.tile t).heldPair = none) (ha : (s.tile t).core.pc.toNat / 8 * 8 = a)
    (hw : (s.tile t).decl.allows (s.tile t).active false 1 (a / 256) = true)
    (hr : s.readScratch t a 8 = (d, none, v)) (f : Fin 8) : s.fetchWord t f =
      (some ((s.tile t).wordOf d.data), v.modTile t fun x => { x with pair := some (a, d.data) }) := by
  subst ha
  simp [State.fetchWord, h, hp, State.fetchPair, hw, hr]

/-- A fetch that delivers a word leaves the trap state of the tile alone. -/
theorem State.fetchWord_trap {s u : State} (hs : Sound s) {t n : Nat} {f : Fin 8}
    (h : s.fetchWord t f = (some n, u)) : (u.tile t).trap = (s.tile t).trap := by
  cases hst : (s.tile t).core.stray with
  | some a => simp [State.fetchWord_stray hst] at h
  | none =>
    cases hp : (s.tile t).heldPair with
    | some d =>
      rw [State.fetchWord_held hst hp, Prod.mk.injEq] at h
      rw [h.2]
    | none =>
      cases hw : (s.tile t).decl.allows (s.tile t).active false 1 ((s.tile t).core.pc.toNat / 8 * 8 / 256) with
      | false => simp [State.fetchWord_refused hst hp rfl hw] at h
      | true =>
        have k := Rec.readScratch s t ((s.tile t).core.pc.toNat / 8 * 8) 8
        rcases hr : s.readScratch t ((s.tile t).core.pc.toNat / 8 * 8) 8 with ⟨d, _ | o, v⟩
        · rw [State.fetchWord_read hst hp rfl hw hr, Prod.mk.injEq] at h
          rw [hr] at k
          rw [← h.2, State.tile_modTile_same (k.1.2 hs).tables_rising, onlyRecords_trap (k.2 hs)]
        · simp [State.fetchWord_error hst hp rfl hw hr] at h

/-! ### Commands of a core and their fetch -/

/-- A fetch that traps is all that any command of the core does. -/
theorem runFetched_trap {s w : State} {t : Nat} {f : Fin 8} (ht : t < s.tileCount) (hr : s.coreReady t = some f)
    (hw : s.fetchWord t f = (none, w)) (claims : Nat → Bool) (body : State → Fin 8 → Nat → State) :
    runFetched s t claims body = .next w := by
  simp only [runFetched, if_neg (Nat.not_le.mpr ht), hr, hw]

/-- A command that claims the word fetched runs its body. -/
theorem runFetched_claimed {s u : State} {t n : Nat} {f : Fin 8} (h : FetchedWord s t f n u) {claims : Nat → Bool}
    (hc : claims n = true) (body : State → Fin 8 → Nat → State) :
    runFetched s t claims body = .next (body u f n) := by
  simp only [runFetched, if_neg (Nat.not_le.mpr h.tile), h.ready, h.word, hc, if_true]

theorem fetchedWord_sound {s u : State} {t n : Nat} {f : Fin 8} (h : FetchedWord s t f n u) (hs : Sound s) :
    Sound u := by
  have k := (State.fetchWord_kept s t f).2 hs
  rwa [h.word] at k

end Sys2Proof.Machine
end

section
/-! PROOFS. Comparisons and branches (R242, R244): the flags of CMP, CMPI and TST, the conditions of B.cond, and the
statement O9. -/

namespace Sys2Proof.Machine

open Sys2Proof.Safety

/-! ### Flags (R244) -/

/-- The sign rule of `compareFlags` for V is signed overflow of the difference. -/
theorem compareFlags_v (a b : W64) : (compareFlags a b).v = a.ssubOverflow b := by
  rw [BitVec.ssubOverflow_eq]
  show (a.msb != b.msb && (a - b).msb != a.msb) = _
  cases a.msb <;> cases b.msb <;> cases (a - b).msb <;> rfl

theorem ssubOverflow_iff (a b : W64) : a.ssubOverflow b = true ↔ (a - b).toInt ≠ a.toInt - b.toInt := by
  refine ⟨fun h he => ?_, fun h => Decidable.byContradiction fun hn => h (BitVec.toInt_sub_of_not_ssubOverflow hn)⟩
  have hlt := BitVec.toInt_lt (x := a - b)
  have hle := BitVec.le_toInt (a - b)
  simp only [BitVec.ssubOverflow, Bool.or_eq_true, decide_eq_true_eq] at h
  omega

theorem compareFlags_isDifference (a b : W64) : IsDifference a b (compareFlags a b) := by
  refine ⟨?z, BitVec.msb_eq_getLsbD_last (a - b), decide_eq_true_iff, ?v⟩
  case z =>
    have hsub : a - b = 0#64 ↔ a = b := by rw [BitVec.sub_eq_iff_eq_add, BitVec.zero_add]
    exact beq_iff_eq.trans hsub
  case v => rw [compareFlags_v, ssubOverflow_iff]

theorem testFlags_eq (a b : W64) : testFlags a b =
    { z := decide (a &&& b = 0), n := (a &&& b).getLsbD 63, c := false, v := false } := by
  rw [testFlags, BitVec.msb_eq_getLsbD_last]
  rfl

theorem Flags.holds_eq_branchTaken (fl : Flags) (b : Fin 15) : fl.holds b = branchTaken fl b.val := by
  match b with
  | 0 | 1 | 2 | 3 | 4 | 5 | 6 | 7 | 8 | 9 | 10 | 11 | 12 | 13 | 14 => rfl

/-! ### Branch targets (R242) -/

theorem branchTarget_here {n : Nat} (c : RegContext) (off : BitVec n) :
    branchTarget c.here off = BitVec.ofInt 64 (c.pc.toNat + 4 * off.toInt) := by
  have hpc : c.here = BitVec.ofNat 64 c.pc.toNat := BitVec.eq_of_toNat_eq (by simp [RegContext.here])
  rw [BitVec.ofInt_add, BitVec.ofInt_mul, BitVec.ofInt_natCast, ← hpc]
  rfl

theorem coreInstr_of_condition_fifteen {n : Nat} (hmaj : n / 2 ^ 26 = 0x20) (hcond : n / 2 ^ 22 % 16 = 0xF)
    (t : Nat) : coreInstr t n = none := by
  have h1 : bits n 26 6 = 0x20 := congrArg (· % 2 ^ 6) ((Nat.shiftRight_eq_div_pow n 26).trans hmaj)
  have h2 : bits n 22 4 = 0xF := (congrArg (· % 2 ^ 4) (Nat.shiftRight_eq_div_pow n 22)).trans hcond
  simp [coreInstr, h1, decodeBranch, h2]

/-! ### The commands -/

theorem aluFlags_next {s u : State} {t : Nat} {f : Fin 8} {i : Instr} (hs : s.inv = true) (h : Fetched s t f i u)
    (flags : State → Flags) :
    ∃ w, aluFlags s t i flags = .next w ∧ CoreIs u t { (u.tile t).core.advance with flags := flags u } w :=
  ⟨_, runCore_wordless h _, State.modCore_is (fetched_sound h hs).tables_rising t _⟩

theorem exec_bCond_next {s u : State} {t : Nat} {f : Fin 8} {b : Fin 15} {off : BitVec 22} (hs : s.inv = true)
    (h : Fetched s t f (.bCond t b off) u) :
    ∃ w, exec (.bCond t b off) s = .next w ∧
      CoreIs u t (if branchTaken (u.tile t).core.flags b.val then
        (u.tile t).core.goTo (BitVec.ofInt 64 ((u.tile t).core.pc.toNat + 4 * off.toInt))
        else (u.tile t).core.advance) w := by
  have hu := (fetched_sound h hs).tables_rising
  refine ⟨_, runCore_wordless h _, ?_⟩
  rw [Flags.holds_eq_branchTaken, branchTarget_here]
  split <;> exact State.modCore_is hu t _

/-- The word of a B.cond with condition 0xF takes the trap of an illegal instruction. -/
theorem exec_illegalInstruction_next {s u : State} {t : Nat} {f : Fin 8} {word : W32} (hs : Sound s)
    (h : FetchedWord s t f word.toNat u) (hi : coreInstr t word.toNat = none) :
    ∃ w, exec (.illegalInstruction t word) s = .next w ∧ (w.tile t).trap.entry =
      some (nestTrap (u.tile t).core { cause := 1, pc := (u.tile t).core.pc, word := word.toNat }) := by
  have he : (u.tile t).trap.entry = none := by
    rw [State.fetchWord_trap hs h.word, entry_of_coreReady h.ready]
  exact ⟨_, runFetched_claimed h (by simp [hi]) _, State.coreTrap_entry (fetchedWord_sound h hs) he f 1 0 word.toNat⟩

/-! ### The statement -/

/-- Settles O9: `compareFlags` is the difference of R244, `Flags.holds` is its condition table, and each command runs
its body on the state after the fetch. -/
theorem flagsAndBranches : Obligations.FlagsAndBranches := by
  intro s u t f ra rb imm off hs
  refine ⟨fun h => ?cmp, fun h => ?cmpi, fun h => ?tst, fun b h => exec_bCond_next hs h,
    fun word hmaj hcond h => ?illegal⟩
  case cmp =>
    obtain ⟨w, hw, hc⟩ := aluFlags_next hs h fun s => compareFlags (s.reg t ra) (s.reg t rb)
    exact ⟨w, hw, _, compareFlags_isDifference .., hc⟩
  case cmpi =>
    obtain ⟨w, hw, hc⟩ := aluFlags_next hs h fun s => compareFlags (s.reg t ra) (signImm imm)
    exact ⟨w, hw, _, compareFlags_isDifference .., hc⟩
  case tst =>
    obtain ⟨w, hw, hc⟩ := aluFlags_next hs h fun s => testFlags (s.reg t ra) (s.reg t rb)
    exact ⟨w, hw, testFlags_eq (u.reg t ra) (u.reg t rb) ▸ hc⟩
  case illegal =>
    obtain ⟨w, hw, he⟩ := exec_illegalInstruction_next (inv_iff.mp hs) h
      (coreInstr_of_condition_fifteen hmaj hcond t)
    refine ⟨w, hw, by rw [he]; rfl, fun hh => ?_⟩
    rw [he, nestTrap_of_no_handler hh]
    rfl

end Sys2Proof.Machine
end

section
/-! PROOFS. Loads, stores and fetches (R247): the address of an access, the checks it meets, what it does when it meets
them, and the statement O12. -/

namespace Sys2Proof.Machine

open Sys2Proof.Safety

/-! ### The address and the checks of an access -/

theorem coreAddress_eq (a : W64) (imm : W16) : coreAddress a imm = (BitVec.ofInt 64 (a.toInt + imm.toInt)).toNat := by
  rw [coreAddress, BitVec.ofInt_add, BitVec.ofInt_toInt]
  rfl

theorem coreAccess_of_misplaced {a n : Nat} (h : 0x3FFF < a ∨ a % n ≠ 0) (s : State) (t : Nat) (f : Fin 8)
    (word : Nat) (write : Bool) (body : State) : coreAccess s t f word a n write body = s.coreTrap t f 2 a word :=
  if_pos h

theorem coreAccess_of_refused {s : State} {t a n : Nat} {write : Bool} (hr : a ≤ 0x3FFF) (ha : a % n = 0)
    (hw : (s.tile t).decl.allows (s.tile t).active write 1 (a / 256) = false) (f : Fin 8) (word : Nat) (body : State) :
    coreAccess s t f word a n write body =
      (s.windowRefusal t (s.tile t).active 1 (a / 256)).coreTrap t f 4 a word := by
  simp [coreAccess, ha, hw, Nat.not_lt.mpr hr]

theorem coreAccess_of_allowed {s : State} {t a n : Nat} {write : Bool} (hr : a ≤ 0x3FFF) (ha : a % n = 0)
    (hw : (s.tile t).decl.allows (s.tile t).active write 1 (a / 256) = true) (f : Fin 8) (word : Nat) (body : State) :
    coreAccess s t f word a n write body = body := by
  simp [coreAccess, ha, hw, Nat.not_lt.mpr hr]

/-- An access of `n` bytes at `a` that fails the check of its address, or of the windows of the active context, leaves
`w`, with the trap that R247 gives it. -/
structure Checked (u : State) (t a n : Nat) (write : Bool) (w : State) : Prop where
  misplaced : 0x3FFF < a ∨ a % n ≠ 0 → Trapped u t 2 a w
  refused : a ≤ 0x3FFF → a % n = 0 → (u.tile t).decl.allows (u.tile t).active write 1 (a / 256) = false →
    WindowTrapped u t a w

theorem coreAccess_checked {u : State} {t : Nat} (h : CanTrap u t) (f : Fin 8) (word a n : Nat) (write : Bool)
    (body : State) : Checked u t a n write (coreAccess u t f word a n write body) := by
  refine ⟨fun hm => ?_, fun hr ha hw => ?_⟩
  · rw [coreAccess_of_misplaced hm]
    exact State.coreTrap_trapped h f 2 a word
  · rw [coreAccess_of_refused hr ha hw]
    exact State.windowRefusal_coreTrap h f (u.tile t).active 1 (a / 256) a word

/-! ### A load that meets an uncorrectable byte -/

/-- The same of a read, which traps on an uncorrectable byte as well. -/
structure LoadChecked (u : State) (t a n : Nat) (w : State) : Prop extends Checked u t a n false w where
  erroneous : ∀ o d v, a ≤ 0x3FFF → a % n = 0 →
    (u.tile t).decl.allows (u.tile t).active false 1 (a / 256) = true → u.readScratch t a n = (d, some o, v) →
    Trapped v t 3 o w

theorem State.load_of_error {u v : State} {t a n o : Nat} {d : ReadOut} {ra : Reg} {imm : W16}
    (hc : coreAddress (u.reg t ra) imm = a) (hr : a ≤ 0x3FFF) (ha : a % n = 0)
    (hw : (u.tile t).decl.allows (u.tile t).active false 1 (a / 256) = true)
    (hd : u.readScratch t a n = (d, some o, v)) (f : Fin 8) (word : Nat) (sg : Bool) (rd : Reg) :
    u.load t f word n sg rd ra imm = v.coreTrap t f 3 o word := by
  subst hc
  simp only [State.load, coreAccess_of_allowed hr ha hw, hd]

/-! ### A store that meets the checks -/

theorem leBytes_getElem : ∀ (n x i : Nat) (h : i < (leBytes n x).length),
    (leBytes n x)[i] = BitVec.ofNat 8 (x / 256 ^ i)
  | n + 1, x, 0, _ => by simp [leBytes]
  | n + 1, x, i + 1, h => by
    simp only [leBytes, List.getElem_cons_succ]
    rw [leBytes_getElem n (x / 256) i, Nat.div_div_eq_div_mul, Nat.pow_succ']

theorem State.writeScratch_retireNone_stored {u : State} (hu : Sound u) (t a n : Nat) (x : W64) :
    Stored u t a n x ((u.writeScratch t a (leBytes n x.toNat)).retireNone t) := by
  have hlen := leBytes_length n x.toNat
  obtain ⟨honly, hcore⟩ := State.modCore_is (u := u.writeScratch t a (leBytes n x.toNat)) hu.tables_rising t
    RegContext.advance
  refine ⟨fun i hi => ?_, fun b hb => ?_, honly, hcore⟩
  · rw [← leBytes_getElem n x.toNat i (by omega)]
    exact Mem.byte_write_inside _ i (by omega) hu.mem
  · exact Mem.byte_write_outside _ hu.mem (by omega)

theorem State.store_stored {u : State} (hu : Sound u) {t a n : Nat} {ra : Reg} {imm : W16}
    (hc : coreAddress (u.reg t ra) imm = a) (h : CoreWrites u t a n) (f : Fin 8) (word : Nat) (rs : Reg) :
    Stored u t a n (u.reg t rs) (u.store t f word n rs ra imm) := by
  subst hc
  rw [State.store, coreAccess_of_allowed h.range h.aligned h.window]
  exact State.writeScratch_retireNone_stored hu ..

/-! ### The commands -/

theorem fetched_canTrap {s u : State} {t : Nat} {f : Fin 8} {c : Instr} (hs : s.inv = true) (h : Fetched s t f c u)
    (hh : (u.tile t).core.handler = false) : CanTrap u t :=
  ⟨fetched_sound h hs, Tile.coreFree_entry (fetched_free h hs), hh⟩

/-- A load command meets the checks of R247, and traps on an uncorrectable byte. -/
theorem exec_load_checked {s u : State} {t n a : Nat} {f : Fin 8} {c : Instr} {sg : Bool} {rd ra : Reg} {imm : W16}
    (hc : coreAddress (u.reg t ra) imm = a) (hu : CanTrap u t) (h : Fetched s t f c u)
    (he : exec c s = runCore s t c fun s f w => s.load t f w n sg rd ra imm) :
    ∃ w, exec c s = .next w ∧ LoadChecked u t a n w := by
  obtain ⟨word, -, hw⟩ := runCore_next h fun s f w => s.load t f w n sg rd ra imm
  refine ⟨_, he.trans hw, ?_, fun o d v hr ha hall hd => ?_⟩
  · subst hc
    exact coreAccess_checked hu ..
  · rw [State.load_of_error hc hr ha hall hd]
    exact State.coreTrap_trapped (hu.of_readScratch hd) f 3 o word

/-- A store command meets the checks of R247. -/
theorem exec_store_checked {s u : State} {t n a : Nat} {f : Fin 8} {c : Instr} {rs ra : Reg} {imm : W16}
    (hc : coreAddress (u.reg t ra) imm = a) (hu : CanTrap u t) (h : Fetched s t f c u)
    (he : exec c s = runCore s t c fun s f w => s.store t f w n rs ra imm) :
    ∃ w, exec c s = .next w ∧ Checked u t a n true w := by
  obtain ⟨word, -, hw⟩ := runCore_next h fun s f w => s.store t f w n rs ra imm
  subst hc
  exact ⟨_, he.trans hw, coreAccess_checked hu ..⟩

theorem exec_stb_stored {s u : State} {t a : Nat} {f : Fin 8} {rs ra : Reg} {imm : W16} (hu : Sound u)
    (hc : coreAddress (u.reg t ra) imm = a) (h : Fetched s t f (.stb t rs ra imm) u) (hw : CoreWrites u t a 1) :
    ∃ w, exec (.stb t rs ra imm) s = .next w ∧ Stored u t a 1 (u.reg t rs) w := by
  obtain ⟨word, -, hn⟩ := runCore_next h fun s f w => s.store t f w 1 rs ra imm
  exact ⟨_, hn, State.store_stored hu hc hw f word rs⟩

/-! ### The statement -/

/-- Settles O12: loads and stores run `coreAccess`, whose trap is that of the first check that fails; a fetch that
fails is all that a command of the core does, so its trap is the same for every command. -/
theorem accessChecks : Obligations.AccessChecks := by
  intro s u t f r ra imm hs
  refine ⟨?access, ?fetch⟩
  case access =>
    intro hh a checked
    have ha : coreAddress (u.reg t ra) imm = a := coreAddress_eq ..
    refine ⟨fun c n hm h => ?load, fun c n hm h => ?store, fun hlo hhi hw h => ?area⟩
    case load =>
      have hu := fetched_canTrap hs h hh
      obtain ⟨w, hn, hck⟩ : ∃ w, exec c s = .next w ∧ LoadChecked u t a n w := by
        simp only [List.mem_cons, Prod.mk.injEq, List.not_mem_nil, or_false] at hm
        rcases hm with ⟨rfl, rfl⟩ | ⟨rfl, rfl⟩ | ⟨rfl, rfl⟩ | ⟨rfl, rfl⟩ | ⟨rfl, rfl⟩ | ⟨rfl, rfl⟩ | ⟨rfl, rfl⟩ <;>
          exact exec_load_checked ha hu h rfl
      exact ⟨⟨fun hm => ⟨w, hn, hck.misplaced hm⟩, fun h1 h2 h3 => ⟨w, hn, hck.refused h1 h2 h3⟩⟩,
        fun o d v h1 h2 h3 h4 => ⟨w, hn, hck.erroneous o d v h1 h2 h3 h4⟩⟩
    case store =>
      have hu := fetched_canTrap hs h hh
      obtain ⟨w, hn, hck⟩ : ∃ w, exec c s = .next w ∧ Checked u t a n true w := by
        simp only [List.mem_cons, Prod.mk.injEq, List.not_mem_nil, or_false] at hm
        rcases hm with ⟨rfl, rfl⟩ | ⟨rfl, rfl⟩ | ⟨rfl, rfl⟩ | ⟨rfl, rfl⟩ <;> exact exec_store_checked ha hu h rfl
      exact ⟨fun hm => ⟨w, hn, hck.misplaced hm⟩, fun h1 h2 h3 => ⟨w, hn, hck.refused h1 h2 h3⟩⟩
    case area => exact exec_stb_stored (fetched_sound h hs) ha h ⟨hhi, Nat.mod_one a, hw⟩
  case fetch =>
    intro ht hr hh x a c hc
    have hx : CanTrap s t := ⟨inv_iff.mp hs, entry_of_coreReady hr, hh⟩
    have hexec : ∃ claims body, exec c s = runFetched s t claims body := by
      simp only [List.mem_cons, List.not_mem_nil, or_false] at hc
      rcases hc with
        rfl | rfl | rfl | rfl | rfl | rfl | rfl | rfl | rfl | rfl | rfl | rfl |
        rfl | rfl | rfl | rfl | rfl | rfl | rfl | rfl | rfl | rfl | rfl | rfl |
        rfl | rfl | rfl | rfl | rfl | rfl | rfl | rfl | rfl | rfl | rfl | rfl <;>
      exact ⟨_, _, rfl⟩
    have hnext : ∀ {w}, s.fetchWord t f = (none, w) → exec c s = .next w := fun hw => by
      obtain ⟨claims, body, e⟩ := hexec
      rw [e, runFetched_trap ht hr hw]
    refine ⟨fun p hp => ?stray, fun hst hp => ⟨fun hw => ?window, fun o d v hw hd => ?error⟩⟩
    case stray => exact ⟨_, hnext (State.fetchWord_stray hp f), State.wordlessTrap_trapped hx f 2 p.toNat⟩
    case window =>
      exact ⟨_, hnext (State.fetchWord_refused hst hp rfl hw f), State.windowRefusal_wordlessTrap hx ..⟩
    case error =>
      exact ⟨_, hnext (State.fetchWord_error hst hp rfl hw hd f),
        State.wordlessTrap_trapped (hx.of_readScratch hd) f 3 o⟩

end Sys2Proof.Machine
end

section
/-! PROOFS. Flits, acknowledgement and credits (R366–R371): what a sideband of zeros does, and the refutation of O58. -/

namespace Sys2Proof.Machine

/-! ### A link after a write of the link table -/

theorem Sound.links_rising {s : State} (h : Sound s) : srising s.links = true := by
  have hrising := h.rising
  simp only [State.rising, Bool.and_eq_true] at hrising
  obtain ⟨⟨⟨⟨-, hlinks⟩, -⟩, -⟩, -⟩ := hrising
  exact hlinks

theorem State.link_setLink_same {s : State} (h : srising s.links = true) (k : Fin 24) (x : LinkSt) :
    (s.setLink k x).link k = x := sget_sput_same h ..

theorem State.link_modLink_same {s : State} (h : srising s.links = true) (k : Fin 24) (g : LinkSt → LinkSt) :
    (s.modLink k g).link k = g (s.link k) := State.link_setLink_same h ..

/-! ### The sideband of zeros (R368, R371) -/

theorem crcMsbByte_zero : crcMsbByte 8 0x07 0 0#8 = 0 := by decide

theorem sidebandCrc_zero : sidebandCrc 0 = 0 := by
  simp [sidebandCrc, leBytes, crcMsbByte_zero]

/-- Its CRC-8 holds and it neither acknowledges nor asks for a replay: what is left of it is VC0's credit total of 0. -/
theorem exec_sidebandReceive_zero {s : State} {k : Fin 24} (h : (s.link k).carries = true) :
    exec (.sidebandReceive k 0) s = .next (s.modLink k fun l => l.credit 0 0) := by
  have hcrc : sidebandCrc (bits 0 0 24) = bits 0 24 8 := sidebandCrc_zero
  have hack : bit 0 12 = false := Nat.zero_testBit 12
  have hnak : bit 0 13 = false := Nat.zero_testBit 13
  have hvc : bits 0 14 3 = 0 := by decide
  have htotal : bits 0 17 7 = 0 := by decide
  simp [exec_sidebandReceive, execSidebandReceive, h, hcrc, hack, hnak, hvc, htotal]

/-! ### A sound state whose credit table is out of order -/

/-- A link that is UP and holds two entries for VC0 in its credit table, the first of them the default. -/
def LinkSt.creditTwice : LinkSt := { st := .up, credits := [(0, 0), (0, 1)] }

/-- Link 0 of a device after reset, with that table. -/
def State.creditTwice : State := State.reset.setLink 0 .creditTwice

/-- `State.inv` orders the keys of the link table, and says nothing of the tables within a link. -/
theorem State.creditTwice_inv : State.creditTwice.inv = true :=
  (State.setLink_kept State.reset 0 .creditTwice).inv (by decide)

theorem State.creditTwice_link : State.creditTwice.link 0 = .creditTwice := by decide

/-- The total of 0 frees no slot, so 0 is written over the first entry; that removes it, and the second is read. -/
theorem LinkSt.creditTwice_credit : sget 0 (LinkSt.creditTwice.credit 0 0).credits 0 = 1 := by decide

/-! ### The statement -/

/-- Refutes O58: no clause of `State.inv` speaks of the tables within a link, so a link may hold VC0 twice in its
credit table. The statement has the sideband of zeros leave VC0's credits at 0; there they become 1. -/
theorem not_flitsAndReplay : ¬ Obligations.FlitsAndReplay := by
  intro h
  have hup : (State.creditTwice.link 0).carries = true := by rw [State.creditTwice_link]; rfl
  obtain ⟨-, -, -, hsideband, -⟩ := h State.creditTwice 0 State.creditTwice_inv
  obtain ⟨-, hnoNak, -⟩ := hsideband 0 hup
  obtain ⟨w, hw, -, ⟨hvc, -⟩, -⟩ := hnoNak sidebandCrc_zero (.inl rfl)
  have hstated : sget 0 (w.link 0).credits 0 = 0 := by
    have htotal := (hvc (by decide)).1
    rw [State.creditTwice_link] at htotal
    exact htotal
  have hcredited : sget 0 (w.link 0).credits 0 = 1 := by
    rw [exec_sidebandReceive_zero hup] at hw
    obtain rfl := Host.Outcome.next.inj hw
    rw [State.link_modLink_same (inv_iff.mp State.creditTwice_inv).links_rising, State.creditTwice_link,
      LinkSt.creditTwice_credit]
  exact absurd (hstated.symm.trans hcredited) (by decide)

end Sys2Proof.Machine
end
